-- ==== Sys2Proof/Word.lean ====
section
/-! DEFINITION. The octet of the port messages and the two plain counting arithmetics of section 4.5 of 00_scope.md:
a quantity that saturates is held at its top, a quantity that wraps begins again from zero. -/

namespace Sys2Proof

/-- One octet of a port message (section 11.8). -/
abbrev Byte := BitVec 8

/-- Addition of a quantity that saturates at `top` (section 4.5). -/
def satAdd (top a b : Nat) : Nat := min top (a + b)

/-- One more of a quantity that wraps: past `top` it begins again from zero (section 4.5). -/
def wrapInc (top a : Nat) : Nat := (a + 1) % (top + 1)

/-- The top of a sixteen-bit count, 65535. -/
abbrev top16 : Nat := 65535

/-- The top of a thirty-two-bit sum, 4,294,967,295. -/
abbrev top32 : Nat := 4294967295

end Sys2Proof
end

