-- ==== Sys2Proof/Config.lean ====
section
/-! DEFINITION. What an implementation fixes: the durations the rules give, in milliseconds of elapsed time, and the
free values of the model (bytes of a TARIFF_GET response that the layout of section 11.8 names and no rule gives). -/

namespace Sys2Proof.Config

/-- R4: a transit entry's window. -/
abbrev transitWindowMs : Nat := 400
/-- R12: a collect cycle's window. -/
abbrev collectWindowMs : Nat := 600
/-- R15: a refund cycle's window. -/
abbrev refundWindowMs : Nat := 1200
/-- R18: the return cup watch. -/
abbrev cupWatchMs : Nat := 1500
/-- R115: loop current after seizure. -/
abbrev seizureMs : Nat := 300
/-- R116: the dial-tone wait. -/
abbrev dialToneMs : Nat := 4000
/-- R118: a symbol's tone. -/
abbrev toneMs : Nat := 70
/-- R118: the silence after a symbol's tone. -/
abbrev silenceMs : Nat := 70
/-- R119: a pulse's break. -/
abbrev pulseBreakMs : Nat := 60
/-- R119: a pulse's make. -/
abbrev pulseMakeMs : Nat := 40
/-- R119: the pause between two digits. -/
abbrev interDigitMs : Nat := 700
/-- R121: the answer limit of a caller's call, in seconds. -/
abbrev sessionAnswerS : Nat := 90
/-- R121: the answer limit of a report call, in seconds. -/
abbrev reportAnswerS : Nat := 45
/-- R123: the release guard. -/
abbrev releaseGuardMs : Nat := 900
/-- Section 8.1: the first-symbol timer. -/
abbrev firstSymbolMs : Nat := 20000
/-- Section 8.1: the inter-symbol timer. -/
abbrev interSymbolMs : Nat := 6000
/-- Section 8.1: the credit wait timer. -/
abbrev creditWaitMs : Nat := 30000
/-- R132: a key pressed this long becomes stuck. -/
abbrev keyStuckMs : Nat := 30000
/-- R173: the delay a FAULT occurrence gives. -/
abbrev faultDelayMs : Nat := 30000
/-- R183, R185: one minute of retry delay. -/
abbrev minuteMs : Nat := 60000
/-- R179: the reply wait. -/
abbrev replyWaitMs : Nat := 8000
/-- R77: one second of elapsed time. -/
abbrev secondMs : Nat := 1000

/-- Section 1.3: the most transit entries. -/
abbrev transitMax : Nat := 4
/-- Section 1.4: the most held coins. -/
abbrev columnMax : Nat := 12
/-- Section 2.2: the most owed entries. -/
abbrev owedMax : Nat := 4
/-- R177: the most records of one report. -/
abbrev reportMax : Nat := 8
/-- Section 6.3: rate-seconds in one MU. -/
abbrev rateSecondsPerMu : Nat := 6000
/-- R96: the most MU of a step charge. -/
abbrev stepChargeMax : Nat := 65535

/-- FREE VALUE (log entry 9, DESIGN CHOICE): the lowest bit of byte 0 (NEW or REPLACE) of the 42 bytes that TARIFF_GET
returns for a slot. Section 11.8 lays the byte out; no rule says which mode a record read back bears. -/
opaque readbackModeBit : Nat → Bool

/-- FREE VALUE (log entry 9, DESIGN CHOICE): the five clock-time bytes of a TARIFF_GET response, by slot and byte number,
where the record's effective-from or retire-at is absent. Section 11.8 lays the bytes out; no rule gives them a value. -/
opaque readbackAbsentByte : Nat → Nat → Byte

end Sys2Proof.Config
end

