-- ==== Sys2Proof/Syntax.lean ====
section
/-! DEFINITION. The commands of the T4: one constructor of `Instr` per row of spec/opcode_table.json, with what the row's
event or request carries, and the small types its operands are made of. -/

namespace Sys2Proof

/-- A keypad symbol by its four-bit code (section 11.8): the digits 0 to 9, `*` as 10 and `#` as 11. -/
abbrev Symbol := Fin 12

/-- The symbol `*`. -/
abbrev Symbol.star : Symbol := 10
/-- The symbol `#`. -/
abbrev Symbol.hash : Symbol := 11

/-- One of the thirteen keys of the keypad (section 8.3). -/
inductive Key where
  | symbol (k : Symbol)
  | followOn
  deriving DecidableEq, Repr

/-- A key's place among the thirteen: the symbol keys by their code, FOLLOW_ON last. -/
def Key.idx : Key → Fin 13
  | .symbol k => k.castSucc
  | .followOn => 12

/-- A reading of the door sensor (section 3.1). -/
inductive DoorReading where
  | closed
  | opened
  deriving DecidableEq, Repr

/-- A reading of the key switch (section 3.1). -/
inductive KeyReading where
  | locked
  | service
  | collect
  deriving DecidableEq, Repr

/-- A reading of the cashbox presence sensor (section 3.1). -/
inductive Presence where
  | absent
  | present
  deriving DecidableEq, Repr

/-- The two gates of section 1.5. -/
inductive Gate where
  | collect
  | refund
  deriving DecidableEq, Repr

/-- The two ports of section 11.2. -/
inductive Port where
  | host
  | service
  deriving DecidableEq, Repr

/-- The six retained regions of section 11.5. -/
inductive Region where
  | tariff
  | bands
  | settings
  | accounts
  | escrow
  | clock
  deriving DecidableEq, Repr

/-- Where the main supply fails again during a start-up (R192): while the regions are judged, with the defaults of the regions
named written, or after so many of the whole changes that the start-up makes after that (`State.startChanges`). -/
inductive StartCut where
  | judging (written : List Region)
  | after (changes : Nat)
  deriving DecidableEq, Repr

/-- What a main-supply start-up finds outside the T4 (R55, R170, R191): the regions whose check word does not match their
content, the first readings of the compartment inputs, and for each supervised input whether its line stands HIGH; and
where the supply fails again before the start-up has ended, if it does (R192). -/
structure StartReadings where
  failed : List Region
  door : DoorReading
  key : KeyReading
  presence : Presence
  linesHigh : Vector Bool 8
  cut : Option StartCut := none
  deriving DecidableEq, Repr

/-- The commands, in the order of spec/opcode_table.json. A port request carries the port it arrives on, its tag and its
body; its kind is the constructor's (R186). -/
inductive Instr where
  | validatorAccepted (cls : Fin 16)
  | validatorRejected
  | columnEntryPulse
  | cashboxEntryPulse
  | transitWindowEnd
  | refundCycleStart
  | collectCycleStart
  | collectGateHome
  | collectWindowTimeout
  | refundGateHome
  | refundWindowTimeout
  | returnCupPulse
  | returnCupWatchEnd
  | slotObstructed10s
  | slotClear5s
  | sessionEndClose
  | doorReading (reading : DoorReading)
  | keyReading (reading : KeyReading)
  | cashboxRemoval
  | cashboxInsertion
  | tallyGet (port : Port) (tag : Byte) (body : List Byte)
  | tallyRelease (port : Port) (tag : Byte) (body : List Byte)
  | tariffPut (port : Port) (tag : Byte) (body : List Byte)
  | tariffGet (port : Port) (tag : Byte) (body : List Byte)
  | tariffWithdraw (port : Port) (tag : Byte) (body : List Byte)
  | tariffFind (port : Port) (tag : Byte) (body : List Byte)
  | tariffScan (port : Port) (tag : Byte) (body : List Byte)
  | clockSecond
  | clockSet (port : Port) (tag : Byte) (body : List Byte)
  | clockGet (port : Port) (tag : Byte) (body : List Byte)
  | holidaySet (port : Port) (tag : Byte) (body : List Byte)
  | holidayGet (port : Port) (tag : Byte) (body : List Byte)
  | bandSet (port : Port) (tag : Byte) (body : List Byte)
  | bandGet (port : Port) (tag : Byte) (body : List Byte)
  | stepBoundary
  | warningToneStart
  | flagsReadClear (port : Port) (tag : Byte) (body : List Byte)
  | lineGrant
  | loopCurrentSeen
  | seizureTimeout
  | dialToneClassified
  | dialToneTimeout
  | diallingEnd
  | busyClassified
  | polarityReversal
  | presumedDelayEnd
  | answerWaitEnd
  | acknowledgeClassified
  | refuseClassified
  | toneStringSent
  | releaseGuardEnd
  | loopCurrentLoss
  | lineAbsent5s
  | linePresent10s
  | offHook
  | onHook
  | clearingEnd
  | symbolKeyPress (sym : Symbol)
  | followOnPress
  | keyStuck (key : Key)
  | keyRelease (key : Key)
  | firstSymbolTimeout
  | interSymbolTimeout
  | creditWaitTimeout
  | inputActiveEdge (input : Fin 8)
  | inputInactiveChange (input : Fin 8)
  | countWindowEnd (input : Fin 8)
  | holdOffEnd (input : Fin 8)
  | clearDelayEnd (input : Fin 8)
  | conditionClear (port : Port) (tag : Byte) (body : List Byte)
  | conditionGet (port : Port) (tag : Byte) (body : List Byte)
  | retryTimerExpiry
  | replyWaitEnd
  | reportNow (port : Port) (tag : Byte) (body : List Byte)
  | responseRead (port : Port)
  | statusGet (port : Port) (tag : Byte) (body : List Byte)
  | coinClassSet (port : Port) (tag : Byte) (body : List Byte)
  | coinClassGet (port : Port) (tag : Byte) (body : List Byte)
  | settingSet (port : Port) (tag : Byte) (body : List Byte)
  | settingGet (port : Port) (tag : Byte) (body : List Byte)
  | attentionGet (port : Port) (tag : Byte) (body : List Byte)
  | attentionAck (port : Port) (tag : Byte) (body : List Byte)
  | attentionMask (port : Port) (tag : Byte) (body : List Byte)
  | stationInit (port : Port) (tag : Byte) (body : List Byte)
  | unknownRequest (port : Port) (kind : Byte) (tag : Byte) (body : List Byte)
  | mainSupplyStart (readings : StartReadings)
  | mainSupplyLoss
  | gateLeavesHome (gate : Gate)
  | dialSymbolSent
  | backupSupplyLoss
  deriving DecidableEq, Repr

end Sys2Proof
end

