-- ==== Sys2Proof/WellFormed.lean ====
section
/-! DEFINITION. Which commands the ports and pins can deliver: the checks on a command's operands that their types do not
already make. -/

namespace Sys2Proof

/-- R186: the body length of a request is one byte of its header, so a body has at most 255 bytes. (A body of 61 to 255
bytes is well formed, and refused FORMAT.) -/
def bodyFits (body : List Byte) : Bool := body.length ≤ 255

/-- R186: a kind that is not one of the 26 of section 11.1. -/
def unknownKind (kind : Byte) : Bool := kind.toNat = 0 || 26 < kind.toNat

/-- R187: on the host port a transfer whose first byte is 0 is a read of the response, so it carries no request. -/
def kindReachesPort (port : Port) (kind : Byte) : Bool := !(port = .host && kind.toNat = 0)

/-- A command that can be delivered. -/
def Instr.wellFormed : Instr → Bool
  | .tallyGet _ _ b | .tallyRelease _ _ b | .tariffPut _ _ b | .tariffGet _ _ b | .tariffWithdraw _ _ b => bodyFits b
  | .tariffFind _ _ b | .tariffScan _ _ b | .clockSet _ _ b | .clockGet _ _ b | .holidaySet _ _ b => bodyFits b
  | .holidayGet _ _ b | .bandSet _ _ b | .bandGet _ _ b | .flagsReadClear _ _ b | .conditionClear _ _ b => bodyFits b
  | .conditionGet _ _ b | .reportNow _ _ b | .statusGet _ _ b | .coinClassSet _ _ b | .coinClassGet _ _ b => bodyFits b
  | .settingSet _ _ b | .settingGet _ _ b | .attentionGet _ _ b | .attentionAck _ _ b => bodyFits b
  | .attentionMask _ _ b | .stationInit _ _ b => bodyFits b
  | .unknownRequest p k _ b => bodyFits b && unknownKind k && kindReachesPort p k
  | .validatorAccepted _ | .validatorRejected | .columnEntryPulse | .cashboxEntryPulse | .transitWindowEnd => true
  | .refundCycleStart | .collectCycleStart | .collectGateHome | .collectWindowTimeout | .refundGateHome => true
  | .refundWindowTimeout | .returnCupPulse | .returnCupWatchEnd | .slotObstructed10s | .slotClear5s => true
  | .sessionEndClose | .doorReading _ | .keyReading _ | .cashboxRemoval | .cashboxInsertion | .clockSecond => true
  | .stepBoundary | .warningToneStart | .lineGrant | .loopCurrentSeen | .seizureTimeout | .dialToneClassified => true
  | .dialToneTimeout | .diallingEnd | .busyClassified | .polarityReversal | .presumedDelayEnd | .answerWaitEnd => true
  | .acknowledgeClassified | .refuseClassified | .toneStringSent | .releaseGuardEnd | .loopCurrentLoss => true
  | .lineAbsent5s | .linePresent10s | .offHook | .onHook | .clearingEnd | .symbolKeyPress _ | .followOnPress => true
  | .keyStuck _ | .keyRelease _ | .firstSymbolTimeout | .interSymbolTimeout | .creditWaitTimeout => true
  | .inputActiveEdge _ | .inputInactiveChange _ | .countWindowEnd _ | .holdOffEnd _ | .clearDelayEnd _ => true
  | .retryTimerExpiry | .replyWaitEnd | .responseRead _ | .mainSupplyStart _ | .mainSupplyLoss => true
  | .gateLeavesHome _ | .dialSymbolSent | .backupSupplyLoss => true

end Sys2Proof
end

