-- ==== Sys2Proof/Decode.lean ====
section
/-! DEFINITION. The decoder the host asks for, and the frames of section 11.8: a transfer's bytes to the command it brings,
and the bytes of a port command. No row of spec/opcode_table.json gives bits, so no word spells a command. -/

namespace Sys2Proof

/-- The command a word spells by the table's bits: none, since no row of the table gives bits. -/
def decodeTableWord (_nbits _w : Nat) : Option Instr := none

/-- The request of a kind (section 11.1), by its code; every other kind is the row UNKNOWN_REQUEST. -/
def requestOf (port : Port) (kind tag : Byte) (body : List Byte) : Instr :=
  match kind.toNat with
  | 1 => .tariffPut port tag body
  | 2 => .tariffGet port tag body
  | 3 => .tariffWithdraw port tag body
  | 4 => .tariffFind port tag body
  | 5 => .tariffScan port tag body
  | 6 => .bandSet port tag body
  | 7 => .bandGet port tag body
  | 8 => .holidaySet port tag body
  | 9 => .holidayGet port tag body
  | 10 => .coinClassSet port tag body
  | 11 => .coinClassGet port tag body
  | 12 => .settingSet port tag body
  | 13 => .clockSet port tag body
  | 14 => .clockGet port tag body
  | 15 => .statusGet port tag body
  | 16 => .tallyGet port tag body
  | 17 => .tallyRelease port tag body
  | 18 => .conditionGet port tag body
  | 19 => .conditionClear port tag body
  | 20 => .reportNow port tag body
  | 21 => .flagsReadClear port tag body
  | 22 => .attentionGet port tag body
  | 23 => .attentionAck port tag body
  | 24 => .attentionMask port tag body
  | 25 => .stationInit port tag body
  | 26 => .settingGet port tag body
  | _ => .unknownRequest port kind tag body

/-- The bytes the master writes in one transfer on a port, as a command (R186, R187): on the host port a first byte of 0 is
a read of the response; any other transfer carries a request, complete when the number of body bytes its header gives has
arrived; a transfer that ends before that is discarded (none). A write of no bytes carries nothing. DESIGN CHOICE (log entry 53):
bytes that follow the last body byte in the same transfer are ignored; R186 and R187 do not speak of them. -/
def decodeTransfer (port : Port) (bytes : List Byte) : Option Instr :=
  match port, bytes with
  | .host, 0 :: _ => some (.responseRead .host)
  | _, kind :: tag :: len :: rest =>
    if rest.length < len.toNat then none else some (requestOf port kind tag (rest.take len.toNat))
  | _, _ => none

/-- The request frame of section 11.8: kind, tag, body length, body. -/
def frame (kind : Nat) (tag : Byte) (body : List Byte) : List Byte :=
  BitVec.ofNat 8 kind :: tag :: BitVec.ofNat 8 body.length :: body

/-- The port and the bytes of the transfer that brings a port request; none for every other command. (The service port's
read is a read transfer of its bus, not a write of bytes, so RESPONSE_READ has bytes on the host port only.) -/
def encodeTransfer : Instr → Option (Port × List Byte)
  | .tariffPut p t b => some (p, frame 1 t b)
  | .tariffGet p t b => some (p, frame 2 t b)
  | .tariffWithdraw p t b => some (p, frame 3 t b)
  | .tariffFind p t b => some (p, frame 4 t b)
  | .tariffScan p t b => some (p, frame 5 t b)
  | .bandSet p t b => some (p, frame 6 t b)
  | .bandGet p t b => some (p, frame 7 t b)
  | .holidaySet p t b => some (p, frame 8 t b)
  | .holidayGet p t b => some (p, frame 9 t b)
  | .coinClassSet p t b => some (p, frame 10 t b)
  | .coinClassGet p t b => some (p, frame 11 t b)
  | .settingSet p t b => some (p, frame 12 t b)
  | .clockSet p t b => some (p, frame 13 t b)
  | .clockGet p t b => some (p, frame 14 t b)
  | .statusGet p t b => some (p, frame 15 t b)
  | .tallyGet p t b => some (p, frame 16 t b)
  | .tallyRelease p t b => some (p, frame 17 t b)
  | .conditionGet p t b => some (p, frame 18 t b)
  | .conditionClear p t b => some (p, frame 19 t b)
  | .reportNow p t b => some (p, frame 20 t b)
  | .flagsReadClear p t b => some (p, frame 21 t b)
  | .attentionGet p t b => some (p, frame 22 t b)
  | .attentionAck p t b => some (p, frame 23 t b)
  | .attentionMask p t b => some (p, frame 24 t b)
  | .stationInit p t b => some (p, frame 25 t b)
  | .settingGet p t b => some (p, frame 26 t b)
  | .unknownRequest p k t b => some (p, frame k.toNat t b)
  | .responseRead .host => some (.host, [0])
  | _ => none

end Sys2Proof
end

