-- ==== Sys2Proof/Machine/State.lean ====
section
/-! DEFINITION. Everything the manual says the T4 holds, as plain data, block by block (section 3.1 of 00_scope.md), the
queue of waiting commands, and the state right after a first start-up. Instants and durations of elapsed time are counted
in milliseconds. -/

namespace Sys2Proof.Machine

/-! ## Time -/

/-- A date of the station clock (section 5.1). -/
structure Date where
  year : Nat
  month : Nat
  day : Nat
  deriving DecidableEq, Repr

/-- A clock time to the minute, as in a tariff record (section 4.1). -/
structure MinuteTime where
  date : Date
  hour : Nat
  minute : Nat
  deriving DecidableEq, Repr

/-- A clock time to the second (section 5.1). -/
structure ClockTime where
  date : Date
  hour : Nat
  minute : Nat
  second : Nat
  deriving DecidableEq, Repr

/-- The weekday of a date (section 5.1). -/
inductive Weekday where
  | monday | tuesday | wednesday | thursday | friday | saturday | sunday
  deriving DecidableEq, Repr

/-- The three day types (section 5.3). -/
inductive DayType where
  | weekday | saturday | holidaySunday
  deriving DecidableEq, Repr

/-- A switch point of a band schedule (section 5.4). -/
structure SwitchPoint where
  minute : Nat
  band : Fin 4
  deriving DecidableEq, Repr

/-- The station clock and band unit (chapter 5). `nextSecond` is the instant of elapsed time at which the second now
running ends (R77). -/
structure StationClock where
  time : ClockTime
  weekday : Weekday
  unset : Bool
  nextSecond : Nat
  weekdaySchedule : List SwitchPoint
  saturdaySchedule : List SwitchPoint
  holidaySchedule : List SwitchPoint
  holidays : List Date
  dayType : DayType
  band : Fin 4
  deriving DecidableEq, Repr

/-! ## The coin path (chapter 1) -/

/-- Where an accepted coin was expected to go (section 1.3). -/
inductive Destination where
  | column | overflow
  deriving DecidableEq, Repr

/-- A transit entry (section 1.3). `noted` says that the waiting refund noted it at its request (R10). -/
structure TransitEntry where
  cls : Fin 16
  value : Nat
  dest : Destination
  windowEnds : Nat
  noted : Bool
  deriving DecidableEq, Repr

/-- The tag of a held coin (section 1.4). -/
inductive CoinTag where
  | credited | unvalued | orphan
  deriving DecidableEq, Repr

/-- A held coin of the escrow column (section 1.4); an UNVALUED coin has no class. -/
structure HeldCoin where
  cls : Option (Fin 16)
  value : Nat
  tag : CoinTag
  deriving DecidableEq, Repr

/-- The gate cycle in flight (section 1.5): a collect cycle accepted and not yet started (held back, R12), a started
collect cycle with its recorded generation, window end and what it has seen (R13), or a refund cycle with its window end
(R15). `startUp` marks the start-up refund (R21), `ofSession` one that a session end waits for (R131). -/
inductive GateCycle where
  | idle
  | collectHeld
  | collectStarted (generation windowEnds : Nat) (pulseSeen homeSeen : Bool)
  | refund (windowEnds : Nat) (startUp ofSession : Bool)
  deriving DecidableEq, Repr

/-- The waiting refund (R10), with the marks it hands to its cycle. -/
structure WaitingRefund where
  startUp : Bool
  ofSession : Bool
  deriving DecidableEq, Repr

/-- A return cup watch in progress (R18); `ofCycle` while the refund cycle that began it is in flight (R17). -/
structure CupWatch where
  watchEnds : Nat
  ofCycle : Bool
  deriving DecidableEq, Repr

/-- The coin path controller (chapter 1). The column is listed from the bottom, oldest first. `sessionRefunded` says that the
refund which the last session end requested has completed, and not ended in a timeout or at an inhibited gate (R5, R16). -/
structure CoinPath where
  transit : List TransitEntry
  column : List HeldCoin
  streak : Nat
  cycle : GateCycle
  waiting : Option WaitingRefund
  sessionRefunded : Bool
  watches : List CupWatch
  rejectedCount : Nat
  refundedCount : Nat
  deriving DecidableEq, Repr

/-! ## Credit (chapter 2) -/

/-- An entry of the owed list (section 2.2): the call and what of its charges is unpaid. -/
structure OwedEntry where
  call : Nat
  amount : Nat
  deriving DecidableEq, Repr

/-- The session's account (R34, R36): not open, open, or closing after a session end. A closing account is still open. -/
inductive Account where
  | notOpen | inSession | closing
  deriving DecidableEq, Repr

/-- The credit unit (chapter 2). -/
structure Credit where
  banked : Nat
  owed : List OwedEntry
  account : Account
  sessionForfeit : Nat
  deriving DecidableEq, Repr

/-! ## The cash compartment (chapter 3) -/

/-- The figures of a tally (section 3.2). -/
structure Tally where
  counts : Vector Nat 16
  totalCoins : Nat
  totalValue : Nat
  uncredited : Nat
  forfeit : Nat
  unrecovered : Nat
  refundedAtRestart : Nat
  deriving DecidableEq, Repr

/-- A tally with every figure 0. -/
def Tally.zero : Tally :=
  { counts := Vector.replicate 16 0, totalCoins := 0, totalValue := 0, uncredited := 0, forfeit := 0, unrecovered := 0,
    refundedAtRestart := 0 }

/-- A closed tally with its marks FORCED and MERGED (section 3.4), its changed mark, and the mark that its release is
withheld behind a late collect cycle (R53). -/
structure ClosedTally where
  figures : Tally
  forced : Bool
  merged : Bool
  changed : Bool
  withheld : Bool
  deriving DecidableEq, Repr

/-- The compartment monitor and tally (chapter 3). -/
structure Compartment where
  door : DoorReading
  key : KeyReading
  presence : Presence
  current : Tally
  closedTally : Option ClosedTally
  generation : Nat
  deriving DecidableEq, Repr

/-! ## The tariff table (chapter 4) -/

/-- The category of a tariff record (section 4.1). -/
inductive Category where
  | charged | free | emergency | blocked
  deriving DecidableEq, Repr

/-- The rounding a call's steps are charged with (section 6.3). -/
inductive Rounding where
  | carry | stepUp | stepDown
  deriving DecidableEq, Repr

/-- A record's rounding field (section 4.1): one of the three, or DEFAULT. -/
inductive RecordRounding where
  | fixed (r : Rounding)
  | station
  deriving DecidableEq, Repr

/-- A record's content (section 4.1): every field but its state and its pin. The default record's `pre` is empty. -/
structure TariffContent where
  pre : List Symbol
  minLength : Nat
  maxLength : Nat
  category : Category
  rates : Vector Nat 4
  connection : Nat
  period : Nat
  rounding : RecordRounding
  minCredit : Nat
  effectiveFrom : Option MinuteTime
  retireAt : Option MinuteTime
  deriving DecidableEq, Repr

/-- The state of a slot that is not EMPTY (section 4.3). -/
inductive RecordState where
  | pending | live | retiring
  deriving DecidableEq, Repr

/-- A prefixed record in its slot, 1..239. -/
structure TariffRecord where
  slot : Nat
  content : TariffContent
  state : RecordState
  pinned : Bool
  deriving DecidableEq, Repr

/-- The tariff table (chapter 4): slot 0 with its pin, the default staging record, and the non-EMPTY slots 1..239 with slot
numbers strictly rising. A slot not listed is EMPTY. -/
structure TariffTable where
  base : TariffContent
  basePinned : Bool
  staging : Option TariffContent
  records : List TariffRecord
  deriving DecidableEq, Repr

/-- R76: the region default of slot 0. -/
def TariffContent.regionDefault : TariffContent :=
  { pre := [], minLength := 1, maxLength := 20, category := .blocked, rates := Vector.replicate 4 0, connection := 0,
    period := 60, rounding := .station, minCredit := 0, effectiveFrom := none, retireAt := none }

/-! ## Call rating (chapter 6) -/

/-- The eight call flags (R105), as a set. -/
structure CallFlags where
  defaultTariff : Bool
  presumedAnswer : Bool
  roundedUp : Bool
  roundedDown : Bool
  clipped : Bool
  bandChanged : Bool
  runwaySaturated : Bool
  unrecovered : Bool
  deriving DecidableEq, Repr

/-- The empty set of call flags. -/
def CallFlags.empty : CallFlags := ⟨false, false, false, false, false, false, false, false⟩

/-- An active warning (R102): the boundary it is for, the instant its tone starts, and whether the tone plays (R103). -/
structure Warning where
  boundary : Nat
  toneStart : Nat
  playing : Bool
  deriving DecidableEq, Repr

/-- What a rating context holds of its call from its opening (section 6.1). -/
structure CallInfo where
  number : Nat
  symbols : List Symbol
  slot : Nat
  category : Category
  flags : CallFlags
  deriving DecidableEq, Repr

/-- What a RATED context holds besides (section 6.1). -/
structure RatedCall where
  rounding : Rounding
  answeredAt : Nat
  nextBoundary : Nat
  acc : Nat
  lastBand : Fin 4
  steps : Nat
  total : Nat
  warning : Option Warning
  runway : Nat
  deriving DecidableEq, Repr

/-- The rating context (section 6.1): EMPTY, PLACED, RATED or UNRATED. -/
inductive RatingContext where
  | empty
  | placed (call : CallInfo)
  | rated (call : CallInfo) (steps : RatedCall)
  | unrated (call : CallInfo) (answeredAt : Nat)
  deriving DecidableEq, Repr

/-- The last call summary (R106); `duration` in whole seconds. -/
structure CallSummary where
  number : Nat
  symbols : List Symbol
  slot : Nat
  category : Category
  duration : Nat
  steps : Nat
  total : Nat
  flags : CallFlags
  deriving DecidableEq, Repr

/-- The rating unit (chapter 6). `callNumber` is the number last given to a call. -/
structure Rating where
  context : RatingContext
  callNumber : Nat
  summary : Option CallSummary
  accrued : CallFlags
  deriving DecidableEq, Repr

/-! ## The line (chapter 7) -/

/-- The seven line states (section 7.1). -/
inductive LineState where
  | free | seizing | awaitDialTone | dialling | awaitAnswer | connected | releasing
  deriving DecidableEq, Repr

/-- The line's owner, and a requester of it (section 7.1). -/
inductive LineOwner where
  | session | report
  deriving DecidableEq, Repr

/-- The dialling method setting (section 11.4). -/
inductive DialMethod where
  | tone | pulse
  deriving DecidableEq, Repr

/-- The answer mode setting (section 11.4). -/
inductive AnswerMode where
  | signalled | presumed
  deriving DecidableEq, Repr

/-- A line request (R112), with what the line controller adds to it: the method, answer mode and presumed delay standing
at that instant, and the requester's answer limit, both in seconds. -/
structure LineRequest where
  dialString : List Symbol
  method : DialMethod
  answerMode : AnswerMode
  presumedDelay : Nat
  answerLimit : Nat
  deriving DecidableEq, Repr

/-- The line call (section 7.1): the granted request, its owner and the position. -/
structure LineCall where
  owner : LineOwner
  request : LineRequest
  position : Nat
  deriving DecidableEq, Repr

/-- The part of a symbol's sending the line is in (R118, R119); `left` counts the pulses of the digit not yet ended, the
one in hand included. `sent`: every symbol has been sent. -/
inductive DialPhase where
  | tone | silence
  | pulseBreak (left : Nat)
  | pulseMake (left : Nat)
  | interDigit
  | sent
  deriving DecidableEq, Repr

/-- A tone string being sent in CONNECTED, and the instant at which its last silence ends (R122). From them `ToneString.position`
and `ToneString.phase` give the symbol in hand and the part of its sending. -/
structure ToneString where
  symbols : List Symbol
  sentAt : Nat
  deriving DecidableEq, Repr

/-- The line controller and line arbiter (chapter 7). `deadline` is the instant at which the wait of the state ends
(SEIZING, AWAIT_DIAL_TONE, AWAIT_ANSWER, RELEASING); `phase` and `phaseEnds` have meaning in DIALLING. -/
structure Line where
  state : LineState
  call : Option LineCall
  deadline : Nat
  presumedEnds : Option Nat
  phase : DialPhase
  phaseEnds : Nat
  sending : Option ToneString
  sessionRequest : Option LineRequest
  reportRequest : Option LineRequest
  streak : Nat
  deriving DecidableEq, Repr

/-! ## The user session (chapter 8) -/

/-- The nine session states (section 8.1). -/
inductive SessionState where
  | idle | dialWait | collecting | awaitCredit | placing | ringing | connected | ended | clearing
  deriving DecidableEq, Repr

/-- A decision (R72). -/
structure Decision where
  symbols : List Symbol
  slot : Nat
  category : Category
  minCredit : Nat
  connection : Nat
  deriving DecidableEq, Repr

/-- Which session timer runs (section 8.1). -/
inductive TimerKind where
  | firstSymbol | interSymbol | creditWait
  deriving DecidableEq, Repr

/-- The session timer with the instant at which it expires. -/
structure SessionTimer where
  kind : TimerKind
  expiresAt : Nat
  deriving DecidableEq, Repr

/-- The end tone of ENDED (section 8.1). -/
inductive EndTone where
  | reorder | busy
  deriving DecidableEq, Repr

/-- The qualified hook (R128). -/
inductive Hook where
  | on | off
  deriving DecidableEq, Repr

/-- A key's state (R132); a pressed key holds the instant of its press. -/
inductive KeyState where
  | released
  | pressed (since : Nat)
  | stuck
  deriving DecidableEq, Repr

/-- The causes that end a call (R142). -/
inductive EndCause where
  | creditTimeout | undiallable | dialToneFailure | busy | noAnswer | farEndClear | lineLost | cutoff | levelDrop
  | followOn | onHook | stationInit
  deriving DecidableEq, Repr

/-- The causes of a refused number (R147). -/
inductive RefusalCause where
  | barred | tooShort | overlong | notAllowed | noSymbol
  deriving DecidableEq, Repr

/-- A call event with its cause (R147). -/
inductive CallEvent where
  | opened | awaitingCredit | placed | answered
  | ended (cause : EndCause)
  | refused (cause : RefusalCause)
  | closed
  deriving DecidableEq, Repr

/-- The call event record (R147). -/
structure CallEventRecord where
  event : CallEvent
  symbols : List Symbol
  slot : Option Nat
  category : Option Category
  threshold : Option Nat
  callNumber : Option Nat
  deriving DecidableEq, Repr

/-- The session controller (chapter 8). `toneSince` is the instant at which a state with a local tone of its own was last
entered, from which the tone's cadence is reckoned (R133). -/
structure Session where
  state : SessionState
  buffer : List Symbol
  decision : Option Decision
  threshold : Option Nat
  timer : Option SessionTimer
  endTone : EndTone
  toneSince : Nat
  hook : Hook
  keys : Vector KeyState 13
  event : Option CallEventRecord
  eventCount : Nat
  deriving DecidableEq, Repr

/-! ## Supervised inputs and the condition table (chapter 9) -/

/-- The 22 condition sources (section 9.4). -/
inductive Source where
  | coinPath | collectGate | refundGate | returnCup | coinSlot | cashboxNear | cashboxFull | compartment | keypad | line
  | dialtone | retention | clock | collection
  | input (i : Fin 8)
  deriving DecidableEq, Repr

/-- What a supervised input watches (section 9.1). -/
inductive InputType where
  | unused | handsetCord | housingShock | glassBreak | panelOpen | genericFault
  deriving DecidableEq, Repr

/-- The condition types (sections 9.1 and 9.4). -/
inductive ConditionType where
  | coinPathJam | gateJam | returnBlocked | slotBlocked | cashboxNearFull | cashboxFull | compartmentForced | keypadStuck
  | lineDown | noDialTone | retentionLost | clockUnset | cashboxCollected
  | ofInput (t : InputType)
  deriving DecidableEq, Repr

/-- The three severities (section 9.4). -/
inductive Severity where
  | alarm | fault | notice
  deriving DecidableEq, Repr

/-- The state of a condition record (section 9.5). -/
inductive ConditionState where
  | raised | standing | cleared
  deriving DecidableEq, Repr

/-- The report snapshot placed on a record (section 9.5, R177): its count, and whether its state digit is 2 (CLEARED). -/
structure RecordSnapshot where
  count : Nat
  clearedDigit : Bool
  deriving DecidableEq, Repr

/-- A condition record (section 9.5), held under its source. `activeMs` and `activeSince` carry the active seconds (R166):
the milliseconds counted in spans that have ended, and the start of the span now counted. The report enable is the
setting's (R165). -/
structure ConditionRecord where
  type : ConditionType
  severity : Severity
  state : ConditionState
  firstRaised : ClockTime
  lastChange : ClockTime
  count : Nat
  acked : Nat
  activeMs : Nat
  activeSince : Option Nat
  snapshot : Option RecordSnapshot
  deriving DecidableEq, Repr

/-- The line level that means an input's sensor is reporting (section 9.1). -/
inductive Polarity where
  | high | low
  deriving DecidableEq, Repr

/-- The mode of an input (section 9.1). -/
inductive InputMode where
  | edge | level | count
  deriving DecidableEq, Repr

/-- A restriction, and the service level (section 9.8): NONE and FULL are one name, `full`. -/
inductive ServiceLevel where
  | full | freeOnly | emergencyOnly | closed
  deriving DecidableEq, Repr

/-- An input's assignment (section 9.1): times in ms (qualify) and in seconds (the others). -/
structure Assignment where
  type : InputType
  polarity : Polarity
  mode : InputMode
  qualifyMs : Nat
  count : Nat
  window : Nat
  holdOff : Nat
  clearDelay : Nat
  restriction : ServiceLevel
  deriving DecidableEq, Repr

/-- Section 9.1: the assignment after the region's defaults are applied. -/
def Assignment.unused : Assignment :=
  { type := .unused, polarity := .high, mode := .edge, qualifyMs := 10, count := 2, window := 1, holdOff := 0,
    clearDelay := 1, restriction := .full }

/-- A supervised input: its assignment in effect and its staged one (R158), its qualified reading (R151), its COUNT window
and edge count (R154), its hold-off time (R155), and the start of its clear delay in progress (R156). -/
structure SupervisedInput where
  assignment : Assignment
  staged : Option Assignment
  active : Bool
  windowEnds : Option Nat
  edgeCount : Nat
  holdOffEnds : Option Nat
  clearFrom : Option Nat
  deriving DecidableEq, Repr

/-- An input after the region's defaults, at rest. -/
def SupervisedInput.unused : SupervisedInput :=
  { assignment := .unused, staged := none, active := false, windowEnds := none, edgeCount := 0, holdOffEnds := none,
    clearFrom := none }

/-- The supervision unit (chapter 9): the inputs, the condition table (by source, in code order), each source's normality
as last reported, and the service level held, with the instant of its last change (R133, R168). -/
structure Supervision where
  inputs : Vector SupervisedInput 8
  records : Vector (Option ConditionRecord) 22
  abnormal : Vector Bool 22
  level : ServiceLevel
  levelSince : Nat
  deriving DecidableEq, Repr

/-! ## Reports (chapter 10) -/

/-- The eight report unit states (section 10.2). -/
inductive ReportState where
  | idle | scheduled | deferred | waitLine | calling | sending | awaitReply | releasing
  deriving DecidableEq, Repr

/-- The retry timer (R172, R175): running to an instant, held with the delay it has left, or expired and waiting for LINE. -/
inductive RetryTimer where
  | running (expiresAt : Nat)
  | held (left : Nat)
  | waitingLine
  deriving DecidableEq, Repr

/-- One included record of a report snapshot (R177). -/
structure IncludedRecord where
  source : Source
  clearedDigit : Bool
  count : Nat
  deriving DecidableEq, Repr

/-- The tally part of a report snapshot (R177). -/
structure TallyPart where
  closureDigit : Nat
  totalValue : Nat
  totalCoins : Nat
  deriving DecidableEq, Repr

/-- The report snapshot (R177): clock reading, station number, included records, tally part. -/
structure ReportSnapshot where
  clock : MinuteTime
  station : List Symbol
  records : List IncludedRecord
  tally : Option TallyPart
  deriving DecidableEq, Repr

/-- The outcome of an attempt that has ended (section 10.2). -/
inductive ReportOutcome where
  | acknowledged | failed
  deriving DecidableEq, Repr

/-- The report unit (chapter 10). `repeated` says that the string being sent or awaited is the repeated one (R179). -/
structure ReportUnit where
  state : ReportState
  attempts : Nat
  timer : Option RetryTimer
  renewal : Bool
  snapshot : Option ReportSnapshot
  repeated : Bool
  replyEnds : Option Nat
  outcome : Option ReportOutcome
  deriving DecidableEq, Repr

/-! ## Settings, attention and retention (chapter 11) -/

/-- A coin class record (section 1.2). -/
structure CoinClass where
  value : Nat
  enabled : Bool
  deriving DecidableEq, Repr

/-- The settings record (R190) and the coin class table: region 3, but for the input assignments, which the inputs hold. -/
structure Settings where
  stationNumber : List Symbol
  centreNumber : List Symbol
  method : DialMethod
  answerMode : AnswerMode
  presumedDelay : Nat
  warningLead : Nat
  rounding : Rounding
  near : Nat
  full : Nat
  dailyReport : Nat
  reportEnable : Vector Bool 22
  classes : Vector CoinClass 16
  deriving DecidableEq, Repr

/-- R190 and section 1.2: the reset values of region 3. -/
def Settings.initial : Settings :=
  { stationNumber := [0], centreNumber := [], method := .tone, answerMode := .signalled, presumedDelay := 12,
    warningLead := 15, rounding := .carry, near := 1600, full := 2000, dailyReport := 120,
    reportEnable := Vector.replicate 22 true, classes := Vector.replicate 16 ⟨0, false⟩ }

/-- A set of the eight attention flags (section 11.3), in the order of their bits (section 11.8). -/
structure AttentionFlags where
  callEvent : Bool
  creditLow : Bool
  conditionChanged : Bool
  levelChanged : Bool
  reportDone : Bool
  tallyClosed : Bool
  tableChanged : Bool
  restarted : Bool
  deriving DecidableEq, Repr

/-- No attention flag. -/
def AttentionFlags.none : AttentionFlags := ⟨false, false, false, false, false, false, false, false⟩

/-- The attention flags latched and the mask (R189). -/
structure Attention where
  flags : AttentionFlags
  mask : AttentionFlags
  deriving DecidableEq, Repr

/-- The supplies, and the retention outcome of the last start-up (R191): whether the backup held and which regions
failed. `backupLost`: the backup supply has failed since the main supply was last lost. -/
structure Supplies where
  main : Bool
  backupLost : Bool
  outcomeBackupHeld : Bool
  outcomeFailed : List Region
  deriving DecidableEq, Repr

/-! ## The ports (chapter 11) -/

/-- The status of a response (R186). -/
inductive Status where
  | done | doneClamped | doneDeferred | refused
  deriving DecidableEq, Repr

/-- The reason of a refused request (R186). -/
inductive Reason where
  | invalid | overlap | full | notFound | state | locked | format
  deriving DecidableEq, Repr

/-- The verdict on a dialled string (R70, R71). -/
inductive VerdictView where
  | continue
  | complete (slot : Nat)
  | refused (cause : RefusalCause) (slot : Nat)
  deriving DecidableEq, Repr

/-- The outcome of an analysis (section 4.7). -/
inductive AnalysisName where
  | more | barred | decided | base
  deriving DecidableEq, Repr

/-- The chosen record as TARIFF_FIND returns it (R73). -/
structure ChosenView where
  slot : Nat
  category : Category
  minLength : Nat
  maxLength : Nat
  deriving DecidableEq, Repr

/-- The local tone playing (section 8.4). -/
inductive LocalTone where
  | dial | creditPrompt | reorder | busy | warning
  deriving DecidableEq, Repr

/-- The credit unit's view in STATUS_GET (R40). -/
structure CreditView where
  banked : Nat
  escrow : Nat
  collectable : Bool
  owed : Nat
  available : Nat
  sessionForfeit : Nat
  sessionOpen : Bool
  deriving DecidableEq, Repr

/-- What STATUS_GET gives of a warning (R110): the seconds until its tone start, 0 when playing. -/
structure WarningView where
  secondsToTone : Nat
  deriving DecidableEq, Repr

/-- What STATUS_GET gives of a RATED context (R110). -/
structure RatedView where
  rounding : Rounding
  steps : Nat
  total : Nat
  lastBand : Fin 4
  acc : Nat
  secondsToBoundary : Nat
  warning : Option WarningView
  runway : Nat
  deriving DecidableEq, Repr

/-- The name of a context's state (R110). -/
inductive ContextName where
  | empty | placed | rated | unrated
  deriving DecidableEq, Repr

/-- The rating unit's view in STATUS_GET (R110). -/
structure RatingView where
  context : ContextName
  call : Option CallInfo
  secondsSinceAnswer : Option Nat
  rated : Option RatedView
  summary : Option CallSummary
  deriving DecidableEq, Repr

/-- The line controller's view in STATUS_GET (R126). -/
structure LineView where
  state : LineState
  owner : Option LineOwner
  sessionWaiting : Bool
  reportWaiting : Bool
  position : Option Nat
  method : Option DialMethod
  answerMode : Option AnswerMode
  streak : Nat
  lineNormal : Bool
  dialtoneNormal : Bool
  deriving DecidableEq, Repr

/-- The session controller's view in STATUS_GET (R148). -/
structure SessionView where
  state : SessionState
  hook : Hook
  buffer : List Symbol
  timer : Option (TimerKind × Nat)
  decision : Option Decision
  threshold : Option Nat
  tone : Option LocalTone
  stuckKeys : List Key
  event : Option CallEventRecord
  eventCount : Nat
  deriving DecidableEq, Repr

/-- How the retry timer stands in STATUS_GET (R184), with the delay remaining in whole seconds. -/
inductive RetryView where
  | running (seconds : Nat)
  | held (seconds : Nat)
  | waitingLine
  deriving DecidableEq, Repr

/-- The report unit's view in STATUS_GET (R184). -/
structure ReportView where
  state : ReportState
  attempts : Nat
  retry : Option RetryView
  renewal : Bool
  included : Option Nat
  tallyPart : Option Bool
  repeated : Option Bool
  deriving DecidableEq, Repr

/-- What STATUS_GET gives (section 11.2). -/
structure StatusView where
  rejectedCount : Nat
  refundedCount : Nat
  credit : CreditView
  rating : RatingView
  line : LineView
  session : SessionView
  report : ReportView
  backupHeld : Bool
  failedRegions : List Region
  deriving DecidableEq, Repr

/-- What CONDITION_GET gives of an input (R169). -/
structure InputView where
  assignment : Assignment
  staged : Option Assignment
  active : Bool
  windowOpen : Bool
  edgeCount : Nat
  holdOffSeconds : Nat
  clearDelaySeconds : Nat
  atRest : Bool
  deriving DecidableEq, Repr

/-- What CONDITION_GET gives of a record (R169): the fields of section 9.5. -/
structure RecordView where
  source : Source
  type : ConditionType
  severity : Severity
  state : ConditionState
  firstRaised : ClockTime
  lastChange : ClockTime
  count : Nat
  acked : Nat
  activeSeconds : Nat
  reportEnable : Bool
  snapshot : Option RecordSnapshot
  deriving DecidableEq, Repr

/-- One source's line of the CONDITION_GET summary (R169). -/
structure SummaryLine where
  source : Source
  state : Option ConditionState
  normal : Bool
  inReport : Bool
  deriving DecidableEq, Repr

/-- One entry of a TARIFF_SCAN (R75). -/
structure ScanEntry where
  slot : Nat
  state : RecordState
  pinned : Bool
  pre : List Symbol
  deriving DecidableEq, Repr

/-- The closed tally as TALLY_GET gives it (R54). -/
structure ClosedTallyView where
  figures : Tally
  forced : Bool
  merged : Bool
  closureDigit : Nat
  deriving DecidableEq, Repr

/-- A setting's value as SETTING_GET returns it (R190). -/
inductive SettingValue where
  | symbols (s : List Symbol)
  | method (m : DialMethod)
  | answerMode (m : AnswerMode)
  | number (n : Nat)
  | rounding (r : Rounding)
  | thresholds (near full : Nat)
  | enable (on : Bool)
  | assignment (inEffect : Assignment) (staged : Option Assignment)
  deriving DecidableEq, Repr

/-- The body of a response. Section 11.8 lays out the bytes of TARIFF_PUT's and TARIFF_GET's bodies (`bytes`); of the other
bodies the rules give the content, and the constructors hold that. -/
inductive ResponseBody where
  | empty
  | bytes (b : List Byte)
  | find (outcome : AnalysisName) (chosen : Option ChosenView) (dialled timeout : VerdictView)
  | scan (entries : List ScanEntry) (next : Option Nat) (nEmpty nPending nLive nRetiring : Nat)
  | tally (current : Tally) (closed : Option ClosedTallyView) (door : DoorReading) (key : KeyReading) (presence : Presence)
      (servicePort : Bool)
  | clock (time : ClockTime) (weekday : Weekday) (dayType : DayType) (band : Fin 4) (unset : Bool)
  | holidays (count : Nat) (dates : List Date)
  | schedule (count : Nat) (points : List SwitchPoint) (dayType : DayType) (band : Fin 4)
  | callFlags (f : CallFlags)
  | condition (record : Option RecordView) (normal : Bool) (input : Option InputView)
  | conditionSummary (level : ServiceLevel) (lamp : Bool) (lines : List SummaryLine)
  | status (v : StatusView)
  | coinClass (c : CoinClass)
  | setting (v : SettingValue)
  | attention (flags mask : AttentionFlags)
  deriving DecidableEq, Repr

/-- A response (R186). -/
structure Response where
  kind : Nat
  tag : Byte
  status : Status
  reason : Option Reason
  body : ResponseBody
  deriving DecidableEq, Repr

/-- The four states of a port (R187). -/
inductive PortPhase where
  | free | held | serving | answered
  deriving DecidableEq, Repr

/-- What a read transfer returned (R187): a response, or a response of kind 0, which means that none is held. -/
inductive ReadResult where
  | kindZero
  | response (r : Response)
  deriving DecidableEq, Repr

/-- A port: its state, the response held in ANSWERED, and (the model's own field) what its last read transfer returned. -/
structure PortUnit where
  phase : PortPhase
  response : Option Response
  lastRead : Option ReadResult
  deriving DecidableEq, Repr

/-! ## The whole machine -/

/-- The T4. `now` is the elapsed time since reset in milliseconds, `pending` the queue of waiting commands, first in, first
out. -/
structure State where
  pending : List Instr
  now : Nat
  supplies : Supplies
  coin : CoinPath
  credit : Credit
  comp : Compartment
  tariff : TariffTable
  clock : StationClock
  rating : Rating
  line : Line
  session : Session
  sup : Supervision
  report : ReportUnit
  settings : Settings
  attention : Attention
  hostPort : PortUnit
  servicePort : PortUnit
  deriving DecidableEq, Repr

/-- The faults a step can end in: none. The manual gives every command of the table an effect in every state, so no
meaning faults, and the type has no constructor. -/
inductive Fault where
  deriving DecidableEq, Repr

/-- The refusals a step can end in. -/
inductive Refusal where
  /-- Raised only by an arm of `exec` whose command has no meaning yet; safe, for nothing is claimed of it. No arm is left
  so. -/
  | notModelled (mnemonic : String)
  deriving DecidableEq, Repr

/-! ## Setting one block of the state -/

def State.setPending (s : State) (x : List Instr) : State := { s with pending := x }
def State.setNow (s : State) (x : Nat) : State := { s with now := x }
def State.setSupplies (s : State) (x : Supplies) : State := { s with supplies := x }
def State.setCoin (s : State) (x : CoinPath) : State := { s with coin := x }
def State.setCredit (s : State) (x : Credit) : State := { s with credit := x }
def State.setComp (s : State) (x : Compartment) : State := { s with comp := x }
def State.setTariff (s : State) (x : TariffTable) : State := { s with tariff := x }
def State.setClock (s : State) (x : StationClock) : State := { s with clock := x }
def State.setRating (s : State) (x : Rating) : State := { s with rating := x }
def State.setLine (s : State) (x : Line) : State := { s with line := x }
def State.setSession (s : State) (x : Session) : State := { s with session := x }
def State.setSup (s : State) (x : Supervision) : State := { s with sup := x }
def State.setReport (s : State) (x : ReportUnit) : State := { s with report := x }
def State.setSettings (s : State) (x : Settings) : State := { s with settings := x }
def State.setAttention (s : State) (x : Attention) : State := { s with attention := x }
def State.setHostPort (s : State) (x : PortUnit) : State := { s with hostPort := x }
def State.setServicePort (s : State) (x : PortUnit) : State := { s with servicePort := x }

/-! ## The start-up values of the blocks -/

/-- R87: 2000-01-01 00:00:00. -/
def ClockTime.regionDefault : ClockTime := { date := ⟨2000, 1, 1⟩, hour := 0, minute := 0, second := 0 }

/-- R21: the coin path at start-up, with the column record as the escrow region leaves it. DESIGN CHOICE (log entry 51): a return
cup watch in progress, which R21 and R192 do not name, is over, like the cycle that began it. -/
def CoinPath.startUp (column : List HeldCoin) : CoinPath :=
  { transit := [], column := column, streak := 0, cycle := .idle, waiting := none, sessionRefunded := false, watches := [],
    rejectedCount := 0, refundedCount := 0 }

/-- R39: the credit unit at start-up, before the retained B is forfeited. -/
def Credit.startUp (banked : Nat) : Credit := { banked := banked, owed := [], account := .notOpen, sessionForfeit := 0 }

/-- R111: the rating unit at start-up. -/
def Rating.startUp : Rating := { context := .empty, callNumber := 0, summary := none, accrued := .empty }

/-- R127: the line at start-up. -/
def Line.startUp : Line :=
  { state := .free, call := none, deadline := 0, presumedEnds := none, phase := .sent, phaseEnds := 0, sending := none,
    sessionRequest := none, reportRequest := none, streak := 0 }

/-- R150: the session controller at start-up. -/
def Session.startUp : Session :=
  { state := .idle, buffer := [], decision := none, threshold := none, timer := none, endTone := .reorder,
    toneSince := 0, hook := .on, keys := Vector.replicate 13 .released, event := none, eventCount := 0 }

/-- The report unit at start-up, before R185 places it. -/
def ReportUnit.startUp : ReportUnit :=
  { state := .idle, attempts := 0, timer := none, renewal := false, snapshot := none, repeated := false, replyEnds := none,
    outcome := none }

/-- R187: a port at start-up. -/
def PortUnit.startUp : PortUnit := { phase := .free, response := none, lastRead := none }

/-- R76: the tariff region's defaults. -/
def TariffTable.regionDefault : TariffTable :=
  { base := .regionDefault, basePinned := false, staging := none, records := [] }

/-- The RETENTION record that a first start-up leaves: raised once, and CLEARED at once, since its source is normal at all
times (R161, R191). -/
def resetRetentionRecord : ConditionRecord :=
  { type := .retentionLost, severity := .notice, state := .cleared, firstRaised := .regionDefault,
    lastChange := .regionDefault, count := 1, acked := 0, activeMs := 0, activeSince := none, snapshot := none }

/-- The CLOCK record that a first start-up leaves: RAISED, since the clock is unset (R80, R88). -/
def resetClockRecord : ConditionRecord :=
  { type := .clockUnset, severity := .notice, state := .raised, firstRaised := .regionDefault,
    lastChange := .regionDefault, count := 1, acked := 0, activeMs := 0, activeSince := some 0, snapshot := none }

/-- The machine right after reset: the T4 at the end of a start-up (R192) that found the backup supply lost, so that every
region took its defaults, one RETENTION and one CLOCK occurrence were raised (R191), a refund waits (R21) and a report is
scheduled in 2 min (R185). The readings taken (door CLOSED, key LOCKED, cashbox ABSENT) and the zero of elapsed time are
DESIGN CHOICE (log entry 5). -/
def State.reset : State :=
  { pending := [],
    now := 0,
    supplies := { main := true, backupLost := false, outcomeBackupHeld := false, outcomeFailed := [] },
    coin := { CoinPath.startUp [] with waiting := some ⟨true, false⟩ },
    credit := .startUp 0,
    comp := { door := .closed, key := .locked, presence := .absent, current := .zero, closedTally := none, generation := 0 },
    tariff := .regionDefault,
    clock :=
      { time := .regionDefault, weekday := .saturday, unset := true, nextSecond := 1000, weekdaySchedule := [⟨0, 0⟩],
        saturdaySchedule := [⟨0, 0⟩], holidaySchedule := [⟨0, 0⟩], holidays := [], dayType := .saturday, band := 0 },
    rating := .startUp,
    line := .startUp,
    session := .startUp,
    sup :=
      { inputs := Vector.replicate 8 .unused,
        records := ((Vector.replicate 22 none).set 11 (some resetRetentionRecord)).set 12 (some resetClockRecord),
        abnormal := (Vector.replicate 22 false).set 12 true,
        level := .full
        levelSince := 0 },
    report := { ReportUnit.startUp with state := .scheduled, timer := some (.running 120000) },
    settings := .initial,
    attention := { flags := { AttentionFlags.none with conditionChanged := true, restarted := true }, mask := .none },
    hostPort := .startUp,
    servicePort := .startUp }

end Sys2Proof.Machine
end

