-- ==== Sys2Proof/Machine/Flags.lean ====
section
/-! DEFINITION. The two sets of flags: the call flags (R105, R107) and the attention flags with their mask and line
(R189), and the byte that carries a set of attention flags (section 11.8). -/

namespace Sys2Proof.Machine

/-- R107: the flags of two sets together. -/
def CallFlags.union (a b : CallFlags) : CallFlags :=
  { defaultTariff := a.defaultTariff || b.defaultTariff
    presumedAnswer := a.presumedAnswer || b.presumedAnswer
    roundedUp := a.roundedUp || b.roundedUp
    roundedDown := a.roundedDown || b.roundedDown
    clipped := a.clipped || b.clipped
    bandChanged := a.bandChanged || b.bandChanged
    runwaySaturated := a.runwaySaturated || b.runwaySaturated
    unrecovered := a.unrecovered || b.unrecovered }

/-- The names of the attention flags (section 11.3). -/
inductive AttentionFlag where
  | callEvent | creditLow | conditionChanged | levelChanged | reportDone | tallyClosed | tableChanged | restarted
  deriving DecidableEq, Repr

/-- R189: a flag is latched when its cause occurs. -/
def AttentionFlags.latch (fs : AttentionFlags) : AttentionFlag → AttentionFlags
  | .callEvent => { fs with callEvent := true }
  | .creditLow => { fs with creditLow := true }
  | .conditionChanged => { fs with conditionChanged := true }
  | .levelChanged => { fs with levelChanged := true }
  | .reportDone => { fs with reportDone := true }
  | .tallyClosed => { fs with tallyClosed := true }
  | .tableChanged => { fs with tableChanged := true }
  | .restarted => { fs with restarted := true }

/-- R189: the flags that are left when each flag of a set is cleared. -/
def AttentionFlags.clear (fs named : AttentionFlags) : AttentionFlags :=
  { callEvent := fs.callEvent && !named.callEvent
    creditLow := fs.creditLow && !named.creditLow
    conditionChanged := fs.conditionChanged && !named.conditionChanged
    levelChanged := fs.levelChanged && !named.levelChanged
    reportDone := fs.reportDone && !named.reportDone
    tallyClosed := fs.tallyClosed && !named.tallyClosed
    tableChanged := fs.tableChanged && !named.tableChanged
    restarted := fs.restarted && !named.restarted }

/-- Whether any flag of a set is set. -/
def AttentionFlags.any (fs : AttentionFlags) : Bool :=
  fs.callEvent || fs.creditLow || fs.conditionChanged || fs.levelChanged || fs.reportDone || fs.tallyClosed ||
    fs.tableChanged || fs.restarted

/-- Section 11.8: a set of attention flags from its byte. All eight bits are used, so no byte is refused. -/
def AttentionFlags.ofByte (b : Byte) : AttentionFlags :=
  { callEvent := b.getLsbD 0
    creditLow := b.getLsbD 1
    conditionChanged := b.getLsbD 2
    levelChanged := b.getLsbD 3
    reportDone := b.getLsbD 4
    tallyClosed := b.getLsbD 5
    tableChanged := b.getLsbD 6
    restarted := b.getLsbD 7 }

/-- Latches an attention flag (R189). -/
def State.raise (f : AttentionFlag) (s : State) : State :=
  s.setAttention { s.attention with flags := s.attention.flags.latch f }

/-- R189: the attention line is driven low while any flag that is set is unmasked. -/
def State.attentionDriven (s : State) : Bool := (s.attention.flags.clear s.attention.mask).any

end Sys2Proof.Machine
end

