-- ==== Sys2Proof/Machine/Calendar.lean ====
section
/-! DEFINITION. The calendar (chapter 5): valid dates and times, the advance by one second, weekdays, the order of clock
times, day types and bands. -/

namespace Sys2Proof.Machine

/-- R77: February has 29 days in every year divisible by 4, within 2000..2099. -/
def isLeap (year : Nat) : Bool := year % 4 = 0

/-- R77: the days of a month; 0 for a month outside 1..12. -/
def daysIn (year month : Nat) : Nat :=
  match month with
  | 2 => if isLeap year then 29 else 28
  | 4 | 6 | 9 | 11 => 30
  | 1 | 3 | 5 | 7 | 8 | 10 | 12 => 31
  | _ => 0

/-- A date of 2000..2099 (R77). -/
def Date.valid (d : Date) : Bool :=
  2000 ≤ d.year && d.year ≤ 2099 && 1 ≤ d.month && d.month ≤ 12 && 1 ≤ d.day && d.day ≤ daysIn d.year d.month

/-- A valid clock time to the minute (R56). -/
def MinuteTime.valid (t : MinuteTime) : Bool := t.date.valid && t.hour ≤ 23 && t.minute ≤ 59

/-- A valid clock time to the second (R79). -/
def ClockTime.valid (t : ClockTime) : Bool := t.date.valid && t.hour ≤ 23 && t.minute ≤ 59 && t.second ≤ 59

/-- A number that orders valid dates. -/
def Date.key (d : Date) : Nat := (d.year * 16 + d.month) * 32 + d.day

/-- A number that orders valid clock times to the minute. -/
def MinuteTime.key (t : MinuteTime) : Nat := t.date.key * 1440 + t.hour * 60 + t.minute

/-- The minute a clock time lies in. -/
def ClockTime.toMinute (t : ClockTime) : MinuteTime := { date := t.date, hour := t.hour, minute := t.minute }

/-- A number that orders valid clock times to the second. -/
def ClockTime.key (t : ClockTime) : Nat := t.toMinute.key * 60 + t.second

/-- Section 4.2 of 00_scope.md: the minute of day, 0..1439. -/
def ClockTime.minuteOfDay (t : ClockTime) : Nat := t.hour * 60 + t.minute

/-- The date after a date (R77); after 2099-12-31 comes 2000-01-01. -/
def Date.next (d : Date) : Date :=
  if d.day < daysIn d.year d.month then { d with day := d.day + 1 }
  else if d.month < 12 then { year := d.year, month := d.month + 1, day := 1 }
  else if d.year < 2099 then { year := d.year + 1, month := 1, day := 1 }
  else { year := 2000, month := 1, day := 1 }

/-- R77: the clock one second on. -/
def ClockTime.tick (t : ClockTime) : ClockTime :=
  if t.second < 59 then { t with second := t.second + 1 }
  else if t.minute < 59 then { t with minute := t.minute + 1, second := 0 }
  else if t.hour < 23 then { t with hour := t.hour + 1, minute := 0, second := 0 }
  else { date := t.date.next, hour := 0, minute := 0, second := 0 }

/-- R77: the last second of the calendar, 2099-12-31 23:59:59. -/
def ClockTime.atEnd (t : ClockTime) : Bool :=
  t.date.year = 2099 && t.date.month = 12 && t.date.day = 31 && t.hour = 23 && t.minute = 59 && t.second = 59

/-- The weekday after a weekday (R77). -/
def Weekday.next : Weekday → Weekday
  | .monday => .tuesday
  | .tuesday => .wednesday
  | .wednesday => .thursday
  | .thursday => .friday
  | .friday => .saturday
  | .saturday => .sunday
  | .sunday => .monday

/-- The weekdays counted from MONDAY. -/
def Weekday.ofIndex : Nat → Weekday
  | 0 => .monday
  | 1 => .tuesday
  | 2 => .wednesday
  | 3 => .thursday
  | 4 => .friday
  | 5 => .saturday
  | _ => .sunday

/-- The days of the year before a month. -/
def daysBefore (year month : Nat) : Nat :=
  let leapDay := if isLeap year then 1 else 0
  match month with
  | 1 => 0
  | 2 => 31
  | 3 => 59 + leapDay
  | 4 => 90 + leapDay
  | 5 => 120 + leapDay
  | 6 => 151 + leapDay
  | 7 => 181 + leapDay
  | 8 => 212 + leapDay
  | 9 => 243 + leapDay
  | 10 => 273 + leapDay
  | 11 => 304 + leapDay
  | _ => 334 + leapDay

/-- The days from 2000-01-01 to a date. -/
def Date.dayNumber (d : Date) : Nat :=
  365 * (d.year - 2000) + (d.year - 2000 + 3) / 4 + daysBefore d.year d.month + (d.day - 1)

/-- Section 5.1: the weekday of a date; 2000-01-01 was a SATURDAY. -/
def Date.weekday (d : Date) : Weekday := Weekday.ofIndex ((5 + d.dayNumber) % 7)

/-- R82: the day type of a date. -/
def dayTypeOf (date : Date) (weekday : Weekday) (holidays : List Date) : DayType :=
  if date ∈ holidays then .holidaySunday
  else
    match weekday with
    | .sunday => .holidaySunday
    | .saturday => .saturday
    | .monday | .tuesday | .wednesday | .thursday | .friday => .weekday

/-- The schedule of a day type (section 5.4). -/
def StationClock.schedule (c : StationClock) : DayType → List SwitchPoint
  | .weekday => c.weekdaySchedule
  | .saturday => c.saturdaySchedule
  | .holidaySunday => c.holidaySchedule

/-- Replaces the schedule of a day type (R85). -/
def StationClock.setSchedule (c : StationClock) (points : List SwitchPoint) : DayType → StationClock
  | .weekday => { c with weekdaySchedule := points }
  | .saturday => { c with saturdaySchedule := points }
  | .holidaySunday => { c with holidaySchedule := points }

/-- R86: the band of the last switch point whose minute is not later than a minute of day. -/
def bandAt (minute : Nat) (points : List SwitchPoint) : Fin 4 :=
  points.foldl (fun band p => if p.minute ≤ minute then p.band else band) 0

/-- R86: the current day type and current band formed afresh. -/
def StationClock.formBand (c : StationClock) : StationClock :=
  let dayType := dayTypeOf c.time.date c.weekday c.holidays
  { c with dayType := dayType, band := bandAt c.time.minuteOfDay (c.schedule dayType) }

/-- R84: the holiday dates not earlier than the clock's date. -/
def StationClock.prune (c : StationClock) : StationClock :=
  { c with holidays := c.holidays.filter (fun d => c.time.date.key ≤ d.key) }

/-- R77: the clock and weekday one second on. -/
def StationClock.advance (c : StationClock) : StationClock :=
  if c.time.atEnd then { c with time := .regionDefault, weekday := .saturday, unset := true }
  else
    { c with time := c.time.tick, weekday := if c.time.tick.date = c.time.date then c.weekday else c.weekday.next }

/-- Elapsed time is at least an instant: the instant a timed command names by falling (log entry 3). -/
def State.reach (t : Nat) (s : State) : State := s.setNow (max s.now t)

end Sys2Proof.Machine
end

