-- ==== Sys2Proof/Machine/Operands.lean ====
section
/-! DEFINITION. The layouts of section 11.8: the body lengths each request allows (R186), and the numbers, symbol strings,
dates, times, tariff records and codes that bodies carry. -/

namespace Sys2Proof.Machine

/-! ## Numbers and symbols -/

/-- Byte `i` of a body, as a number. -/
def byteAt (body : List Byte) (i : Nat) : Nat := (body.getD i 0).toNat

/-- Two bytes, most significant first. -/
def word2 (body : List Byte) (i : Nat) : Nat := byteAt body i * 256 + byteAt body (i + 1)

/-- Three bytes, most significant first. -/
def word3 (body : List Byte) (i : Nat) : Nat := word2 body i * 256 + byteAt body (i + 2)

/-- A number as its two bytes, most significant first. -/
def bytes2 (n : Nat) : List Byte := [BitVec.ofNat 8 (n / 256), BitVec.ofNat 8 n]

/-- A number as its three bytes, most significant first. -/
def bytes3 (n : Nat) : List Byte := BitVec.ofNat 8 (n / 65536) :: bytes2 n

/-- The half-bytes of some bytes, the upper half of each first. -/
def halfBytes : List Byte → List Nat
  | [] => []
  | b :: bs => b.toNat / 16 :: b.toNat % 16 :: halfBytes bs

/-- Symbols from their codes: none where a code is above 11. -/
def symbolsOfCodes : List Nat → Option (List Symbol)
  | [] => some []
  | k :: ks => if h : k < 12 then (symbolsOfCodes ks).map (⟨k, h⟩ :: ·) else none

/-- `n` symbols from bytes that hold two each: none where a code is not a symbol's, or an unused half-byte is not 15. -/
def symbolsOfBytes (n : Nat) (bs : List Byte) : Option (List Symbol) :=
  if n ≤ (halfBytes bs).length ∧ ((halfBytes bs).drop n).all (· = 15) then symbolsOfCodes ((halfBytes bs).take n) else none

/-- A symbol string: a length byte and the symbols, two per byte. -/
def symbolString (bs : List Byte) : Option (List Symbol) := symbolsOfBytes (byteAt bs 0) (bs.drop 1)

/-- Two half-bytes in one byte. -/
def packByte (upper lower : Nat) : Byte := BitVec.ofNat 8 (upper * 16 + lower)

/-- Codes two per byte in `n` bytes, unused half-bytes 15. -/
def packCodes : Nat → List Nat → List Byte
  | 0, _ => []
  | n + 1, [] => packByte 15 15 :: packCodes n []
  | n + 1, [a] => packByte a 15 :: packCodes n []
  | n + 1, a :: b :: rest => packByte a b :: packCodes n rest

/-! ## Dates and times -/

/-- A clock time to the minute from its five bytes. -/
def minuteTimeAt (body : List Byte) (i : Nat) : MinuteTime :=
  { date := { year := 2000 + byteAt body i, month := byteAt body (i + 1), day := byteAt body (i + 2) }
    hour := byteAt body (i + 3)
    minute := byteAt body (i + 4) }

/-- A clock time to the second from its six bytes. -/
def clockTimeAt (body : List Byte) (i : Nat) : ClockTime :=
  let t := minuteTimeAt body i
  { date := t.date, hour := t.hour, minute := t.minute, second := byteAt body (i + 5) }

/-- The five bytes of a clock time to the minute. -/
def minuteTimeBytes (t : MinuteTime) : List Byte :=
  [t.date.year - 2000, t.date.month, t.date.day, t.hour, t.minute].map (BitVec.ofNat 8)

/-- A holiday date from its two bytes: seven bits of year, four of month, five of day. -/
def holidayAt (body : List Byte) (i : Nat) : Date :=
  let v := word2 body i
  { year := 2000 + v / 512, month := v / 32 % 16, day := v % 32 }

/-- `k` holiday dates from byte `i` on. -/
def holidaysAt (body : List Byte) (i : Nat) : Nat → List Date
  | 0 => []
  | k + 1 => holidayAt body i :: holidaysAt body (i + 2) k

/-- R83: dates in strictly increasing order. -/
def strictlyIncreasing : List Nat → Bool
  | a :: b :: rest => a < b && strictlyIncreasing (b :: rest)
  | _ => true

/-! ## Codes -/

/-- Section 11.8: the day type codes. -/
def dayTypeOfCode : Nat → Option DayType
  | 0 => some .weekday
  | 1 => some .saturday
  | 2 => some .holidaySunday
  | _ => none

/-- Section 11.8: the category codes. -/
def categoryOfCode : Nat → Option Category
  | 0 => some .charged
  | 1 => some .free
  | 2 => some .emergency
  | 3 => some .blocked
  | _ => none

/-- Section 11.8: a category's code. -/
def Category.code : Category → Nat
  | .charged => 0
  | .free => 1
  | .emergency => 2
  | .blocked => 3

/-- Section 11.8: the rounding codes of a tariff record. -/
def roundingOfCode : Nat → Option RecordRounding
  | 0 => some (.fixed .carry)
  | 1 => some (.fixed .stepUp)
  | 2 => some (.fixed .stepDown)
  | 3 => some .station
  | _ => none

/-- Section 11.8: a rounding's code. -/
def RecordRounding.code : RecordRounding → Nat
  | .fixed .carry => 0
  | .fixed .stepUp => 1
  | .fixed .stepDown => 2
  | .station => 3

/-- Section 11.8: a record state's code; EMPTY is 0. -/
def RecordState.code : RecordState → Nat
  | .pending => 1
  | .live => 2
  | .retiring => 3

/-- Section 11.8: the filter codes of TARIFF_SCAN; ANY is the filter that asks for no state. -/
def filterOfCode : Nat → Option (Option RecordState)
  | 0 => some none
  | 1 => some (some .pending)
  | 2 => some (some .live)
  | 3 => some (some .retiring)
  | _ => none

/-- Section 9.4: the code of a source, less one. -/
def Source.idx : Source → Fin 22
  | .coinPath => 0
  | .collectGate => 1
  | .refundGate => 2
  | .returnCup => 3
  | .coinSlot => 4
  | .cashboxNear => 5
  | .cashboxFull => 6
  | .compartment => 7
  | .keypad => 8
  | .line => 9
  | .dialtone => 10
  | .retention => 11
  | .clock => 12
  | .collection => 13
  | .input i => ⟨14 + i.val, by omega⟩

/-- Section 9.4: a source's two-digit code, 1..22. -/
def Source.code (src : Source) : Nat := src.idx.val + 1

/-- The 22 sources in code order. -/
def Source.all : List Source :=
  [.coinPath, .collectGate, .refundGate, .returnCup, .coinSlot, .cashboxNear, .cashboxFull, .compartment, .keypad, .line,
    .dialtone, .retention, .clock, .collection, .input 0, .input 1, .input 2, .input 3, .input 4, .input 5, .input 6,
    .input 7]

/-- The source of a code, none outside 1..22. -/
def Source.ofCode (code : Nat) : Option Source := Source.all.find? (fun src => src.code = code)

/-- Section 11.8: the input type codes. -/
def inputTypeOfCode : Nat → Option InputType
  | 0 => some .unused
  | 1 => some .handsetCord
  | 2 => some .housingShock
  | 3 => some .glassBreak
  | 4 => some .panelOpen
  | 5 => some .genericFault
  | _ => none

/-- Section 11.8: the polarity codes. -/
def polarityOfCode : Nat → Option Polarity
  | 0 => some .high
  | 1 => some .low
  | _ => none

/-- Section 11.8: the mode codes. -/
def inputModeOfCode : Nat → Option InputMode
  | 0 => some .edge
  | 1 => some .level
  | 2 => some .count
  | _ => none

/-- Section 11.8 and R157: the restriction codes; 15 omits the restriction, which is then CLOSED for HANDSET_CORD and NONE
for every other type. -/
def restrictionOfCode (type : InputType) : Nat → Option ServiceLevel
  | 0 => some .full
  | 1 => some .freeOnly
  | 2 => some .emergencyOnly
  | 3 => some .closed
  | 15 => some (if type = .handsetCord then .closed else .full)
  | _ => none

/-! ## The tariff record body -/

/-- What a TARIFF_PUT offers (section 4.4). -/
structure TariffOffer where
  toDefault : Bool
  replace : Bool
  content : TariffContent
  deriving DecidableEq, Repr

/-- An optional clock time: its presence byte, 0 or 1, and its five bytes; none where the presence byte is another. -/
def optionalTimeAt (body : List Byte) (i : Nat) : Option (Option MinuteTime) :=
  match byteAt body i with
  | 0 => some none
  | 1 => some (some (minuteTimeAt body (i + 1)))
  | _ => none

/-- The tariff record body of section 11.8: none where a code is not one of those listed or a prefix character is not a
symbol. -/
def tariffOffer (body : List Byte) : Option TariffOffer :=
  match (if byteAt body 0 % 128 ≤ 1 then some () else none), symbolsOfBytes (byteAt body 1) ((body.drop 2).take 6),
    categoryOfCode (byteAt body 10), roundingOfCode (byteAt body 27), optionalTimeAt body 30, optionalTimeAt body 36 with
  | some _, some pre, some category, some rounding, some effectiveFrom, some retireAt =>
    some
      { toDefault := 128 ≤ byteAt body 0
        replace := byteAt body 0 % 2 = 1
        content :=
          { pre := pre, minLength := byteAt body 8, maxLength := byteAt body 9, category := category,
            rates := #v[word3 body 11, word3 body 14, word3 body 17, word3 body 20],
            connection := word2 body 23, period := word2 body 25, rounding := rounding, minCredit := word2 body 28,
            effectiveFrom := effectiveFrom, retireAt := retireAt } }
  | _, _, _, _, _, _ => none

/-- R56: the content checks of TARIFF_PUT, against the clock's current time. -/
def TariffOffer.acceptable (now : MinuteTime) (o : TariffOffer) : Bool :=
  let c := o.content
  (if o.toDefault then c.pre = [] && c.effectiveFrom = none && c.retireAt = none else c.pre ≠ []) &&
  c.pre.length ≤ 12 && 1 ≤ c.minLength && c.minLength ≤ 20 && 1 ≤ c.maxLength && c.maxLength ≤ 20 &&
  c.pre.length ≤ c.minLength && c.minLength ≤ c.maxLength &&
  c.rates[0] ≤ 999999 && c.rates[1] ≤ 999999 && c.rates[2] ≤ 999999 && c.rates[3] ≤ 999999 &&
  c.connection ≤ 9999 && 1 ≤ c.period && c.period ≤ 600 && c.minCredit ≤ 9999 &&
  (match c.effectiveFrom with
    | none => true
    | some e => e.valid) &&
  (match c.retireAt with
    | none => true
    | some r => r.valid && now.key < r.key) &&
  (match c.effectiveFrom, c.retireAt with
    | some e, some r => e.key < r.key
    | _, _ => true)

/-- The bytes of an optional clock time in a TARIFF_GET response; where it is absent the five bytes are free values. -/
def optionalTimeBytes (slot i : Nat) : Option MinuteTime → List Byte
  | some t => 1 :: minuteTimeBytes t
  | none => 0 :: (List.range 5).map (fun k => Config.readbackAbsentByte slot (i + k))

/-- Bytes 1..41 of the tariff record body, as TARIFF_GET returns them (section 11.8). -/
def tariffBytes (slot : Nat) (c : TariffContent) : List Byte :=
  BitVec.ofNat 8 c.pre.length :: packCodes 6 (c.pre.map Fin.val) ++
  [BitVec.ofNat 8 c.minLength, BitVec.ofNat 8 c.maxLength, BitVec.ofNat 8 c.category.code] ++
  bytes3 c.rates[0] ++ bytes3 c.rates[1] ++ bytes3 c.rates[2] ++ bytes3 c.rates[3] ++
  bytes2 c.connection ++ bytes2 c.period ++ BitVec.ofNat 8 c.rounding.code :: bytes2 c.minCredit ++
  optionalTimeBytes slot 31 c.effectiveFrom ++ optionalTimeBytes slot 37 c.retireAt

/-- Byte 0 of the tariff record body in a TARIFF_GET response: the target, and a mode bit that is a free value. -/
def targetByte (slot : Nat) : Byte :=
  BitVec.ofNat 8 ((if slot = 0 then 128 else 0) + if Config.readbackModeBit slot then 1 else 0)

/-! ## Body lengths -/

/-- The bytes that hold `n` symbols. -/
def symbolBytes (n : Nat) : Nat := (n + 1) / 2

/-- A body that is a symbol string: its length is the one its first byte calls for. -/
def symbolStringFits (bs : List Byte) : Bool :=
  match bs with
  | [] => false
  | n :: rest => rest.length = symbolBytes n.toNat

/-- A body of a head of `head` bytes and then `size` bytes for each item its byte `head - 1` counts. -/
def countedFits (head size : Nat) (body : List Byte) : Bool :=
  head ≤ body.length && body.length = head + size * byteAt body (head - 1)

/-- Section 11.8: the body lengths of SETTING_SET, by the setting named. A setting code outside 1..11 calls for no length:
it is refused INVALID by its rule (log entry 27). -/
def settingSetFits (body : List Byte) : Bool :=
  match body with
  | [] => false
  | code :: value =>
    match code.toNat with
    | 1 | 2 => symbolStringFits value
    | 3 | 4 | 7 => value.length = 1
    | 5 | 6 | 9 | 10 => value.length = 2
    | 8 => value.length = 4
    | 11 => value.length = 13
    | _ => true

/-- Section 11.8: the body lengths of SETTING_GET. -/
def settingGetFits (body : List Byte) : Bool :=
  match body with
  | [] => false
  | code :: rest => if code.toNat = 10 ∨ code.toNat = 11 then rest.length = 1 else rest.length = 0

/-! ## Answers -/

/-- The answer a rule gives a request: a status with the body of its response, or a refusal with its reason (R186). -/
inductive Reply where
  | done (body : ResponseBody)
  | doneClamped
  | doneDeferred (body : ResponseBody)
  | refused (reason : Reason)
  deriving DecidableEq, Repr

end Sys2Proof.Machine
end

