-- ==== Sys2Proof/Machine/Tariff.lean ====
section
/-! DEFINITION. The tariff table's own work (chapter 4): windows and clashes, putting and withdrawing records, the
evaluation against the clock, pins, the analysis of a dialled string and its verdicts, and the table's read requests. -/

namespace Sys2Proof.Machine

/-! ## Windows and clashes -/

/-- Whether an optional retire-at lies at or before an optional effective-from: the first window has ended when the other
begins. -/
def endsBefore (retireAt effectiveFrom : Option MinuteTime) : Bool :=
  match retireAt, effectiveFrom with
  | some r, some e => r.key ≤ e.key
  | _, _ => false

/-- Section 4.1: two windows intersect when some clock time lies in both. -/
def windowsIntersect (a b : TariffContent) : Bool :=
  !endsBefore a.retireAt b.effectiveFrom && !endsBefore b.retireAt a.effectiveFrom

/-- R60: a clashing record of a content: same prefix, PENDING or LIVE, windows intersecting. -/
def TariffRecord.clashes (c : TariffContent) (r : TariffRecord) : Bool :=
  r.content.pre = c.pre && r.state ≠ .retiring && windowsIntersect r.content c

/-- Whether a LIVE record of a prefix stands among some records. -/
def liveWith (pre : List Symbol) (records : List TariffRecord) : Bool :=
  records.any (fun r => r.state = .live && r.content.pre = pre)

/-- Whether an optional effective-from is later than the clock's time. -/
def notYet (now : MinuteTime) : Option MinuteTime → Bool
  | none => false
  | some e => now.key < e.key

/-- Whether an optional retire-at is not later than the clock's time. -/
def hasPassed (now : MinuteTime) : Option MinuteTime → Bool
  | none => false
  | some r => r.key ≤ now.key

/-- R62: the state a record installed takes. -/
def installState (now : MinuteTime) (records : List TariffRecord) (c : TariffContent) : RecordState :=
  if notYet now c.effectiveFrom then .pending else if liveWith c.pre records then .pending else .live

/-- The lowest-numbered EMPTY slot of 1..239 (R60). -/
def lowestEmpty (records : List TariffRecord) : Option Nat :=
  (List.range' 1 239).find? (fun n => !records.any (fun r => r.slot = n))

/-- A record put in its place by slot number. -/
def insertRecord (r : TariffRecord) : List TariffRecord → List TariffRecord
  | [] => [r]
  | q :: rest => if r.slot < q.slot then r :: q :: rest else q :: insertRecord r rest

/-- R61, R63: a record withdrawn: gone, or RETIRING where it is LIVE and pinned. -/
def TariffRecord.withdrawn (r : TariffRecord) : Option TariffRecord :=
  if r.state = .live && r.pinned then some { r with state := .retiring } else none

/-- The four bytes of a TARIFF_PUT response (section 11.8): slot, state, records withdrawn, records left RETIRING. -/
def putBody (slot state withdrawn retiring : Nat) : ResponseBody :=
  .bytes [BitVec.ofNat 8 slot, BitVec.ofNat 8 state, BitVec.ofNat 8 withdrawn, BitVec.ofNat 8 retiring]

/-- R57: TARIFF_PUT for slot 0. -/
def TariffTable.putDefault (c : TariffContent) (t : TariffTable) : TariffTable × Reply :=
  if t.basePinned then ({ t with staging := some c }, .doneDeferred (putBody 0 2 0 0))
  else ({ t with base := c }, .done (putBody 0 2 0 0))

/-- R60: TARIFF_PUT with target TABLE and mode NEW. -/
def TariffTable.putNew (now : MinuteTime) (c : TariffContent) (t : TariffTable) : TariffTable × Reply :=
  if t.records.any (TariffRecord.clashes c) then (t, .refused .overlap)
  else
    match lowestEmpty t.records with
    | none => (t, .refused .full)
    | some slot =>
      let state := installState now t.records c
      ({ t with records := insertRecord ⟨slot, c, state, false⟩ t.records }, .done (putBody slot state.code 0 0))

/-- R61: TARIFF_PUT with target TABLE and mode REPLACE. The slots free once each unpinned clashing record has become EMPTY
are those not listed among the records left. -/
def TariffTable.putReplace (now : MinuteTime) (c : TariffContent) (t : TariffTable) : TariffTable × Reply :=
  let kept := t.records.filterMap (fun r => if r.clashes c then r.withdrawn else some r)
  let clashing := t.records.filter (TariffRecord.clashes c)
  let leftRetiring := clashing.filterMap TariffRecord.withdrawn
  match lowestEmpty kept with
  | none => (t, .refused .full)
  | some slot =>
    let state := installState now kept c
    let body := putBody slot state.code clashing.length leftRetiring.length
    ({ t with records := insertRecord ⟨slot, c, state, false⟩ kept },
      if leftRetiring = [] then .done body else .doneDeferred body)

/-- The record in a slot of 1..239. -/
def TariffTable.recordAt (t : TariffTable) (slot : Nat) : Option TariffRecord := t.records.find? (fun r => r.slot = slot)

/-- R58, R63: TARIFF_WITHDRAW. -/
def TariffTable.withdraw (slot : Nat) (t : TariffTable) : TariffTable × Reply :=
  if slot = 0 ∨ 239 < slot then (t, .refused .invalid)
  else
    match t.recordAt slot with
    | none => (t, .refused .notFound)
    | some r =>
      if r.state = .retiring then (t, .refused .state)
      else
        let records := t.records.filterMap (fun q => if q.slot = slot then q.withdrawn else some q)
        ({ t with records := records },
          if r.state = .live ∧ r.pinned then .doneDeferred .empty else .done .empty)

/-! ## The evaluation (R64) -/

/-- R64: what becomes of a record whose retire-at has been reached; every other record is unchanged. -/
def TariffRecord.retired (now : MinuteTime) (r : TariffRecord) : Option TariffRecord :=
  if r.state ≠ .retiring && hasPassed now r.content.retireAt then r.withdrawn else some r

/-- R64: a PENDING record whose effective-from has come becomes LIVE, unless a LIVE record of its prefix stands. -/
def TariffRecord.promoted (now : MinuteTime) (records : List TariffRecord) (r : TariffRecord) : TariffRecord :=
  if r.state = .pending && !notYet now r.content.effectiveFrom && !liveWith r.content.pre records then
    { r with state := .live }
  else r

/-- R64: the evaluation of the prefixed records, taken whole: first the retirements, then the PENDING records. -/
def evaluate (now : MinuteTime) (records : List TariffRecord) : List TariffRecord :=
  let kept := records.filterMap (TariffRecord.retired now)
  kept.map (TariffRecord.promoted now kept)

/-! ## Pins (section 4.6) -/

/-- R66: the record of a slot pinned. -/
def TariffTable.pin (slot : Nat) (t : TariffTable) : TariffTable :=
  if slot = 0 then { t with basePinned := true }
  else { t with records := t.records.map (fun r => if r.slot = slot then { r with pinned := true } else r) }

/-- R67: a prefixed record at the release of its pin. -/
def TariffRecord.released (r : TariffRecord) : Option TariffRecord :=
  if r.state = .retiring then none else some { r with pinned := false }

/-- R67: the release of a slot's pin. -/
def TariffTable.releasePin (slot : Nat) (t : TariffTable) : TariffTable :=
  if slot = 0 then { t with base := t.staging.getD t.base, basePinned := false, staging := none }
  else { t with records := t.records.filterMap (fun r => if r.slot = slot then r.released else some r) }

/-- R76: every pin cleared at start-up, as a release. -/
def TariffTable.releaseAll (t : TariffTable) : TariffTable :=
  { base := t.staging.getD t.base, basePinned := false, staging := none, records := t.records.filterMap TariffRecord.released }

/-- The content of a slot; of a slot that holds no record, the default record's (log entry 32). -/
def TariffTable.contentOf (t : TariffTable) (slot : Nat) : TariffContent :=
  match t.recordAt slot with
  | some r => r.content
  | none => t.base

/-! ## Analysis (section 4.7) -/

/-- The chosen record of an analysis. -/
structure Chosen where
  slot : Nat
  content : TariffContent
  deriving DecidableEq, Repr

/-- The outcome of an analysis (section 4.7). -/
inductive Analysis where
  | more
  | barred (r : Chosen)
  | decided (r : Chosen)
  | base (r : Chosen)
  deriving DecidableEq, Repr

/-- The LIVE records whose prefix begins a string. -/
def TariffTable.matching (t : TariffTable) (s : List Symbol) : List TariffRecord :=
  t.records.filter (fun r => r.state = .live && r.content.pre.isPrefixOf s)

/-- The record of the longest prefix among some; the first where several are as long. -/
def longest : List TariffRecord → Option TariffRecord
  | [] => none
  | r :: rest =>
    match longest rest with
    | none => some r
    | some q => if r.content.pre.length < q.content.pre.length then some q else some r

/-- Section 4.7: MORE: a LIVE prefix longer than the string begins with it, and it has fewer than 20 symbols. -/
def TariffTable.expectsMore (t : TariffTable) (s : List Symbol) : Bool :=
  s.length < 20 &&
    t.records.any (fun r => r.state = .live && s.length < r.content.pre.length && s.isPrefixOf r.content.pre)

/-- The record a string falls under: the LIVE one of the longest prefix that begins it, or the default record. -/
def TariffTable.chosen (t : TariffTable) (s : List Symbol) : Chosen :=
  match longest (t.matching s) with
  | some r => ⟨r.slot, r.content⟩
  | none => ⟨0, t.base⟩

/-- R68: the analysis of a string. -/
def TariffTable.analyse (t : TariffTable) (s : List Symbol) : Analysis :=
  let r := t.chosen s
  if t.expectsMore s then .more
  else if r.content.category = .blocked then .barred r
  else if t.matching s = [] then .base r
  else .decided r

/-- A verdict on a string (R70, R71). -/
inductive Verdict where
  | continue
  | refused (cause : RefusalCause) (r : Chosen)
  | complete (r : Chosen)
  deriving DecidableEq, Repr

/-- R70: the verdict after a new symbol. -/
def TariffTable.dialledVerdict (t : TariffTable) (s : List Symbol) : Verdict :=
  match t.analyse s with
  | .more => .continue
  | .barred r => .refused .barred r
  | .decided r | .base r =>
    if s.length < r.content.maxLength then .continue
    else if s.length = r.content.maxLength then .complete r
    else .refused .overlong r

/-- R71: the verdict at the inter-symbol timeout. MORE is taken with the fallback record, which is the record the string
falls under. -/
def TariffTable.timeoutVerdict (t : TariffTable) (s : List Symbol) : Verdict :=
  let r := t.chosen s
  if r.content.category = .blocked then .refused .barred r
  else if s.length < r.content.minLength then .refused .tooShort r
  else if r.content.maxLength < s.length then .refused .overlong r
  else .complete r

/-- Whether a string holds `*` or `#`, which PULSE cannot send. -/
def holdsStarOrHash (s : List Symbol) : Bool := s.any (fun k => 10 ≤ k.val)

/-- R72: a decision that the dialling method cannot send is handed over as BARRED. -/
def Verdict.forMethod (method : DialMethod) (s : List Symbol) : Verdict → Verdict
  | .complete r => if method = .pulse ∧ holdsStarOrHash s then .refused .barred r else .complete r
  | v => v

/-! ## What the ports see (section 4.9) -/

/-- A verdict as TARIFF_FIND returns it. -/
def Verdict.view : Verdict → VerdictView
  | .continue => .continue
  | .refused cause r => .refused cause r.slot
  | .complete r => .complete r.slot

/-- A chosen record as TARIFF_FIND returns it. -/
def Chosen.view (r : Chosen) : ChosenView := ⟨r.slot, r.content.category, r.content.minLength, r.content.maxLength⟩

/-- R73: TARIFF_FIND of a string. -/
def TariffTable.find (t : TariffTable) (s : List Symbol) : ResponseBody :=
  let dialled := (t.dialledVerdict s).view
  let timeout := (t.timeoutVerdict s).view
  match t.analyse s with
  | .more => .find .more none dialled timeout
  | .barred r => .find .barred (some r.view) dialled timeout
  | .decided r => .find .decided (some r.view) dialled timeout
  | .base r => .find .base (some r.view) dialled timeout

/-- R74: TARIFF_GET of a slot. -/
def TariffTable.get (slot : Nat) (t : TariffTable) : Reply :=
  if 239 < slot then .refused .invalid
  else if slot = 0 then
    .done (.bytes (BitVec.ofNat 8 slot :: targetByte slot :: tariffBytes slot t.base ++
      [2, if t.basePinned then 1 else 0] ++
      (match t.staging with
        | none => [0]
        | some c => 1 :: tariffBytes slot c)))
  else
    match t.recordAt slot with
    | none => .refused .notFound
    | some r =>
      .done (.bytes (BitVec.ofNat 8 slot :: targetByte slot :: tariffBytes slot r.content ++
        [BitVec.ofNat 8 r.state.code, if r.pinned then 1 else 0]))

/-- R75: the non-EMPTY slots, slot 0 as LIVE with no prefix. -/
def TariffTable.entries (t : TariffTable) : List ScanEntry :=
  ⟨0, .live, t.basePinned, []⟩ :: t.records.map (fun r => ⟨r.slot, r.state, r.pinned, r.content.pre⟩)

/-- R75: where the next scan begins: past the sixth entry, or the mark (none) that the last slot has been passed. -/
def nextScan (found : List ScanEntry) : Option Nat :=
  match (found.drop 5).head? with
  | none => none
  | some e => if e.slot < 239 then some (e.slot + 1) else none

/-- The number of entries of a state. -/
def countState (entries : List ScanEntry) (state : RecordState) : Nat := (entries.filter (fun e => e.state = state)).length

/-- R75: TARIFF_SCAN from a slot with a state filter. -/
def TariffTable.scan (start : Nat) (filter : Option RecordState) (t : TariffTable) : ResponseBody :=
  let found := (t.entries.filter (fun e => start ≤ e.slot && (filter = none || filter = some e.state))).take 6
  .scan found (nextScan found) (240 - t.entries.length) (countState t.entries .pending) (countState t.entries .live)
    (countState t.entries .retiring)

end Sys2Proof.Machine
end

