-- ==== Sys2Proof/Machine/Rating.lean ====
section
/-! DEFINITION. The arithmetic of call rating (chapter 6): step amounts, the three roundings with their limit, the credit
threshold and the runway, in rate-seconds and MU. -/

namespace Sys2Proof.Machine

/-- R91: the step amount in rate-seconds, of a record at a band. -/
def TariffContent.stepAmount (c : TariffContent) (band : Fin 4) : Nat := c.rates[band] * c.period

/-- R92: a record's rounding resolved against the station's default rounding setting. -/
def RecordRounding.resolve (station : Rounding) : RecordRounding → Rounding
  | .fixed r => r
  | .station => station

/-- A step charge formed (section 6.3): the charge, the accumulator it leaves, whether 6000 does not divide the step
amount, and whether the charge was limited to 65535 MU. -/
structure StepCharge where
  charge : Nat
  acc : Nat
  inexact : Bool
  limited : Bool
  deriving DecidableEq, Repr

/-- R93, R94, R95: the charge before its limit. -/
def unlimitedCharge (rounding : Rounding) (acc amount : Nat) : Nat :=
  match rounding with
  | .carry => (acc + amount) / Config.rateSecondsPerMu
  | .stepUp => (amount + (Config.rateSecondsPerMu - 1)) / Config.rateSecondsPerMu
  | .stepDown => amount / Config.rateSecondsPerMu

/-- R93 to R96: a step charge formed from the accumulator and the step amount. Under STEP_UP and STEP_DOWN the accumulator
is not used and stays as it is. -/
def stepCharge (rounding : Rounding) (acc amount : Nat) : StepCharge :=
  let c := unlimitedCharge rounding acc amount
  { charge := min Config.stepChargeMax c
    acc := if rounding = .carry then (acc + amount) % Config.rateSecondsPerMu else acc
    inexact := amount % Config.rateSecondsPerMu ≠ 0
    limited := Config.stepChargeMax < c }

/-- R94, R95, R96: the flags a step charge taken sets. -/
def CallFlags.ofCharge (rounding : Rounding) (c : StepCharge) : CallFlags :=
  { CallFlags.empty with
    roundedUp := rounding = .stepUp && c.inexact
    roundedDown := rounding = .stepDown && c.inexact
    clipped := c.limited }

/-- R97: the credit threshold of a record at a band, under the rounding resolved. -/
def creditThreshold (c : TariffContent) (band : Fin 4) (rounding : Rounding) : Nat :=
  max c.minCredit (c.connection + (stepCharge rounding 0 (c.stepAmount band)).charge)

/-- R104: K, the further steps available credit would pay; none where K has no bound. -/
def furtherSteps (rounding : Rounding) (acc amount available : Nat) : Option Nat :=
  if amount = 0 then none
  else if Config.stepChargeMax * Config.rateSecondsPerMu ≤ amount then some (available / Config.stepChargeMax)
  else
    match rounding with
    | .carry => some (((available + 1) * Config.rateSecondsPerMu - 1 - acc) / amount)
    | .stepUp | .stepDown =>
      let c := (stepCharge rounding 0 amount).charge
      if c = 0 then none else some (available / c)

/-- R104: the runway in seconds, and whether it saturated at 65535. -/
def runwayOf (rounding : Rounding) (acc amount available period secondsToBoundary : Nat) : Nat × Bool :=
  match furtherSteps rounding acc amount available with
  | none => (top16, true)
  | some k =>
    let r := secondsToBoundary + k * period
    if top16 < r then (top16, true) else (r, false)

end Sys2Proof.Machine
end

