-- ==== Sys2Proof/Machine/Ops.lean ====
section
/-! DEFINITION. The views the blocks have of one another, computed from the state that holds them: credit (R9, R23, R24),
gate inhibits (R19), the inhibit set (R1), the lamp (R168), the service port enable (R43), the loop, the tone of the symbol being sent (R118, R122) and the local tone with its
cadence. -/

namespace Sys2Proof.Machine

/-! ## Conditions -/

/-- Section 9.5: a record is active while it is RAISED or STANDING. -/
def ConditionRecord.active (r : ConditionRecord) : Bool := r.state ≠ .cleared

/-- The record of a source, if one is held. -/
def State.record (s : State) (src : Source) : Option ConditionRecord := s.sup.records[src.idx]

/-- Whether a source has an active record. -/
def State.recordActive (s : State) (src : Source) : Bool :=
  match s.record src with
  | some r => r.active
  | none => false

/-- Whether a source is normal, as last reported (R162). -/
def State.normal (s : State) (src : Source) : Bool := !s.sup.abnormal[src.idx]

/-- The report enable of a source (R165). -/
def State.reportEnabled (s : State) (src : Source) : Bool := s.settings.reportEnable[src.idx]

/-- R159: a record is latched when its severity is ALARM, and when its source is COLLECT_GATE, REFUND_GATE or COIN_PATH. -/
def latched (src : Source) (r : ConditionRecord) : Bool :=
  r.severity = .alarm || src = .collectGate || src = .refundGate || src = .coinPath

/-- R171: a record of a source whose report enable is given is outstanding. -/
def ConditionRecord.outstanding (enabled : Bool) (r : ConditionRecord) : Bool :=
  enabled && (r.acked < r.count || r.state = .cleared)

/-- R171: whether a source's record is outstanding. -/
def State.outstanding (s : State) (src : Source) : Bool :=
  match s.record src with
  | some r => r.outstanding (s.reportEnabled src)
  | none => false

/-- R171: whether any record is outstanding. -/
def State.anyOutstanding (s : State) : Bool := Source.all.any s.outstanding

/-! ## The coin path -/

/-- Section 1.3: the column-bound count. -/
def CoinPath.columnBound (c : CoinPath) : Nat := (c.transit.filter (fun e => e.dest = .column)).length

/-- The sum of R1 and R4: held coins and column-bound entries. -/
def CoinPath.fill (c : CoinPath) : Nat := c.column.length + c.columnBound

/-- Whether an OVERFLOW entry is pending. -/
def CoinPath.overflowPending (c : CoinPath) : Bool := c.transit.any (fun e => e.dest = .overflow)

/-- Whether a refund cycle is in flight. -/
def CoinPath.refundInFlight (c : CoinPath) : Bool :=
  match c.cycle with
  | .refund _ _ _ => true
  | _ => false

/-- Whether a collect cycle is in flight, from its acceptance (R11). -/
def CoinPath.collectInFlight (c : CoinPath) : Bool :=
  match c.cycle with
  | .collectHeld | .collectStarted _ _ _ _ => true
  | _ => false

/-- R131: whether a refund that a session end requested waits or is in flight. -/
def CoinPath.sessionRefundStands (c : CoinPath) : Bool :=
  (match c.waiting with
    | some w => w.ofSession
    | none => false) ||
  (match c.cycle with
    | .refund _ _ ofSession => ofSession
    | _ => false)

/-- R9: the escrow credit of a column. -/
def escrowOf (column : List HeldCoin) : Nat :=
  ((column.filter (fun c => c.tag = .credited)).map HeldCoin.value).sum

/-- R9: escrow credit E. -/
def State.escrow (s : State) : Nat := escrowOf s.coin.column

/-- R19: a gate is inhibited while its condition record is active. -/
def State.gateInhibited (s : State) : Gate → Bool
  | .collect => s.recordActive .collectGate
  | .refund => s.recordActive .refundGate

/-- Section 1.5: whether the T4 drives a gate: while its cycle has started and is in flight. DESIGN CHOICE (log entry 48): R12 and
R15 say when the drive begins and not when it ends, and the gate returns home of itself; the model drives it to the cycle's end,
even after its return home. -/
def State.gateDriven (s : State) : Gate → Bool
  | .collect => match s.coin.cycle with
    | .collectStarted _ _ _ _ => true
    | _ => false
  | .refund => s.coin.refundInFlight

/-- R1: the session states in which coins are accepted. -/
def SessionState.acceptsCoins : SessionState → Bool
  | .idle | .clearing => false
  | .dialWait | .collecting | .awaitCredit | .placing | .ringing | .connected | .ended => true

/-- R1: whether a coin class is inhibited: the inhibit set, as it stands. -/
def State.classInhibited (s : State) (cls : Fin 16) : Bool :=
  !s.session.state.acceptsCoins || s.sup.level ≠ .full || s.coin.refundInFlight || s.comp.presence = .absent ||
    Config.columnMax ≤ s.coin.fill || !s.settings.classes[cls].enabled || s.settings.classes[cls].value = 0

/-! ## Credit -/

/-- R23: whether escrow credit is collectable. -/
def State.collectable (s : State) : Bool := !s.gateInhibited .collect && s.comp.presence = .present

/-- R23: the collectable escrow credit. -/
def State.collectableEscrow (s : State) : Nat := if s.collectable then s.escrow else 0

/-- Section 2.2: the owed amount. -/
def owedTotal (owed : List OwedEntry) : Nat := (owed.map OwedEntry.amount).sum

/-- R24: available credit A. -/
def State.available (s : State) : Nat := s.credit.banked + s.collectableEscrow - owedTotal s.credit.owed

/-! ## The compartment -/

/-- R43: the service port enable, formed from the door and key readings. -/
def State.serviceEnabled (s : State) : Bool := s.comp.door = .opened && s.comp.key ≠ .locked

/-- R49, R52: whether a collect cycle is in flight whose recorded generation differs from the current one. -/
def State.lateCycle (s : State) : Bool :=
  match s.coin.cycle with
  | .collectStarted generation _ _ _ => generation ≠ s.comp.generation
  | _ => false

/-- R47: the closure digit. -/
def closureDigit (forced merged : Bool) : Nat :=
  match forced, merged with
  | false, false => 1
  | true, false => 2
  | false, true => 3
  | true, true => 4

/-! ## The line -/

/-- The line's owner (section 7.1). -/
def State.lineOwner (s : State) : Option LineOwner := s.line.call.map LineCall.owner

/-- Section 7.1: the states in which a line call stands. -/
def LineState.seized : LineState → Bool
  | .free | .releasing => false
  | .seizing | .awaitDialTone | .dialling | .awaitAnswer | .connected => true

/-- Section 7.1: whether the loop is driven closed: in the seized states, but for each pulse's break (R119). -/
def State.loopClosed (s : State) : Bool :=
  s.line.state.seized &&
    !(s.line.state = .dialling && (match s.line.phase with
      | .pulseBreak _ => true
      | _ => false))

/-- R122: the milliseconds since the sending of a tone string began. -/
def ToneString.elapsed (now : Nat) (t : ToneString) : Nat :=
  now + t.symbols.length * (Config.toneMs + Config.silenceMs) - t.sentAt

/-- R118, R122: the position in a tone string: the symbols whose silence has ended. -/
def ToneString.position (now : Nat) (t : ToneString) : Nat :=
  min t.symbols.length (t.elapsed now / (Config.toneMs + Config.silenceMs))

/-- R118, R122: the part of a symbol's sending that a tone string is in. -/
def ToneString.phase (now : Nat) (t : ToneString) : DialPhase :=
  if t.position now = t.symbols.length then .sent
  else if t.elapsed now % (Config.toneMs + Config.silenceMs) < Config.toneMs then .tone
  else .silence

/-- R118, R122: the symbol whose tone the line controller drives at this instant, in DIALLING under TONE and in the sending of a
tone string; none in a symbol's silence and where none is sent. -/
def State.symbolTone (s : State) : Option Symbol :=
  match s.line.state with
  | .dialling => match s.line.phase, s.line.call with
    | .tone, some c => c.request.dialString[c.position]?
    | _, _ => none
  | .connected => match s.line.sending with
    | some t => if t.phase s.now = .tone then t.symbols[t.position s.now]? else none
    | none => none
  | .free | .seizing | .awaitDialTone | .awaitAnswer | .releasing => none

/-! ## The session, the lamp and the tones -/

/-- R168: the "coins not accepted" lamp. -/
def State.lampLit (s : State) : Bool := s.sup.level ≠ .full

/-- R103: whether the rating unit has the warning tone played. -/
def Rating.warningPlaying (r : Rating) : Bool :=
  match r.context with
  | .rated _ c => match c.warning with
    | some w => w.playing
    | none => false
  | _ => false

/-- R133: the local tone. -/
def State.localTone (s : State) : Option LocalTone :=
  match s.session.state with
  | .dialWait => some (if s.sup.level = .closed then .reorder else .dial)
  | .awaitCredit => some .creditPrompt
  | .connected => if s.rating.warningPlaying then some .warning else none
  | .ended => some (match s.session.endTone with
    | .reorder => .reorder
    | .busy => .busy)
  | .idle | .collecting | .placing | .ringing | .clearing => none

/-- Section 8.4: a tone's cadence, as its on part and its off part in milliseconds; DIAL is continuous. -/
def LocalTone.cadence : LocalTone → Option (Nat × Nat)
  | .dial => none
  | .creditPrompt => some (200, 800)
  | .reorder => some (250, 250)
  | .busy => some (500, 500)
  | .warning => some (100, 900)

/-- R133: whether a tone sounds so many milliseconds after its start: its cadence begins at its on part. -/
def LocalTone.soundsAfter (elapsed : Nat) (tone : LocalTone) : Bool :=
  match tone.cadence with
  | none => true
  | some (on, off) => elapsed % (on + off) < on

/-- R133: the instant at which the local tone started: the entry of the session state, in DIAL_WAIT a later change of the
service level, and in CONNECTED the tone start of the warning. -/
def State.toneStarted (s : State) : Nat :=
  match s.session.state, s.rating.context with
  | .dialWait, _ => max s.session.toneSince s.sup.levelSince
  | .connected, .rated _ c => (c.warning.map Warning.toneStart).getD s.session.toneSince
  | _, _ => s.session.toneSince

/-- R133: whether the handset's receiver sounds a local tone at this instant. -/
def State.toneSounding (s : State) : Bool := s.localTone.any (LocalTone.soundsAfter (s.now - s.toneStarted))

/-- Whether the session holds a call (section 8.1). -/
def SessionState.holdsCall : SessionState → Bool
  | .awaitCredit | .placing | .ringing | .connected => true
  | .idle | .dialWait | .collecting | .ended | .clearing => false

/-- R137: whether a service level allows a category. -/
def ServiceLevel.allows : ServiceLevel → Category → Bool
  | _, .blocked => false
  | .full, _ => true
  | .freeOnly, .free | .freeOnly, .emergency => true
  | .freeOnly, .charged => false
  | .emergencyOnly, .emergency => true
  | .emergencyOnly, _ => false
  | .closed, _ => false

/-- R146: whether a call in progress of a category continues at a new level. -/
def ServiceLevel.continues : ServiceLevel → Category → Bool
  | .full, _ | .freeOnly, _ => true
  | .emergencyOnly, c => c = .emergency
  | .closed, _ => false

/-- Whole seconds from now to an instant, parts of a second dropped. DESIGN CHOICE (log entry 43): R110, R148 and R184 do not say
which way the seconds remaining are rounded. -/
def State.secondsTo (s : State) (t : Nat) : Nat := (t - s.now) / Config.secondMs

end Sys2Proof.Machine
end

