-- ==== Sys2Proof/Machine/Calls.lean ====
section
/-! DEFINITION. What every ending of a call is made of (R142): closing the rating context (R90, R108), releasing the line
(R123), releasing the pin (R67), the call event record (R147); and the service level's hold on the session (R139, R146). -/

namespace Sys2Proof.Machine

/-! ## The rating context's end -/

/-- R106: the summary of a call. -/
def CallInfo.summary (call : CallInfo) (duration steps total : Nat) : CallSummary :=
  { number := call.number, symbols := call.symbols, slot := call.slot, category := call.category, duration := duration,
    steps := steps, total := total, flags := call.flags }

/-- R108: a context that was answered closed: the summary written, the flags added to the accrued flags. -/
def Rating.close (summary : CallSummary) (r : Rating) : Rating :=
  { r with context := .empty, summary := some summary, accrued := r.accrued.union summary.flags }

/-- R90, R108: the rating context closed at an instant; an unanswered call leaves nothing. -/
def Rating.endCall (now : Nat) (r : Rating) : Rating :=
  match r.context with
  | .empty => r
  | .placed _ => { r with context := .empty }
  | .rated call c => r.close (call.summary (min top32 ((now - c.answeredAt) / Config.secondMs)) c.steps c.total)
  | .unrated call answeredAt => r.close (call.summary (min top32 ((now - answeredAt) / Config.secondMs)) 0 0)

/-! ## The line's release -/

/-- R123: a release: the loop opens, the ownership ends, and the release guard begins. -/
def Line.release (now : Nat) (l : Line) : Line :=
  { l with state := .releasing, call := none, deadline := now + Config.releaseGuardMs, presumedEnds := none, phase := .sent,
           sending := none }

/-- R123: a release asked by an owner: obeyed where the requester owns the line, and otherwise nothing. -/
def State.askRelease (owner : LineOwner) (s : State) : State :=
  if s.lineOwner = some owner ∧ s.line.state.seized then s.setLine (s.line.release s.now) else s

/-- R112: a requester's waiting request withdrawn. -/
def State.withdrawRequest (owner : LineOwner) (s : State) : State :=
  match owner with
  | .session => s.setLine { s.line with sessionRequest := none }
  | .report => s.setLine { s.line with reportRequest := none }

/-! ## Call events -/

/-- R147: a call event recorded. -/
def State.recordEvent (event : CallEvent) (slot : Option Nat) (category : Option Category) (threshold callNumber : Option Nat)
    (s : State) : State :=
  (s.setSession
    { s.session with
      event := some { event := event, symbols := s.session.buffer, slot := slot, category := category,
                      threshold := threshold, callNumber := callNumber }
      eventCount := wrapInc top16 s.session.eventCount }).raise .callEvent

/-! ## The end of a call -/

/-- R142: steps 1 to 4 of ending the call held, with a cause. Where no call is held nothing happens. -/
def State.endCall (cause : EndCause) (s : State) : State :=
  match s.session.decision with
  | none => s
  | some d =>
    let number := if s.session.state = .awaitCredit then none else some s.rating.callNumber
    let s₁ := s.setRating (s.rating.endCall s.now)
    let s₂ := (s₁.withdrawRequest .session).askRelease .session
    let s₃ := s₂.setTariff (s₂.tariff.releasePin d.slot)
    let s₄ := s₃.setSession { s₃.session with decision := none, threshold := none }
    s₄.recordEvent (.ended cause) (some d.slot) (some d.category) none number

/-- R133, R142, R143: the session enters ENDED with an end tone, which starts; no session timer runs there. -/
def State.enterEnded (tone : EndTone) (s : State) : State :=
  s.setSession { s.session with state := .ended, endTone := tone, toneSince := s.now, timer := none }

/-- R142: the end tone a cause gives. -/
def EndCause.tone : EndCause → EndTone
  | .busy => .busy
  | _ => .reorder

/-- R142: the call held ended with a cause whose next state is ENDED. -/
def State.endCallToEnded (cause : EndCause) (s : State) : State := (s.endCall cause).enterEnded cause.tone

/-! ## The service level -/

/-- R167: the more restrictive of two levels. -/
def ServiceLevel.meet : ServiceLevel → ServiceLevel → ServiceLevel
  | .closed, _ | _, .closed => .closed
  | .emergencyOnly, _ | _, .emergencyOnly => .emergencyOnly
  | .freeOnly, _ | _, .freeOnly => .freeOnly
  | .full, .full => .full

/-- R167: the restriction of a record, by its type; an input's type takes the restriction of the assignment in effect. -/
def Supervision.restriction (v : Supervision) (src : Source) (r : ConditionRecord) : ServiceLevel :=
  match r.type with
  | .coinPathJam | .gateJam | .slotBlocked | .returnBlocked | .cashboxFull | .compartmentForced => .freeOnly
  | .lineDown => .closed
  | .cashboxNearFull | .keypadStuck | .noDialTone | .retentionLost | .clockUnset | .cashboxCollected => .full
  | .ofInput _ => match src with
    | .input i => v.inputs[i].assignment.restriction
    | _ => .full

/-- R167: what a source's record restricts: nothing where it has none, or a CLEARED one. -/
def Supervision.sourceLevel (v : Supervision) (src : Source) : ServiceLevel :=
  match v.records[src.idx] with
  | none => .full
  | some r => if r.active then v.restriction src r else .full

/-- R167: the level the active records give. -/
def Supervision.derivedLevel (v : Supervision) : ServiceLevel :=
  Source.all.foldl (fun level src => level.meet (v.sourceLevel src)) .full

/-- R139, R146: the session judges the call it holds against a new level. -/
def State.judgeLevel (level : ServiceLevel) (s : State) : State :=
  match s.session.state, s.session.decision with
  | .awaitCredit, some _ => if level = .full then s else s.endCallToEnded .levelDrop
  | .placing, some d | .ringing, some d | .connected, some d =>
    if level.continues d.category then s else s.endCallToEnded .levelDrop
  | _, _ => s

/-- R167, R168: the level derived afresh; where it differs from the one held, the new one is held, LEVEL_CHANGED is set and
the session judges its call. (The coin path and the lamp follow the level held: R1, `State.lampLit`.) -/
def State.deriveLevel (s : State) : State :=
  let level := s.sup.derivedLevel
  if level = s.sup.level then s
  else ((s.setSup { s.sup with level := level, levelSince := s.now }).raise .levelChanged).judgeLevel level

end Sys2Proof.Machine
end

