-- ==== Sys2Proof/Machine/Conditions.lean ====
section
/-! DEFINITION. The condition table (chapter 9): occurrences, normality, clearing, retirement and active seconds; and the
report unit's schedule, which an occurrence stirs (R172, R173). -/

namespace Sys2Proof.Machine

/-! ## The retry timer and the triggers -/

/-- R172: the retry timer given a delay: running from now, or held from the start while the session is out of IDLE. -/
def State.timerOf (s : State) (delay : Nat) : RetryTimer :=
  if s.session.state = .idle then .running (s.now + delay) else .held delay

/-- The report unit in SCHEDULED with a delay. -/
def State.schedule (delay : Nat) (s : State) : State :=
  s.setReport { s.report with state := .scheduled, timer := some (s.timerOf delay) }

/-- R173, R174: SCHEDULED with delay 0 and attempt count 0. -/
def State.scheduleNow (s : State) : State := (s.setReport { s.report with attempts := 0 }).schedule 0

/-- R172: the timer stops with the delay it has left, at the session's departure from IDLE. -/
def RetryTimer.hold (now : Nat) : RetryTimer → RetryTimer
  | .running t => .held (t - now)
  | x => x

/-- R172: the timer runs on from there, at the session's return to IDLE. -/
def RetryTimer.resume (now : Nat) : RetryTimer → RetryTimer
  | .held left => .running (now + left)
  | x => x

/-- R173: an occurrence's severity taken by the report unit. -/
def State.reportTrigger (severity : Severity) (s : State) : State :=
  match severity, s.report.state with
  | .alarm, .idle | .alarm, .scheduled | .alarm, .deferred => s.scheduleNow
  | .alarm, _ => s.setReport { s.report with renewal := true }
  | .fault, .idle => s.schedule Config.faultDelayMs
  | .fault, _ => s
  | .notice, _ => s

/-! ## Records -/

/-- A source's record replaced, or removed. -/
def State.putRecord (src : Source) (r : Option ConditionRecord) (s : State) : State :=
  s.setSup { s.sup with records := s.sup.records.set src.idx r }

/-- R166: whether the active seconds of a source's record are now counted: while an input's qualified reading is active, or
while any other source is abnormal. -/
def State.counting (s : State) (src : Source) : Bool :=
  match src with
  | .input i => s.sup.inputs[i].active
  | src => !s.normal src

/-- R166: a record's count of active time started or ended, as it is now to be counted or not. -/
def ConditionRecord.recount (now : Nat) (counting : Bool) (r : ConditionRecord) : ConditionRecord :=
  match r.activeSince with
  | none => if counting then { r with activeSince := some now } else r
  | some t => if counting then r else { r with activeMs := r.activeMs + (now - t), activeSince := none }

/-- R166: a source's record recounted. -/
def State.recount (src : Source) (s : State) : State :=
  match s.record src with
  | none => s
  | some r => s.putRecord src (some (r.recount s.now (s.counting src)))

/-- R166: the active seconds of a record, saturating. -/
def ConditionRecord.activeSeconds (now : Nat) (r : ConditionRecord) : Nat :=
  let running := match r.activeSince with
    | none => 0
    | some t => now - t
  min top16 ((r.activeMs + running) / Config.secondMs)

/-- R165, R169: a source's record retired: it leaves the table. -/
def State.retire (src : Source) (s : State) : State := ((s.putRecord src none).raise .conditionChanged).deriveLevel

/-- R165: a CLEARED record whose enable is off is retired, unless it is in report. -/
def State.retireIfDue (src : Source) (s : State) : State :=
  match s.record src with
  | none => s
  | some r =>
    if r.state = .cleared ∧ s.reportEnabled src = false ∧ r.snapshot = none then s.retire src else s

/-- R162, R163: a record becomes CLEARED: its last-change time, CONDITION_CHANGED and the service level follow. -/
def State.clearRecord (src : Source) (s : State) : State :=
  match s.record src with
  | none => s
  | some r =>
    (((s.putRecord src (some { r with state := .cleared, lastChange := s.clock.time })).raise
      .conditionChanged).deriveLevel).retireIfDue src

/-- R162: an unlatched record that is active while its source is normal becomes CLEARED. -/
def State.clearIfNormal (src : Source) (s : State) : State :=
  match s.record src with
  | none => s
  | some r => if r.active ∧ latched src r = false ∧ s.normal src then s.clearRecord src else s

/-- R161: an occurrence taken by a record. -/
def ConditionRecord.occur (type : ConditionType) (severity : Severity) (now : ClockTime) (r : ConditionRecord) :
    ConditionRecord :=
  { r with
    type := type
    severity := severity
    state := .raised
    lastChange := now
    count := if r.count < 255 then r.count + 1 else 255
    acked := if r.count < 255 then r.acked else min r.acked 254 }

/-- R160: the record an occurrence creates. -/
def ConditionRecord.create (type : ConditionType) (severity : Severity) (now : ClockTime) : ConditionRecord :=
  { type := type, severity := severity, state := .raised, firstRaised := now, lastChange := now, count := 1, acked := 0,
    activeMs := 0, activeSince := none, snapshot := none }

/-- R160, R161: the record's part of an occurrence, with CONDITION_CHANGED. -/
def State.recordOccurrence (src : Source) (type : ConditionType) (severity : Severity) (s : State) : State :=
  let r := match s.record src with
    | none => ConditionRecord.create type severity s.clock.time
    | some r => r.occur type severity s.clock.time
  ((s.putRecord src (some r)).recount src).raise .conditionChanged

/-- R161: an occurrence on a source: recorded, handed to the report unit, the service level derived, and an unlatched
record whose source is normal cleared at once. -/
def State.occurrence (src : Source) (type : ConditionType) (severity : Severity) (s : State) : State :=
  ((((s.recordOccurrence src type severity).reportTrigger severity).deriveLevel)).clearIfNormal src

/-! ## Normality -/

/-- A source's normality as its owner reports it, with the active seconds that follow it (R166). -/
def State.setNormality (src : Source) (abnormal : Bool) (s : State) : State :=
  (s.setSup { s.sup with abnormal := s.sup.abnormal.set src.idx abnormal }).recount src

/-- R162: a source reported abnormal. -/
def State.makeAbnormal (src : Source) (s : State) : State := s.setNormality src true

/-- R162: a source reported normal; an unlatched active record of it becomes CLEARED. -/
def State.makeNormal (src : Source) (s : State) : State := (s.setNormality src false).clearIfNormal src

/-- R117, R125, R132, R46: an owner raises its occurrence at the instant its source becomes abnormal. -/
def State.becomeAbnormal (src : Source) (type : ConditionType) (severity : Severity) (s : State) : State :=
  (s.makeAbnormal src).occurrence src type severity

end Sys2Proof.Machine
end

