-- ==== Sys2Proof/Machine/Tallies.lean ====
section
/-! DEFINITION. The tallies (chapter 3): counting coins and sums, the thresholds, closure and merging at a removal, the
late coin, and the release of the closed tally with its COLLECTION record. -/

namespace Sys2Proof.Machine

/-! ## Figures -/

/-- R44: a collected coin counted. -/
def Tally.addCollected (cls : Option (Fin 16)) (value : Nat) (t : Tally) : Tally :=
  { t with
    counts := match cls with
      | some c => t.counts.set c (satAdd top16 t.counts[c] 1)
      | none => t.counts
    totalCoins := satAdd top16 t.totalCoins 1
    totalValue := satAdd top32 t.totalValue value }

/-- R44: an uncredited coin counted. -/
def Tally.addUncredited (t : Tally) : Tally :=
  { t with uncredited := satAdd top16 t.uncredited 1, totalCoins := satAdd top16 t.totalCoins 1 }

/-- R44: a held coin that reached the cashbox counted, as collected when it is CREDITED and as uncredited otherwise. -/
def Tally.addHeld (c : HeldCoin) (t : Tally) : Tally :=
  match c.tag with
  | .credited => t.addCollected c.cls c.value
  | .unvalued | .orphan => t.addUncredited

/-- R48: two tallies added figure by figure, each figure saturating. -/
def Tally.merge (a b : Tally) : Tally :=
  { counts := Vector.ofFn (fun c => satAdd top16 a.counts[c] b.counts[c])
    totalCoins := satAdd top16 a.totalCoins b.totalCoins
    totalValue := satAdd top32 a.totalValue b.totalValue
    uncredited := satAdd top16 a.uncredited b.uncredited
    forfeit := satAdd top32 a.forfeit b.forfeit
    unrecovered := satAdd top32 a.unrecovered b.unrecovered
    refundedAtRestart := satAdd top16 a.refundedAtRestart b.refundedAtRestart }

/-- The current tally replaced. -/
def State.setCurrent (t : Tally) (s : State) : State := s.setComp { s.comp with current := t }

/-- R45: money given up added to the current tally's forfeit sum. -/
def State.addForfeit (amount : Nat) (s : State) : State :=
  s.setCurrent { s.comp.current with forfeit := satAdd top32 s.comp.current.forfeit amount }

/-- R45: a charge written off added to the current tally's unrecovered sum. -/
def State.addUnrecovered (amount : Nat) (s : State) : State :=
  s.setCurrent { s.comp.current with unrecovered := satAdd top32 s.comp.current.unrecovered amount }

/-! ## Thresholds (R46) -/

/-- R46: one threshold source judged: it becomes abnormal with its occurrence, or normal, when the comparison says so. -/
def State.judgeThreshold (src : Source) (type : ConditionType) (severity : Severity) (reached : Bool) (s : State) : State :=
  if reached then (if s.normal src then s.becomeAbnormal src type severity else s)
  else if s.normal src then s
  else s.makeNormal src

/-- R46: the current tally's total coins compared with each threshold, near first. -/
def State.judgeThresholds (s : State) : State :=
  let s₁ := s.judgeThreshold .cashboxNear .cashboxNearFull .notice (s.settings.near ≤ s.comp.current.totalCoins)
  s₁.judgeThreshold .cashboxFull .cashboxFull .fault (s₁.settings.full ≤ s₁.comp.current.totalCoins)

/-- R44, R46: an overflow coin counted in the current tally. -/
def State.countOverflow (cls : Fin 16) (value : Nat) (s : State) : State :=
  (s.setCurrent (s.comp.current.addCollected (some cls) value)).judgeThresholds

/-- R44, R46: an unexpected coin counted in the current tally. -/
def State.countUnexpected (s : State) : State := (s.setCurrent s.comp.current.addUncredited).judgeThresholds

/-- R49: a collect cycle's coin counted in the tally of the generation the cycle recorded. A late coin changes the closed
tally: its changed mark is set, a release withheld behind the cycle is dropped (R53), and COLLECTION takes an occurrence. -/
def State.countCollected (generation : Nat) (c : HeldCoin) (s : State) : State :=
  if generation = s.comp.generation then (s.setCurrent (s.comp.current.addHeld c)).judgeThresholds
  else
    match s.comp.closedTally with
    | none => (s.setCurrent (s.comp.current.addHeld c)).judgeThresholds
    | some t =>
      (s.setComp { s.comp with
        closedTally := some { t with figures := t.figures.addHeld c, changed := true, withheld := false } }).occurrence
        .collection .cashboxCollected .notice

/-! ## Closure and release -/

/-- R47, R48: the closed tally that a closure leaves: the current tally, or the one held with the current merged in. -/
def Compartment.closure (forced : Bool) (c : Compartment) : ClosedTally :=
  match c.closedTally with
  | none => { figures := c.current, forced := forced, merged := false, changed := false, withheld := false }
  | some t =>
    { figures := t.figures.merge c.current, forced := t.forced || forced, merged := true, changed := true,
      withheld := false }

/-- R47: the tallies and the generation at a closure (steps 2 and 3). -/
def Compartment.close (forced : Bool) (c : Compartment) : Compartment :=
  { c with closedTally := some (c.closure forced), current := .zero, generation := wrapInc top16 c.generation }

/-- R51, R53: the closed tally released and the COLLECTION record retired at the same instant. -/
def State.releaseClosedTally (s : State) : State :=
  ((s.setComp { s.comp with closedTally := none }).retire .collection).setNormality .collection false

/-- R53: a late cycle has timed out: a release withheld behind it takes effect when the changed mark is still clear, and is
dropped otherwise. -/
def State.resolveWithheld (generation : Nat) (s : State) : State :=
  match s.comp.closedTally with
  | none => s
  | some t =>
    if generation ≠ s.comp.generation ∧ t.withheld then
      if t.changed then s.setComp { s.comp with closedTally := some { t with withheld := false } }
      else s.releaseClosedTally
    else s

end Sys2Proof.Machine
end

