-- ==== Sys2Proof/Machine/CreditOps.lean ====
section
/-! DEFINITION. The credit unit's shared work (chapter 2): value reaching B, write-off, settlement and the collect request,
charges; and the rating unit's look ahead (R102 to R104), which follows credit. -/

namespace Sys2Proof.Machine

/-! ## Value reaching B -/

/-- R22, R35: an amount added to B; what passes 65535 is forfeited, and with no session open the whole amount is. -/
def State.addBanked (amount : Nat) (s : State) : State :=
  match s.credit.account with
  | .notOpen => s.addForfeit amount
  | .inSession | .closing =>
    let excess := s.credit.banked + amount - top16
    (s.setCredit { s.credit with
      banked := min top16 (s.credit.banked + amount)
      sessionForfeit := satAdd top32 s.credit.sessionForfeit excess }).addForfeit excess

/-! ## Write-off -/

/-- R33: UNRECOVERED placed for a call: in its open context, or in the accrued flags and in the summary that is its own. -/
def Rating.placeUnrecovered (number : Nat) (r : Rating) : Rating :=
  let late : Rating :=
    { r with
      accrued := { r.accrued with unrecovered := true }
      summary := r.summary.map (fun m =>
        if m.number = number then { m with flags := { m.flags with unrecovered := true } } else m) }
  match r.context with
  | .empty => late
  | .placed c =>
    if c.number = number then { r with context := .placed { c with flags := { c.flags with unrecovered := true } } } else late
  | .rated c d =>
    if c.number = number then { r with context := .rated { c with flags := { c.flags with unrecovered := true } } d } else late
  | .unrated c t =>
    if c.number = number then { r with context := .unrated { c with flags := { c.flags with unrecovered := true } } t } else late

/-- R32: one entry's amount added to the unrecovered sum and its flag handed to the rating unit. -/
def State.writeOffEntry (e : OwedEntry) (s : State) : State :=
  (s.addUnrecovered e.amount).setRating (s.rating.placeUnrecovered e.call)

/-- R32: the whole owed list written off, in list order. -/
def State.writeOff (s : State) : State :=
  let s₁ := s.credit.owed.foldl (fun s e => s.writeOffEntry e) s
  s₁.setCredit { s₁.credit with owed := [] }

/-! ## Settlement -/

/-- R26 step 1: B paid into the owed list, oldest first: what is left of both. -/
def payOwed : Nat → List OwedEntry → Nat × List OwedEntry
  | b, [] => (b, [])
  | b, e :: rest =>
    if e.amount ≤ b then payOwed (b - e.amount) rest
    else (0, { e with amount := e.amount - b } :: rest)

/-- R11: whether a collect request is accepted. -/
def State.collectCanStart (s : State) : Bool :=
  !s.gateInhibited .collect && s.comp.presence = .present && s.coin.column ≠ [] && !s.coin.refundInFlight

/-- R11, R27: a collect request: accepted, a collect cycle is in flight, held back until it starts (R12); answered cannot
start, the owed list is written off. -/
def State.requestCollect (s : State) : State :=
  if s.coin.collectInFlight then s
  else if s.collectCanStart then s.setCoin { s.coin with cycle := .collectHeld }
  else s.writeOff

/-- R26: settlement. -/
def State.settle (s : State) : State :=
  let paid := payOwed s.credit.banked s.credit.owed
  let s₁ := s.setCredit { s.credit with banked := paid.1, owed := paid.2 }
  if paid.2 = [] then s₁
  else if s₁.coin.collectInFlight then s₁
  else if s₁.collectable = false ∨ s₁.coin.column = [] then s₁.writeOff
  else s₁.requestCollect

/-- R25: a charge put on the owed list: on the newest entry when it is the same call's. -/
def joinOwed (call charge : Nat) : List OwedEntry → List OwedEntry
  | [] => [⟨call, charge⟩]
  | [e] => if e.call = call then [{ e with amount := e.amount + charge }] else [e, ⟨call, charge⟩]
  | e :: rest => e :: joinOwed call charge rest

/-- R25: the newest entry of the owed list is a call's. -/
def newestIsOf (call : Nat) (owed : List OwedEntry) : Bool :=
  match owed.getLast? with
  | some e => e.call = call
  | none => false

/-- R25: when a new entry needs room in a full list, the oldest entry is written off. -/
def State.makeRoom (call : Nat) (s : State) : State :=
  if Config.owedMax ≤ s.credit.owed.length ∧ newestIsOf call s.credit.owed = false then
    match s.credit.owed with
    | [] => s
    | e :: rest => (s.writeOffEntry e).setCredit { s.credit with owed := rest }
  else s

/-- R25: a charge taken for a call, and settlement. -/
def State.takeCharge (call charge : Nat) (s : State) : State :=
  if charge = 0 then s
  else
    let s₁ := s.makeRoom call
    (s₁.setCredit { s₁.credit with owed := joinOwed call charge s₁.credit.owed }).settle

/-! ## The look ahead (R102 to R104) -/

/-- R102: the warning that a computation leaves, and whether it has just become active for the boundary. -/
def nextWarning (now lead boundary : Nat) (unpayable : Bool) (w : Option Warning) : Option Warning × Bool :=
  if unpayable then
    let toneStart := max now (boundary - lead)
    let fresh : Warning := { boundary := boundary, toneStart := toneStart, playing := toneStart = now }
    match w with
    | some old => if old.boundary = boundary then (some old, false) else (some fresh, true)
    | none => (some fresh, true)
  else (none, false)

/-- R102, R103, R104: the warning computation of a RATED context at the band now read, with the runway. -/
def State.lookAhead (s : State) : State :=
  match s.rating.context with
  | .rated call c =>
    let content := s.tariff.contentOf call.slot
    let amount := content.stepAmount s.clock.band
    let unpayable := s.available < (stepCharge c.rounding c.acc amount).charge
    let warn := nextWarning s.now (s.settings.warningLead * Config.secondMs) c.nextBoundary unpayable c.warning
    let runway := runwayOf c.rounding c.acc amount s.available content.period (s.secondsTo c.nextBoundary)
    let call := { call with flags := { call.flags with runwaySaturated := call.flags.runwaySaturated || runway.2 } }
    let s₁ := s.setRating { s.rating with context := .rated call { c with warning := warn.1, runway := runway.1 } }
    if warn.2 then s₁.raise .creditLow else s₁
  | _ => s

end Sys2Proof.Machine
end

