-- ==== Sys2Proof/Machine/LineOps.lean ====
section
/-! DEFINITION. The line controller's shared work (chapter 7): requests, the grant, the phases of out-dialling, tone strings,
and the dial-tone failure streak. -/

namespace Sys2Proof.Machine

/-! ## Requests and the grant -/

/-- R112: whether a method can send a string. -/
def diallable (method : DialMethod) (s : List Symbol) : Bool := !(method = .pulse && holdsStarOrHash s)

/-- R121: the answer limit of a requester, in seconds. -/
def LineOwner.answerLimit : LineOwner → Nat
  | .session => Config.sessionAnswerS
  | .report => Config.reportAnswerS

/-- R112: the request a requester makes, with the settings standing at that instant. -/
def Settings.lineRequest (st : Settings) (owner : LineOwner) (string : List Symbol) : LineRequest :=
  { dialString := string, method := st.method, answerMode := st.answerMode, presumedDelay := st.presumedDelay,
    answerLimit := owner.answerLimit }

/-- A requester's waiting request. -/
def Line.requestOf (l : Line) : LineOwner → Option LineRequest
  | .session => l.sessionRequest
  | .report => l.reportRequest

/-- A requester's request put in its place. -/
def Line.setRequest (l : Line) (r : LineRequest) : LineOwner → Line
  | .session => { l with sessionRequest := some r }
  | .report => { l with reportRequest := some r }

/-- R112: a line request queued. A second request of a requester that has one waiting or owns the line is the one it has. -/
def State.requestLine (owner : LineOwner) (string : List Symbol) (s : State) : State :=
  if (s.line.requestOf owner).isSome ∨ s.lineOwner = some owner then s
  else s.setLine (s.line.setRequest (s.settings.lineRequest owner string) owner)

/-- R113: the grant: the request becomes the line call, the loop closes, and the line is SEIZING. -/
def Line.grant (now : Nat) (owner : LineOwner) (r : LineRequest) (l : Line) : Line :=
  { l with
    state := .seizing
    call := some { owner := owner, request := r, position := 0 }
    deadline := now + Config.seizureMs
    presumedEnds := none
    phase := .sent
    sending := none
    sessionRequest := if owner = .session then none else l.sessionRequest
    reportRequest := if owner = .report then none else l.reportRequest }

/-- R113: what a grant is made to at an instant: the session's request, or the report unit's while the session is IDLE;
nothing unless the line is FREE and the LINE source normal. -/
def State.grantable (s : State) : Option (LineOwner × LineRequest) :=
  if s.line.state = .free ∧ s.normal .line then
    match s.line.sessionRequest, s.line.reportRequest with
    | some r, _ => some (.session, r)
    | none, some r => if s.session.state = .idle then some (.report, r) else none
    | none, none => none
  else none

/-! ## Out-dialling (R118, R119) -/

/-- R119: the pulses of a digit; `0` is ten. -/
def pulsesOf (k : Symbol) : Nat := if k = 0 then 10 else k.val

/-- R118, R119: the phase in which a symbol's sending begins. -/
def firstPhase (method : DialMethod) (k : Symbol) : DialPhase :=
  match method with
  | .tone => .tone
  | .pulse => .pulseBreak (pulsesOf k)

/-- R124: a pulse break, or the make that follows it: no absence of loop current is counted in them. -/
def DialPhase.pulsing : DialPhase → Bool
  | .pulseBreak _ | .pulseMake _ => true
  | .tone | .silence | .interDigit | .sent => false

/-- R118, R119: how long a phase lasts. -/
def DialPhase.duration : DialPhase → Nat
  | .tone => Config.toneMs
  | .silence => Config.silenceMs
  | .pulseBreak _ => Config.pulseBreakMs
  | .pulseMake _ => Config.pulseMakeMs
  | .interDigit => Config.interDigitMs
  | .sent => 0

/-- The phase after a symbol has been sent whole, with the position it leaves: the next symbol's first, after the pause of
PULSE, or `sent`. -/
def afterSymbol (method : DialMethod) (string : List Symbol) (position : Nat) : DialPhase :=
  match method, string.drop position with
  | _, [] => .sent
  | .tone, _ => .tone
  | .pulse, _ => .interDigit

/-- R118, R119: the phase and position after a phase has ended. -/
def DialPhase.next (method : DialMethod) (string : List Symbol) (position : Nat) : DialPhase → DialPhase × Nat
  | .tone => (.silence, position)
  | .silence => (afterSymbol method string (position + 1), position + 1)
  | .pulseBreak left => (.pulseMake left, position)
  | .pulseMake left =>
    if 1 < left then (.pulseBreak (left - 1), position) else (afterSymbol method string (position + 1), position + 1)
  | .interDigit =>
    match string.drop position with
    | [] => (.sent, position)
    | k :: _ => (firstPhase method k, position)
  | .sent => (.sent, position)

/-- R116: DIALLING entered, with the position at 0. -/
def Line.startDialling (now : Nat) (l : Line) : Line :=
  match l.call with
  | none => l
  | some c =>
    let phase := match c.request.dialString with
      | [] => .sent
      | k :: _ => firstPhase c.request.method k
    { l with state := .dialling, call := some { c with position := 0 }, phase := phase, phaseEnds := now + phase.duration }

/-- R118, R119: a timed point of out-dialling reached. -/
def Line.dialPoint (l : Line) : Line :=
  match l.call with
  | none => l
  | some c =>
    let n := l.phase.next c.request.method c.request.dialString c.position
    { l with call := some { c with position := n.2 }, phase := n.1, phaseEnds := l.phaseEnds + n.1.duration }

/-- The milliseconds a whole symbol takes. -/
def symbolMs (method : DialMethod) (k : Symbol) : Nat :=
  match method with
  | .tone => Config.toneMs + Config.silenceMs
  | .pulse => pulsesOf k * (Config.pulseBreakMs + Config.pulseMakeMs)

/-- The milliseconds of the symbols after the one in hand, with the pauses before them. -/
def laterMs (method : DialMethod) : List Symbol → Nat
  | [] => 0
  | k :: rest => (if method = .pulse then Config.interDigitMs else 0) + symbolMs method k + laterMs method rest

/-- R118, R119: the instant at which the dialling in progress ends. -/
def Line.diallingEnds (l : Line) : Nat :=
  match l.call with
  | none => l.phaseEnds
  | some c =>
    let method := c.request.method
    let rest := c.request.dialString.drop c.position
    l.phaseEnds +
      match l.phase with
      | .tone => Config.silenceMs + laterMs method (rest.drop 1)
      | .silence => laterMs method (rest.drop 1)
      | .pulseBreak left =>
        Config.pulseMakeMs + (left - 1) * (Config.pulseBreakMs + Config.pulseMakeMs) + laterMs method (rest.drop 1)
      | .pulseMake left => (left - 1) * (Config.pulseBreakMs + Config.pulseMakeMs) + laterMs method (rest.drop 1)
      | .interDigit =>
        (match rest with
          | [] => 0
          | k :: later => symbolMs method k + laterMs method later)
      | .sent => 0

/-- R121: AWAIT_ANSWER entered: the answer wait, and in PRESUMED mode the presumed delay. -/
def Line.awaitAnswer (now : Nat) (l : Line) : Line :=
  match l.call with
  | none => l
  | some c =>
    { l with
      state := .awaitAnswer
      call := some { c with position := c.request.dialString.length }
      phase := .sent
      deadline := now + c.request.answerLimit * Config.secondMs
      presumedEnds := if c.request.answerMode = .presumed then some (now + c.request.presumedDelay * Config.secondMs) else none }

/-- R121: the instant at which the presumed delay is the answer, where it runs: a delay longer than the answer limit cannot be
reached. -/
def Line.presumedAnswerAt (l : Line) : Option Nat := l.presumedEnds.filter (fun t => t ≤ l.deadline)

/-- R121: the instant at which the answer wait ends unanswered: none where the presumed delay answers before it. (Where both
end at one instant either may be taken.) -/
def Line.noAnswerAt (l : Line) : Option Nat :=
  if l.presumedEnds.any (fun t => t < l.deadline) then none else some l.deadline

/-- R121: CONNECTED entered at the answer. -/
def Line.answered (l : Line) : Line := { l with state := .connected, presumedEnds := none, sending := none }

/-- Whether a line call's answer mode is a given one. -/
def Line.modeIs (mode : AnswerMode) (l : Line) : Bool :=
  match l.call with
  | some c => c.request.answerMode = mode
  | none => false

/-! ## Tone strings (R122) -/

/-- R122: the owner asks for a tone string: sent in CONNECTED when none is being sent, and otherwise refused. -/
def State.sendTones (owner : LineOwner) (string : List Symbol) (s : State) : State :=
  if s.line.state = .connected ∧ s.lineOwner = some owner ∧ s.line.sending = none then
    s.setLine { s.line with
      sending := some ⟨string, s.now + string.length * (Config.toneMs + Config.silenceMs)⟩ }
  else s

/-! ## The dial-tone failure streak (R117) -/

/-- R117: a dial-tone failure counted; at 3, with the source normal, NO_DIAL_TONE is raised. -/
def State.countDialToneFailure (s : State) : State :=
  let streak := min 3 (s.line.streak + 1)
  let s₁ := s.setLine { s.line with streak := streak }
  if streak = 3 ∧ s₁.normal .dialtone then s₁.becomeAbnormal .dialtone .noDialTone .fault else s₁

end Sys2Proof.Machine
end

