-- ==== Sys2Proof/Machine/ReportOps.lean ====
section
/-! DEFINITION. The report unit's shared work (chapter 10): the snapshot and the report string, the attempt's beginning and
its ends, the application of an acknowledgement, and the state that follows an attempt. -/

namespace Sys2Proof.Machine

/-! ## The snapshot (R177) -/

/-- R177: severities in the order of choice. -/
def Severity.rank : Severity → Nat
  | .alarm => 0
  | .fault => 1
  | .notice => 2

/-- R177: whether a source's record is chosen before another's: by severity, then first-raised time, then source code. -/
def chosenBefore (a b : Source × ConditionRecord) : Bool :=
  let ka := a.2.firstRaised.key
  let kb := b.2.firstRaised.key
  a.2.severity.rank < b.2.severity.rank ||
    (a.2.severity.rank = b.2.severity.rank && (ka < kb || (ka = kb && a.1.code < b.1.code)))

/-- A source and its record put in their place in the order of choice. -/
def insertChosen (x : Source × ConditionRecord) : List (Source × ConditionRecord) → List (Source × ConditionRecord)
  | [] => [x]
  | y :: rest => if chosenBefore x y then x :: y :: rest else y :: insertChosen x rest

/-- R171: the outstanding records with their sources, in code order. -/
def State.outstandingRecords (s : State) : List (Source × ConditionRecord) :=
  Source.all.filterMap (fun src =>
    match s.record src with
    | some r => if s.outstanding src then some (src, r) else none
    | none => none)

/-- R177: the records a report includes: up to 8 of the outstanding ones, in the order of choice. -/
def State.includedRecords (s : State) : List (Source × ConditionRecord) :=
  (s.outstandingRecords.foldr insertChosen []).take Config.reportMax

/-- R177: the tally part: the closed tally's closure digit, total value and total coins. -/
def ClosedTally.part (t : ClosedTally) : TallyPart :=
  { closureDigit := closureDigit t.forced t.merged, totalValue := t.figures.totalValue, totalCoins := t.figures.totalCoins }

/-- R177: the report snapshot as it stands to be taken. -/
def State.reportSnapshot (s : State) : ReportSnapshot :=
  let included := s.includedRecords
  { clock := s.clock.time.toMinute
    station := s.settings.stationNumber
    records := included.map (fun x => ⟨x.1, x.2.state = .cleared, x.2.count⟩)
    tally := if included.any (fun x => x.1 = .collection) then s.comp.closedTally.map ClosedTally.part else none }

/-- R177: the snapshot's count and state digit placed on an included record. -/
def State.placeSnapshot (i : IncludedRecord) (s : State) : State :=
  match s.record i.source with
  | none => s
  | some r => s.putRecord i.source (some { r with snapshot := some ⟨i.count, i.clearedDigit⟩ })

/-- R177: taking the tally part clears the closed tally's changed mark. -/
def State.clearChangedMark (s : State) : State :=
  s.setComp { s.comp with closedTally := s.comp.closedTally.map (fun t => { t with changed := false }) }

/-! ## The report string (section 10.4) -/

/-- A number in `width` decimal digits, with leading zeros. -/
def decimalDigits : Nat → Nat → List Symbol
  | 0, _ => []
  | width + 1, n => decimalDigits width (n / 10) ++ [⟨n % 10, by omega⟩]

/-- One record group. -/
def IncludedRecord.group (i : IncludedRecord) : List Symbol :=
  Symbol.star :: decimalDigits 2 i.source.code ++ decimalDigits 1 (if i.clearedDigit then 2 else 1) ++ decimalDigits 3 i.count

/-- The tally group. -/
def TallyPart.group (t : TallyPart) : List Symbol :=
  [Symbol.star, 9, 9] ++ decimalDigits 1 t.closureDigit ++ decimalDigits 10 t.totalValue ++ decimalDigits 5 t.totalCoins

/-- The clock reading's ten digits, YYMMDDhhmm. -/
def MinuteTime.digits (t : MinuteTime) : List Symbol :=
  decimalDigits 2 (t.date.year - 2000) ++ decimalDigits 2 t.date.month ++ decimalDigits 2 t.date.day ++
    decimalDigits 2 t.hour ++ decimalDigits 2 t.minute

/-- The string from its opening up to the first `#`. -/
def ReportSnapshot.opening (r : ReportSnapshot) : List Symbol :=
  Symbol.star :: r.station ++ Symbol.star :: r.clock.digits ++ (r.records.map IncludedRecord.group).flatten ++
    (match r.tally with
      | some t => t.group
      | none => [])

/-- R178: the sum of the decimal digits of a string, `*` left out. -/
def digitSum (s : List Symbol) : Nat := ((s.filter (fun k => k.val < 10)).map Fin.val).sum

/-- R178: the check digit. -/
def checkDigit (s : List Symbol) : Nat := (10 - digitSum s % 10) % 10

/-- Section 10.4: the report string. -/
def ReportSnapshot.string (r : ReportSnapshot) : List Symbol :=
  r.opening ++ Symbol.hash :: decimalDigits 1 (checkDigit r.opening) ++ [Symbol.hash]

/-! ## After an attempt (R183) -/

/-- R183: the next state, by the outcome and the renewal mark; the mark is cleared on entering it. -/
def State.afterAttempt (s : State) : State :=
  let rep := s.report
  let cleared := { rep with renewal := false, outcome := none, replyEnds := none, snapshot := none, repeated := false, timer := none }
  let s₁ := s.setReport cleared
  match rep.outcome with
  | some .acknowledged => if s₁.anyOutstanding then s₁.schedule 0 else s₁.setReport { cleared with state := .idle }
  | some .failed =>
    if rep.renewal then s₁.scheduleNow
    else if rep.attempts < 5 then s₁.schedule (2 ^ rep.attempts * Config.minuteMs)
    else s₁.setReport { cleared with state := .deferred }
  | none => s

/-! ## The ends of an attempt -/

/-- R165, R180: the snapshot removed from a source's record; a CLEARED record whose enable is off is then retired. -/
def State.removeSnapshot (src : Source) (s : State) : State :=
  match s.record src with
  | none => s
  | some r =>
    match r.snapshot with
    | none => s
    | some _ => (s.putRecord src (some { r with snapshot := none })).retireIfDue src

/-- R180, R182, R185: the snapshot removed from every record in report. -/
def State.removeSnapshots (s : State) : State := Source.all.foldl (fun s src => s.removeSnapshot src) s

/-- R180: an attempt fails. With a line the unit enters RELEASING (and asks for the release, if it owns the line); without
one it passes at once to the next state. -/
def State.reportFail (withLine : Bool) (s : State) : State :=
  let s₁ := s.removeSnapshots
  let s₂ := s₁.setReport
    { s₁.report with attempts := min 5 (s₁.report.attempts + 1), snapshot := none, repeated := false, replyEnds := none,
                     outcome := some .failed }
  if withLine then
    let s₃ := s₂.askRelease .report
    s₃.setReport { s₃.report with state := .releasing }
  else s₂.afterAttempt

/-- R182: a preempted attempt: snapshots removed, SCHEDULED with delay 0, uncounted, the renewal mark cleared. -/
def State.reportPreempted (s : State) : State :=
  let s₁ := s.removeSnapshots
  (s₁.setReport { s₁.report with snapshot := none, repeated := false, replyEnds := none, renewal := false }).schedule 0

/-- R175, R176: WAIT_LINE entered: the renewal mark cleared and the line asked for, with the centre number as the dial
string; a refusal as UNDIALLABLE fails the attempt. -/
def State.enterWaitLine (s : State) : State :=
  let s₁ := s.setReport { s.report with state := .waitLine, timer := none, renewal := false }
  if diallable s.settings.method s.settings.centreNumber then s₁.requestLine .report s.settings.centreNumber
  else s₁.reportFail false

/-- R175, R190: an attempt begun with the retry timer expired and the line up: WAIT_LINE is entered, but with an empty centre
number the attempt fails at once. -/
def State.beginAttempt (s : State) : State :=
  if s.settings.centreNumber = [] then (s.setReport { s.report with timer := none }).reportFail false
  else s.enterWaitLine

/-- R175: the retry timer has expired in SCHEDULED: it waits for LINE while that is abnormal, unless the centre number is
empty. -/
def State.retryExpired (s : State) : State :=
  if s.settings.centreNumber = [] ∨ s.normal .line then s.beginAttempt
  else s.setReport { s.report with timer := some .waitingLine }

/-- R176, R177: the centre has answered: the snapshot is taken and placed on the records, and the string is sent. -/
def State.reportAnswered (s : State) : State :=
  if s.report.state = .calling then
    let snap := s.reportSnapshot
    let s₁ := snap.records.foldl (fun s i => s.placeSnapshot i) s
    let s₂ := if snap.tally.isSome then s₁.clearChangedMark else s₁
    let s₃ := s₂.setReport { s₂.report with state := .sending, snapshot := some snap, repeated := false, replyEnds := none }
    s₃.sendTones .report snap.string
  else s

/-- Whether the report unit's attempt holds the line: CALLING, SENDING or AWAIT_REPLY. -/
def ReportState.onLine : ReportState → Bool
  | .calling | .sending | .awaitReply => true
  | .idle | .scheduled | .deferred | .waitLine | .releasing => false

/-- R176, R177, R179: an end cause handed to the report unit fails the attempt. -/
def State.reportLineEnded (s : State) : State := if s.report.state.onLine then s.reportFail true else s

/-! ## The acknowledgement (R164, R181) -/

/-- R164: an acknowledgement taken by a record in report: none where the record is retired. The snapshot is removed. DESIGN CHOICE
(log entry 49): a record saturated at 255 that took an occurrence after a snapshot of 255 (R161) follows steps 1 and 3 of R164 and
becomes STANDING, though R164 also says that a record RAISED by such an occurrence stays RAISED. -/
def ConditionRecord.acknowledge (now : ClockTime) (snap : RecordSnapshot) (r : ConditionRecord) : Option ConditionRecord :=
  let acked := max r.acked (min snap.count r.count)
  if snap.clearedDigit ∧ r.state = .cleared ∧ r.count = snap.count then none
  else
    let state := if r.active ∧ acked = r.count then .standing else r.state
    some { r with
      acked := acked
      state := state
      lastChange := if acked = r.acked ∧ state = r.state then r.lastChange else now
      snapshot := none }

/-- R164: an acknowledgement applied to a source's record, with its flag and, where it retires the record, R165. -/
def State.ackRecord (src : Source) (s : State) : State :=
  match s.record src with
  | none => s
  | some r =>
    match r.snapshot with
    | none => s
    | some snap =>
      match r.acknowledge s.clock.time snap with
      | none => s.retire src
      | some r' =>
        let s₁ := s.putRecord src (some r')
        let s₂ := if r'.acked = r.acked ∧ r'.state = r.state then s₁ else s₁.raise .conditionChanged
        s₂.retireIfDue src

/-- R53: the COLLECTION record kept, its acknowledged count held below its occurrence count. -/
def ConditionRecord.keepOutstanding (now : ClockTime) (snap : RecordSnapshot) (r : ConditionRecord) : ConditionRecord :=
  let acked := max r.acked (min snap.count (r.count - 1))
  { r with acked := acked, lastChange := if acked = r.acked then r.lastChange else now, snapshot := none }

/-- R53, R181: an acknowledgement that included the COLLECTION record: the closed tally is released with its record, its
release is withheld behind a late cycle, or the tally is kept and the record stays outstanding. -/
def State.ackCollection (s : State) : State :=
  match s.record .collection with
  | none => s
  | some r =>
    match r.snapshot, s.comp.closedTally with
    | some snap, some t =>
      if r.count = snap.count ∧ t.changed = false then
        if s.lateCycle then
          (s.setComp { s.comp with closedTally := some { t with withheld := true } }).ackRecord .collection
        else s.releaseClosedTally
      else
        let r' := r.keepOutstanding s.clock.time snap
        let s₁ := s.putRecord .collection (some r')
        if r'.acked = r.acked then s₁ else s₁.raise .conditionChanged
    | _, _ => s.ackRecord .collection

/-- R181: an acknowledgement applied to one included record. -/
def State.ackIncluded (i : IncludedRecord) (s : State) : State :=
  if i.source = .collection then s.ackCollection else s.ackRecord i.source

/-- R181: the centre's ACK applied. -/
def State.applyAck (s : State) : State :=
  match s.report.snapshot with
  | none => s
  | some snap =>
    let s₁ := (snap.records.foldl (fun s i => s.ackIncluded i) s).raise .reportDone
    let s₂ := s₁.setReport
      { s₁.report with attempts := 0, snapshot := none, repeated := false, replyEnds := none, outcome := some .acknowledged }
    let s₃ := s₂.askRelease .report
    s₃.setReport { s₃.report with state := .releasing }

/-- R185: the report unit reset by STATION_INIT. -/
def State.resetReport (s : State) : State :=
  let s₁ := ((s.askRelease .report).withdrawRequest .report).removeSnapshots
  let s₂ := s₁.setReport ReportUnit.startUp
  if s₂.anyOutstanding then s₂.schedule (2 * Config.minuteMs) else s₂

end Sys2Proof.Machine
end

