-- ==== Sys2Proof/Machine/SessionOps.lean ====
section
/-! DEFINITION. The session controller's shared work (chapter 8) where it meets the coin path, credit, rating and the line:
refund requests, collect completion, new available credit, opening and ending the session, the decision and the placing,
the answer and the cutoff, and what the line controller hands over. -/

namespace Sys2Proof.Machine

/-! ## The supplies -/

/-- A command other than those of the supplies and of the running clock has its effect while the main supply is on, and
none while it is lost (log entry 6). -/
def State.whilePowered (work : State → State) (s : State) : State := if s.supplies.main then work s else s

/-! ## The coin path's shared steps -/

/-- R10: a refund request: merged into a waiting refund, or waiting itself with the pending transit entries noted. One that a
session end makes has not completed yet (R5). -/
def State.requestRefund (startUp ofSession : Bool) (s : State) : State :=
  match s.coin.waiting with
  | some w =>
    s.setCoin { s.coin with
      waiting := some ⟨w.startUp || startUp, w.ofSession || ofSession⟩
      sessionRefunded := s.coin.sessionRefunded && !ofSession }
  | none =>
    s.setCoin { s.coin with
      waiting := some ⟨startUp, ofSession⟩
      sessionRefunded := s.coin.sessionRefunded && !ofSession
      transit := s.coin.transit.map (fun e => { e with noted := true }) }

/-- R8, R4, R5: an unconfirmed coin counted in the streak; the third raises COIN_PATH_JAM and the streak becomes 0. -/
def State.countUnconfirmed (s : State) : State :=
  if s.coin.streak + 1 < 3 then s.setCoin { s.coin with streak := s.coin.streak + 1 }
  else (s.setCoin { s.coin with streak := 0 }).occurrence .coinPath .coinPathJam .fault

/-- R15, R17: every held coin retagged ORPHAN. -/
def State.orphanColumn (s : State) : State :=
  s.setCoin { s.coin with column := s.coin.column.map (fun c => { c with tag := .orphan }) }

/-- R13, R28, R29: a collect cycle that recorded a generation completes: the bottom coin leaves the column and is counted,
a CREDITED coin's value reaches B, and settlement runs with the cycle no longer in flight. -/
def State.completeCollect (generation : Nat) (s : State) : State :=
  match s.coin.column with
  | [] => (s.setCoin { s.coin with cycle := .idle }).settle
  | c :: rest =>
    let s₁ := (s.setCoin { s.coin with cycle := .idle, column := rest }).countCollected generation c
    if c.tag = .credited then (s₁.addBanked c.value).settle else s₁.settle

/-! ## Departures from IDLE and returns to it -/

/-- R114, R172, R182: the session's departure from IDLE: a report call that owns the line is preempted, and the retry timer
is held. -/
def State.departIdle (s : State) : State :=
  let s₁ :=
    if s.lineOwner = some .report ∧ s.line.state.seized then
      let s' := s.setLine (s.line.release s.now)
      if s'.report.state.onLine then s'.reportPreempted else s'
    else s
  s₁.setReport { s₁.report with timer := s₁.report.timer.map (RetryTimer.hold s.now) }

/-- R172: the session's return to IDLE: the retry timer runs on. -/
def State.returnIdle (s : State) : State :=
  s.setReport { s.report with timer := s.report.timer.map (RetryTimer.resume s.now) }

/-- R129, R133, R144: DIAL_WAIT entered with an empty buffer, the first-symbol timer, and its tone started. -/
def State.enterDialWait (s : State) : State :=
  s.setSession { s.session with
    state := .dialWait
    buffer := []
    toneSince := s.now
    timer := some ⟨.firstSymbol, s.now + Config.firstSymbolMs⟩ }

/-- R34: the credit unit opens the session. -/
def State.openAccount (s : State) : State := s.setCredit { s.credit with account := .inSession, sessionForfeit := 0 }

/-- R129: the session leaves IDLE for DIAL_WAIT. -/
def State.openSession (s : State) : State :=
  let s₁ := s.openAccount.enterDialWait
  let s₂ := s₁.setSession { s₁.session with decision := none, threshold := none }
  s₂.departIdle.recordEvent .opened none none none none

/-- R36: the session end taken by the credit unit: an open account begins its closing. -/
def State.closeAccount (s : State) : State :=
  if s.credit.account = .inSession then s.setCredit { s.credit with account := .closing } else s

/-- R130, R149: the session end, with a cause for any call held. -/
def State.endSession (cause : EndCause) (s : State) : State :=
  let s₁ := s.endCall cause
  let s₂ := s₁.setSession { s₁.session with state := .clearing, timer := none }
  s₂.closeAccount.requestRefund false true

/-! ## The decision and the placing -/

/-- R97: the credit threshold of a slot's record, at the band now read and the rounding resolved now. -/
def State.thresholdOf (slot : Nat) (s : State) : Nat :=
  let c := s.tariff.contentOf slot
  creditThreshold c s.clock.band (c.rounding.resolve s.settings.rounding)

/-- R89: the rating context opened for a decision. -/
def Rating.openContext (d : Decision) (r : Rating) : Rating :=
  { r with
    callNumber := wrapInc top16 r.callNumber
    context := .placed
      { number := wrapInc top16 r.callNumber, symbols := d.symbols, slot := d.slot, category := d.category,
        flags := { CallFlags.empty with defaultTariff := d.slot = 0 } } }

/-- R140: PLACING entered with a held decision; a refusal as UNDIALLABLE ends the call at once. -/
def State.place (d : Decision) (s : State) : State :=
  let s₁ := s.setSession { s.session with state := .placing, timer := none }
  let s₂ := s₁.setRating (s₁.rating.openContext d)
  let sendable := diallable s₂.settings.method d.symbols
  let s₃ := if sendable then s₂.requestLine .session d.symbols else s₂
  let s₄ := s₃.recordEvent .placed (some d.slot) (some d.category) none (some s₃.rating.callNumber)
  if sendable then s₄ else s₄.endCallToEnded .undiallable

/-- R133, R138: AWAIT_CREDIT entered with a held decision and its threshold, and its tone started. -/
def State.awaitCredit (d : Decision) (t : Nat) (s : State) : State :=
  let s₁ := s.setSession { s.session with
    state := .awaitCredit
    threshold := some t
    toneSince := s.now
    timer := some ⟨.creditWait, s.now + Config.creditWaitMs⟩ }
  s₁.recordEvent .awaitingCredit (some d.slot) (some d.category) (some t) none

/-- R135, R136, R137: a number refused: ENDED with REORDER, and REFUSED recorded. -/
def State.refuseNumber (cause : RefusalCause) (r : Option Chosen) (s : State) : State :=
  (s.enterEnded .reorder).recordEvent (.refused cause) (r.map Chosen.slot) (r.map (fun c => c.content.category)) none none

/-- R72: the decision handed over with a verdict of complete. -/
def Chosen.decision (symbols : List Symbol) (r : Chosen) : Decision :=
  { symbols := symbols, slot := r.slot, category := r.content.category, minCredit := r.content.minCredit,
    connection := r.content.connection }

/-- R137: a verdict of complete judged. -/
def State.judgeDecision (r : Chosen) (s : State) : State :=
  let d := r.decision s.session.buffer
  if s.sup.level.allows d.category then
    let s₁ := s.setTariff (s.tariff.pin d.slot)
    let s₂ := s₁.setSession { s₁.session with decision := some d, timer := none }
    if d.category = .charged then
      let t := s₂.thresholdOf d.slot
      if t ≤ s₂.available then s₂.place d else s₂.awaitCredit d t
    else s₂.place d
  else s.refuseNumber .notAllowed (some r)

/-- R135: a verdict taken in COLLECTING. -/
def State.takeVerdict (v : Verdict) (s : State) : State :=
  match v with
  | .continue => s
  | .refused cause r => s.refuseNumber cause (some r)
  | .complete r => s.judgeDecision r

/-! ## New available credit -/

/-- R138: a re-check in AWAIT_CREDIT: the threshold formed afresh and compared with available credit. -/
def State.recheck (s : State) : State :=
  match s.session.state, s.session.decision with
  | .awaitCredit, some d =>
    let t := s.thresholdOf d.slot
    let s₁ := s.setSession { s.session with threshold := some t }
    if t ≤ s₁.available then s₁.place d else s₁
  | _, _ => s

/-- R24: available credit handed on where it differs from what it was before the step: the rating unit looks ahead and the
session re-checks. -/
def State.handCredit (before : Nat) (s : State) : State :=
  if s.available = before then s else s.lookAhead.recheck

/-- A step's work, with the available credit it leaves handed on (R24). The hand-over comes last in the step (log entry 11).
DESIGN CHOICE (log entry 47) where one overflow coin both raises A to the threshold of a waiting number and fills the cashbox,
for the spec orders the re-check (R138) and the change of the service level (R46, R168) in no way; here the level change comes
first, and ends the waiting call with LEVEL_DROP. -/
def State.creditStep (work : State → State) (s : State) : State := (work s).handCredit s.available

/-! ## Cutoff and answer -/

/-- R101, R142: a call cut off: its context is closed and the session goes to ENDED. -/
def State.cutOff (s : State) : State :=
  let s₁ := s.setRating (s.rating.endCall s.now)
  if s₁.session.state.holdsCall then s₁.endCallToEnded .cutoff else s₁

/-- R98: the RATED context of a charged call at its answer, before it is charged. -/
def answeredContext (now : Nat) (rounding : Rounding) (band : Fin 4) : RatedCall :=
  { rounding := rounding, answeredAt := now, nextBoundary := now, acc := 0, lastBand := band, steps := 0, total := 0,
    warning := none, runway := 0 }

/-- R98 step 3, R100 step 4: the charge of a step entered in a RATED context: accumulator, flags, band, steps, total
(with what was charged besides) and the next boundary. -/
def enterStep (c : StepCharge) (besides : Nat) (band : Fin 4) (period : Nat) (call : CallInfo) (r : RatedCall) :
    RatingContext :=
  .rated { call with flags := call.flags.union (CallFlags.ofCharge r.rounding c) }
    { r with
      acc := c.acc
      lastBand := band
      steps := satAdd top32 r.steps 1
      total := satAdd top32 r.total (besides + c.charge)
      nextBoundary := r.nextBoundary + period * Config.secondMs }

/-- R98, R99: the answer taken by the rating unit, and whether the call is cut off at answer. -/
def State.rateAnswer (presumed : Bool) (s : State) : State × Bool :=
  match s.rating.context with
  | .placed call =>
    let call := { call with flags := { call.flags with presumedAnswer := call.flags.presumedAnswer || presumed } }
    if call.category = .charged then
      let content := s.tariff.contentOf call.slot
      let band := s.clock.band
      let rounding := content.rounding.resolve s.settings.rounding
      let fresh := answeredContext s.now rounding band
      let c := stepCharge rounding 0 (content.stepAmount band)
      if s.available < content.connection + c.charge then
        (s.setRating { s.rating with context := .rated call fresh }, true)
      else
        let s₁ := s.setRating { s.rating with context := enterStep c content.connection band content.period call fresh }
        (((s₁.takeCharge call.number content.connection).takeCharge call.number c.charge).lookAhead, false)
    else (s.setRating { s.rating with context := .unrated call s.now }, false)
  | _ => (s, false)

/-- R141: the answer taken by the session in PLACING or RINGING. -/
def State.sessionAnswered (presumed : Bool) (s : State) : State :=
  match s.session.state, s.session.decision with
  | .placing, some d | .ringing, some d =>
    let rated := (s.setSession { s.session with state := .connected }).rateAnswer presumed
    let s₁ := rated.1.recordEvent .answered (some d.slot) (some d.category) none (some rated.1.rating.callNumber)
    if rated.2 then s₁.cutOff else s₁
  | _, _ => s

/-! ## What the line controller hands over -/

/-- R123: the line controller ends the call itself: the release begins and the owner is handed the end cause. -/
def State.lineEnds (cause : EndCause) (s : State) : State :=
  let s₁ := s.setLine (s.line.release s.now)
  match s.lineOwner with
  | none => s₁
  | some .session => if s₁.session.state.holdsCall then s₁.endCallToEnded cause else s₁
  | some .report => s₁.reportLineEnded

/-- R121: the answer: CONNECTED entered, and the owner handed the answer with its mark. -/
def State.lineAnswered (presumed : Bool) (s : State) : State :=
  let s₁ := s.setLine s.line.answered
  match s.lineOwner with
  | none => s₁
  | some .session => s₁.sessionAnswered presumed
  | some .report => s₁.reportAnswered

end Sys2Proof.Machine
end

