-- ==== Sys2Proof/Machine/ClockCommands.lean ====
section
/-! DEFINITION. The running clock (chapter 5) and the rating unit's timed commands (chapter 6): CLOCK_SECOND with its minute
event, STEP_BOUNDARY and WARNING_TONE_START. -/

namespace Sys2Proof.Machine

/-! ## The clock -/

/-- R64, R65, R79: an evaluation against the clock's current time; TABLE_CHANGED is set where it changed a record. -/
def State.evaluateTable (s : State) : State :=
  let records := evaluate s.clock.time.toMinute s.tariff.records
  if records = s.tariff.records then s
  else (s.setTariff { s.tariff with records := records }).raise .tableChanged

/-- R174: the daily report time compared with the minute of day reached. -/
def State.dailyReport (s : State) : State :=
  if s.clock.time.minuteOfDay = s.settings.dailyReport ∧ (s.report.state = .idle ∨ s.report.state = .deferred) then
    s.scheduleNow
  else s

/-- R78: a minute event, taken by the band unit, the number analyser and the report unit. -/
def State.minuteEvent (s : State) : State :=
  let clock := if s.clock.time.minuteOfDay = 0 then s.clock.prune else s.clock
  (s.setClock clock.formBand).evaluateTable.dailyReport

/-- R77: the end of a second of elapsed time: the clock advances, and the next second ends 1 s after it. A second whose end
elapsed time has already passed (log entry 3) is counted none the less: each end falls due in its turn. -/
def State.advanceClock (s : State) : State :=
  (s.reach s.clock.nextSecond).setClock
    { s.clock.advance with nextSecond := s.clock.nextSecond + Config.secondMs }

/-- R77, R78, R80: a second of the running clock while the main supply is on. -/
def State.clockTick (s : State) : State :=
  let s₁ := s.advanceClock
  let s₂ := if s₁.clock.time.second = 0 then s₁.minuteEvent else s₁
  if s.clock.time.atEnd then s₂.becomeAbnormal .clock .clockUnset .notice else s₂

/-- CLOCK_SECOND (R77): with the main supply lost the clock runs on while the backup supply holds, and gives no minute
event (R78). -/
def execClockSecond (s : State) : Host.Outcome State Fault Refusal :=
  .next (if s.supplies.main then s.clockTick else if s.supplies.backupLost then s else s.advanceClock)

/-! ## The rating unit's instants -/

/-- R100 steps 2 to 4: a step begun at its boundary, or the call cut off. -/
def State.beginStep (call : CallInfo) (c : RatedCall) (s : State) : State :=
  let content := s.tariff.contentOf call.slot
  let band := s.clock.band
  let step := stepCharge c.rounding c.acc (content.stepAmount band)
  if s.available < step.charge then s.cutOff
  else
    let flags := { call.flags with bandChanged := call.flags.bandChanged || band ≠ c.lastBand }
    let s₁ := s.setRating { s.rating with
      context := enterStep step 0 band content.period { call with flags := flags } c }
    (s₁.takeCharge call.number step.charge).lookAhead

/-- R100: the next boundary of a RATED context is reached; its warning ends first. -/
def State.stepBoundary (s : State) : State :=
  match s.rating.context with
  | .rated call c =>
    let c' := { c with warning := none }
    ((s.reach c.nextBoundary).setRating { s.rating with context := .rated call c' }).beginStep call c'
  | .empty | .placed _ | .unrated _ _ => s

/-- STEP_BOUNDARY (R100). -/
def execStepBoundary (s : State) : Host.Outcome State Fault Refusal := .next (s.whilePowered State.stepBoundary)

/-- R103: the tone start of an active warning is reached, and its tone plays. -/
def State.startWarningTone (s : State) : State :=
  match s.rating.context with
  | .rated call c =>
    match c.warning with
    | some w =>
      if w.playing then s
      else
        (s.reach w.toneStart).setRating
          { s.rating with context := .rated call { c with warning := some { w with playing := true } } }
    | none => s
  | .empty | .placed _ | .unrated _ _ => s

/-- WARNING_TONE_START (R103). -/
def execWarningToneStart (s : State) : Host.Outcome State Fault Refusal :=
  .next (s.whilePowered State.startWarningTone)

end Sys2Proof.Machine
end

