-- ==== Sys2Proof/Machine/CoinPath.lean ====
section
/-! DEFINITION. The commands of the coin path (chapter 1): validator reports, sensor pulses, windows, the two gate cycles,
the return cup and the coin slot. -/

namespace Sys2Proof.Machine

/-! ## The validator -/

/-- R4: an ACCEPTED report taken. -/
def State.acceptCoin (cls : Fin 16) (s : State) : State :=
  if s.coin.transit.length < Config.transitMax then
    s.setCoin { s.coin with
      transit := s.coin.transit ++
        [{ cls := cls, value := s.settings.classes[cls].value,
           dest := if s.coin.fill < Config.columnMax then .column else .overflow,
           windowEnds := s.now + Config.transitWindowMs, noted := false }] }
  else s.countUnconfirmed

/-- VALIDATOR_ACCEPTED (R4). -/
def execValidatorAccepted (cls : Fin 16) (s : State) : Host.Outcome State Fault Refusal :=
  .next (s.whilePowered (State.acceptCoin cls))

/-- R2: a REJECTED report taken. -/
def State.rejectCoin (s : State) : State :=
  s.setCoin { s.coin with rejectedCount := wrapInc top16 s.coin.rejectedCount }

/-- VALIDATOR_REJECTED (R2). -/
def execValidatorRejected (s : State) : Host.Outcome State Fault Refusal := .next (s.whilePowered State.rejectCoin)

/-! ## Sensor pulses -/

/-- A transit list without the oldest entry of a destination, and that entry. -/
def takeOldest (dest : Destination) : List TransitEntry → Option (TransitEntry × List TransitEntry)
  | [] => none
  | e :: rest =>
    if e.dest = dest then some (e, rest)
    else (takeOldest dest rest).map (fun found => (found.1, e :: found.2))

/-- R6: a column entry pulse while a refund cycle is in flight. -/
def State.passToCup (s : State) : State :=
  let s₁ := match takeOldest .column s.coin.transit with
    | some (_, rest) => s.setCoin { s.coin with transit := rest, streak := 0 }
    | none => s
  s₁.setCoin { s₁.coin with refundedCount := wrapInc top16 s₁.coin.refundedCount }

/-- R5: a held coin that has just been appended is refunded where it came between sessions: in IDLE, or in CLEARING after the
refund of its session end has completed (log entry 18). -/
def State.refundBetweenSessions (s : State) : State :=
  if s.session.state = .idle ∨ s.session.state = .clearing ∧ s.coin.sessionRefunded = true then
    if s.coin.waiting = none ∧ s.coin.refundInFlight = false then s.requestRefund false false else s
  else s

/-- R5: a column entry pulse while no refund cycle is in flight. -/
def State.enterColumn (s : State) : State :=
  match takeOldest .column s.coin.transit with
  | some (e, rest) =>
    (s.setCoin { s.coin with
      transit := rest
      column := s.coin.column ++ [{ cls := some e.cls, value := e.value, tag := .credited }]
      streak := 0 }).refundBetweenSessions
  | none =>
    if s.coin.column.length < Config.columnMax then
      (s.setCoin { s.coin with
        column := s.coin.column ++ [{ cls := none, value := 0, tag := .unvalued }] }).refundBetweenSessions
    else s.countUnconfirmed

/-- R5, R6: a column entry pulse. -/
def State.columnPulse (s : State) : State := if s.coin.refundInFlight then s.passToCup else s.enterColumn

/-- COLUMN_ENTRY_PULSE (R5, R6). -/
def execColumnEntryPulse (s : State) : Host.Outcome State Fault Refusal :=
  .next (s.whilePowered (State.creditStep State.columnPulse))

/-- R7: a cashbox entry pulse that no collect cycle takes. -/
def State.cashboxArrival (s : State) : State :=
  match takeOldest .overflow s.coin.transit with
  | some (e, rest) =>
    let s₁ := ((s.setCoin { s.coin with transit := rest }).addBanked e.value).settle
    let s₂ := s₁.countOverflow e.cls e.value
    s₂.setCoin { s₂.coin with streak := 0 }
  | none => s.countUnexpected

/-- R7, R13: a cashbox entry pulse: the first after a collect cycle's start is the cycle's own, and completes it where the
gate has come home. -/
def State.cashboxPulse (s : State) : State :=
  match s.coin.cycle with
  | .collectStarted generation ends false false =>
    s.setCoin { s.coin with cycle := .collectStarted generation ends true false }
  | .collectStarted generation _ false true => s.completeCollect generation
  | .collectStarted _ _ true _ | .idle | .collectHeld | .refund _ _ _ => s.cashboxArrival

/-- CASHBOX_ENTRY_PULSE (R7, R13). -/
def execCashboxEntryPulse (s : State) : Host.Outcome State Fault Refusal :=
  .next (s.whilePowered (State.creditStep State.cashboxPulse))

/-! ## The transit window -/

/-- R8: the oldest transit entry expires. -/
def State.expireTransit (s : State) : State :=
  match s.coin.transit with
  | [] => s
  | e :: rest => ((s.reach e.windowEnds).setCoin { s.coin with transit := rest }).countUnconfirmed

/-- TRANSIT_WINDOW_END (R8). -/
def execTransitWindowEnd (s : State) : Host.Outcome State Fault Refusal := .next (s.whilePowered State.expireTransit)

/-! ## The collect cycle -/

/-- R12: whether an accepted collect cycle starts now. -/
def State.collectStarts (s : State) : Bool := s.coin.cycle = .collectHeld && !s.coin.overflowPending

/-- R12: an accepted collect cycle starts. -/
def State.startCollect (s : State) : State :=
  if s.collectStarts then
    s.setCoin { s.coin with cycle := .collectStarted s.comp.generation (s.now + Config.collectWindowMs) false false }
  else s

/-- COLLECT_CYCLE_START (R12). -/
def execCollectCycleStart (s : State) : Host.Outcome State Fault Refusal := .next (s.whilePowered State.startCollect)

/-- R13, R19: the collect gate's home sensor reads home. -/
def State.collectHome (s : State) : State :=
  let s₁ := s.makeNormal .collectGate
  match s₁.coin.cycle with
  | .collectStarted generation _ true _ => s₁.completeCollect generation
  | .collectStarted generation ends false _ =>
    s₁.setCoin { s₁.coin with cycle := .collectStarted generation ends false true }
  | .idle | .collectHeld | .refund _ _ _ => s₁

/-- COLLECT_GATE_HOME (R13). -/
def execCollectGateHome (s : State) : Host.Outcome State Fault Refusal :=
  .next (s.whilePowered (State.creditStep State.collectHome))

/-- R14, R30: a started collect cycle times out. -/
def State.timeOutCollect (s : State) : State :=
  match s.coin.cycle with
  | .collectStarted generation ends _ _ =>
    let s₁ := ((s.reach ends).occurrence .collectGate .gateJam .fault).writeOff
    (s₁.setCoin { s₁.coin with cycle := .idle }).resolveWithheld generation
  | .idle | .collectHeld | .refund _ _ _ => s

/-- COLLECT_WINDOW_TIMEOUT (R14). -/
def execCollectWindowTimeout (s : State) : Host.Outcome State Fault Refusal :=
  .next (s.whilePowered (State.creditStep State.timeOutCollect))

/-! ## The refund cycle -/

/-- R10: the waiting refund that starts now. -/
def State.refundStarts (s : State) : Option WaitingRefund :=
  if s.coin.cycle = .idle ∧ s.coin.transit.any TransitEntry.noted = false then s.coin.waiting else none

/-- R15: the waiting refund starts. -/
def State.startRefund (s : State) : State :=
  match s.refundStarts with
  | none => s
  | some w =>
    if s.gateInhibited .refund then
      (s.setCoin { s.coin with waiting := none, sessionRefunded := s.coin.sessionRefunded && !w.ofSession }).orphanColumn
    else
      s.setCoin { s.coin with
        waiting := none
        cycle := .refund (s.now + Config.refundWindowMs) w.startUp w.ofSession
        watches := if s.coin.column = [] then s.coin.watches else s.coin.watches ++ [⟨s.now + Config.cupWatchMs, true⟩] }

/-- REFUND_CYCLE_START (R15). -/
def execRefundCycleStart (s : State) : Host.Outcome State Fault Refusal :=
  .next (s.whilePowered (State.creditStep State.startRefund))

/-- R16: the coins of a column that a refund returns and counts. -/
def returned (column : List HeldCoin) : Nat := (column.filter (fun c => c.tag ≠ .orphan)).length

/-- R16, R19, R21: the refund gate's home sensor reads home; a refund cycle in flight completes. -/
def State.refundHome (s : State) : State :=
  let s₁ := s.makeNormal .refundGate
  match s₁.coin.cycle with
  | .refund _ startUp ofSession =>
    let k := returned s₁.coin.column
    let s₂ := s₁.setCoin { s₁.coin with
      column := []
      refundedCount := (s₁.coin.refundedCount + k) % (top16 + 1)
      cycle := .idle
      sessionRefunded := s₁.coin.sessionRefunded || ofSession
      watches := s₁.coin.watches.map (fun w => { w with ofCycle := false }) }
    if startUp then
      s₂.setCurrent { s₂.comp.current with refundedAtRestart := satAdd top16 s₂.comp.current.refundedAtRestart k }
    else s₂
  | .idle | .collectHeld | .collectStarted _ _ _ _ => s₁

/-- REFUND_GATE_HOME (R16). -/
def execRefundGateHome (s : State) : Host.Outcome State Fault Refusal :=
  .next (s.whilePowered (State.creditStep State.refundHome))

/-- R17: a refund cycle times out. -/
def State.timeOutRefund (s : State) : State :=
  match s.coin.cycle with
  | .refund ends _ ofSession =>
    let s₁ := ((s.reach ends).occurrence .refundGate .gateJam .fault).orphanColumn
    s₁.setCoin { s₁.coin with
      cycle := .idle
      sessionRefunded := s₁.coin.sessionRefunded && !ofSession
      watches := s₁.coin.watches.filter (fun w => !w.ofCycle) }
  | .idle | .collectHeld | .collectStarted _ _ _ _ => s

/-- REFUND_WINDOW_TIMEOUT (R17). -/
def execRefundWindowTimeout (s : State) : Host.Outcome State Fault Refusal :=
  .next (s.whilePowered (State.creditStep State.timeOutRefund))

/-! ## The return cup -/

/-- R18: a pulse of the return cup sensor. -/
def State.cupPulse (s : State) : State := s.setCoin { s.coin with watches := [] }

/-- RETURN_CUP_PULSE (R18). -/
def execReturnCupPulse (s : State) : Host.Outcome State Fault Refusal := .next (s.whilePowered State.cupPulse)

/-- R18: a return cup watch reaches its end without a pulse. -/
def State.endWatch (s : State) : State :=
  match s.coin.watches with
  | [] => s
  | w :: rest => ((s.reach w.watchEnds).setCoin { s.coin with watches := rest }).occurrence .returnCup .returnBlocked .alarm

/-- RETURN_CUP_WATCH_END (R18). -/
def execReturnCupWatchEnd (s : State) : Host.Outcome State Fault Refusal := .next (s.whilePowered State.endWatch)

/-! ## The coin slot and the home sensors -/

/-- R20: the slot has read obstructed for 10 s: one occurrence for one obstruction. -/
def State.slotObstructed (s : State) : State :=
  if s.normal .coinSlot then s.becomeAbnormal .coinSlot .slotBlocked .alarm else s

/-- SLOT_OBSTRUCTED_10S (R20). -/
def execSlotObstructed10s (s : State) : Host.Outcome State Fault Refusal := .next (s.whilePowered State.slotObstructed)

/-- SLOT_CLEAR_5S (R20). -/
def execSlotClear5s (s : State) : Host.Outcome State Fault Refusal :=
  .next (s.whilePowered (State.makeNormal .coinSlot))

/-- Section 1.5: the source a gate's home sensor gives the normality of (R19). -/
def gateSource : Gate → Source
  | .collect => .collectGate
  | .refund => .refundGate

/-- GATE_LEAVES_HOME (R19). -/
def execGateLeavesHome (gate : Gate) (s : State) : Host.Outcome State Fault Refusal :=
  .next (s.whilePowered (State.makeAbnormal (gateSource gate)))

end Sys2Proof.Machine
end

