-- ==== Sys2Proof/Machine/Compartment.lean ====
section
/-! DEFINITION. The commands of the cash compartment (chapter 3) and the close of the session's account (R36): door and key
readings, the removal and the insertion of a cashbox. -/

namespace Sys2Proof.Machine

/-- R41, R42: a door reading: the COMPARTMENT source follows it, and OPEN on a LOCKED key is a forced entry. -/
def State.readDoor (reading : DoorReading) (s : State) : State :=
  if reading = s.comp.door then s
  else
    let s₁ := s.setComp { s.comp with door := reading }
    match reading with
    | .closed => s₁.makeNormal .compartment
    | .opened =>
      let s₂ := s₁.makeAbnormal .compartment
      if s₂.comp.key = .locked then s₂.occurrence .compartment .compartmentForced .alarm else s₂

/-- DOOR_READING (R41, R42, R43). -/
def execDoorReading (reading : DoorReading) (s : State) : Host.Outcome State Fault Refusal :=
  .next (s.whilePowered (State.readDoor reading))

/-- R41, R43: a key reading kept; the service port enable is formed from it (`State.serviceEnabled`). -/
def State.readKey (reading : KeyReading) (s : State) : State := s.setComp { s.comp with key := reading }

/-- KEY_READING (R41, R43). -/
def execKeyReading (reading : KeyReading) (s : State) : Host.Outcome State Fault Refusal :=
  .next (s.whilePowered (State.readKey reading))

/-- R47 step 1: whether a removal judged now is forced. -/
def Compartment.forcedNow (c : Compartment) : Bool := c.key ≠ .collect

/-- R47: a closure at a removal, with its occurrences, TALLY_CLOSED and the thresholds. -/
def State.closeTally (s : State) : State :=
  let forced := s.comp.forcedNow
  let s₁ := (s.setComp (s.comp.close forced)).becomeAbnormal .collection .cashboxCollected .notice
  let s₂ := if forced then s₁.occurrence .compartment .compartmentForced .alarm else s₁
  (s₂.raise .tallyClosed).judgeThresholds

/-- R12, R30: a collect cycle held back ends when the cashbox is removed, and the owed list is written off. -/
def State.dropHeldCollect (s : State) : State :=
  if s.coin.cycle = .collectHeld then (s.setCoin { s.coin with cycle := .idle }).writeOff else s

/-- R41, R47: a presence reading of ABSENT. -/
def State.removeCashbox (s : State) : State :=
  if s.comp.presence = .present then (s.setComp { s.comp with presence := .absent }).closeTally.dropHeldCollect else s

/-- CASHBOX_REMOVAL (R47). -/
def execCashboxRemoval (s : State) : Host.Outcome State Fault Refusal :=
  .next (s.whilePowered (State.creditStep State.removeCashbox))

/-- R50: a presence reading of PRESENT. -/
def State.insertCashbox (s : State) : State := s.setComp { s.comp with presence := .present }

/-- CASHBOX_INSERTION (R50). -/
def execCashboxInsertion (s : State) : Host.Outcome State Fault Refusal :=
  .next (s.whilePowered (State.creditStep State.insertCashbox))

/-- R36: whether the closing has ended: nothing owed and no collect in flight. -/
def State.closeStands (s : State) : Bool :=
  s.credit.account = .closing && s.credit.owed = [] && !s.coin.collectInFlight

/-- R36: the close of a session end: B is forfeited, and the session is no longer open. -/
def State.closeSessionAccount (s : State) : State :=
  if s.closeStands then
    (s.setCredit { s.credit with
      banked := 0
      account := .notOpen
      sessionForfeit := satAdd top32 s.credit.sessionForfeit s.credit.banked }).addForfeit s.credit.banked
  else s

/-- SESSION_END_CLOSE (R36). -/
def execSessionEndClose (s : State) : Host.Outcome State Fault Refusal :=
  .next (s.whilePowered State.closeSessionAccount)

end Sys2Proof.Machine
end

