-- ==== Sys2Proof/Machine/InputCommands.lean ====
section
/-! DEFINITION. The commands of the supervised inputs (sections 9.1 to 9.3): edges, windows, hold-offs, clear delays, and the
taking of an assignment (R158). -/

namespace Sys2Proof.Machine

/-! ## An input's state -/

/-- An input's state replaced. -/
def State.setInput (i : Fin 8) (x : SupervisedInput) (s : State) : State :=
  s.setSup { s.sup with inputs := s.sup.inputs.set i x }

/-- R158: whether an input is at rest. -/
def SupervisedInput.atRest (x : SupervisedInput) : Bool :=
  x.assignment.type = .unused || (!x.active && x.windowEnds = none && x.holdOffEnds = none)

/-- R158: an assignment taking effect on an input at rest: the qualified reading of an input in use and a clear delay in
progress are kept. -/
def SupervisedInput.assign (a : Assignment) (x : SupervisedInput) : SupervisedInput :=
  { x with
    assignment := a
    staged := none
    active := x.active && x.assignment.type ≠ .unused
    windowEnds := none
    edgeCount := 0
    holdOffEnds := none }

/-- R158, R167: an assignment takes effect on an input; the new restriction applies to its record at once. -/
def State.assignInput (i : Fin 8) (a : Assignment) (s : State) : State :=
  (s.setInput i (s.sup.inputs[i].assign a)).deriveLevel

/-- R158: a staged assignment takes effect at the first instant its input is at rest. -/
def State.takeStaged (i : Fin 8) (s : State) : State :=
  match s.sup.inputs[i].staged with
  | some a => if s.sup.inputs[i].atRest then s.assignInput i a else s
  | none => s

/-- R158: an input set UNUSED: everything it had in progress ends, its source becomes normal, and its record, if active,
becomes CLEARED, latched or not. -/
def State.unuseInput (i : Fin 8) (a : Assignment) (s : State) : State :=
  let s₁ := (s.setInput i { SupervisedInput.unused with assignment := a }).setNormality (.input i) false
  if s₁.recordActive (.input i) then s₁.clearRecord (.input i) else s₁

/-! ## Edges -/

/-- R159: the severity of an input type's occurrences. -/
def InputType.severity : InputType → Severity
  | .genericFault => .fault
  | .unused | .handsetCord | .housingShock | .glassBreak | .panelOpen => .alarm

/-- R155, R156: an occurrence of an input's type, which begins the hold-off afresh and makes the source abnormal; a COUNT
window closes. -/
def State.inputOccurs (i : Fin 8) (s : State) : State :=
  let x := s.sup.inputs[i]
  let a := x.assignment
  let s₁ := s.setInput i { x with
    windowEnds := none
    edgeCount := 0
    holdOffEnds := if a.holdOff = 0 then none else some (s.now + a.holdOff * Config.secondMs) }
  s₁.becomeAbnormal (.input i) (.ofInput a.type) a.type.severity

/-- R154: an active edge taken in COUNT mode. -/
def State.countEdge (i : Fin 8) (s : State) : State :=
  let x := s.sup.inputs[i]
  let edges := if x.windowEnds = none then 1 else x.edgeCount + 1
  if x.assignment.count ≤ edges then s.inputOccurs i
  else
    s.setInput i { x with
      windowEnds := if x.windowEnds = none then some (s.now + x.assignment.window * Config.secondMs) else x.windowEnds
      edgeCount := edges }

/-- R152, R153, R154: an active edge that passes the hold-off, taken by the input's mode. -/
def State.takeEdge (i : Fin 8) (s : State) : State :=
  match s.sup.inputs[i].assignment.mode with
  | .edge => s.inputOccurs i
  | .level => if s.normal (.input i) then s.inputOccurs i else s
  | .count => s.countEdge i

/-- R151, R155, R156: an active edge: it ends a clear delay, and is dropped while the hold-off runs. -/
def State.activeEdge (i : Fin 8) (s : State) : State :=
  let x := s.sup.inputs[i]
  if x.assignment.type = .unused ∨ x.active then s
  else
    let s₁ := (s.setInput i { x with active := true, clearFrom := none }).recount (.input i)
    if x.holdOffEnds = none then s₁.takeEdge i else s₁

/-- INPUT_ACTIVE_EDGE (R151 to R155). -/
def execInputActiveEdge (input : Fin 8) (s : State) : Host.Outcome State Fault Refusal :=
  .next (s.whilePowered (State.activeEdge input))

/-- R151, R156: an inactive change: it begins the clear delay. -/
def State.inactiveChange (i : Fin 8) (s : State) : State :=
  let x := s.sup.inputs[i]
  if x.assignment.type ≠ .unused ∧ x.active then
    ((s.setInput i { x with active := false, clearFrom := some s.now }).recount (.input i)).takeStaged i
  else s

/-- INPUT_INACTIVE_CHANGE (R151, R156). -/
def execInputInactiveChange (input : Fin 8) (s : State) : Host.Outcome State Fault Refusal :=
  .next (s.whilePowered (State.inactiveChange input))

/-! ## Windows and delays -/

/-- R154: an open COUNT window ends. -/
def State.endWindow (i : Fin 8) (s : State) : State :=
  let x := s.sup.inputs[i]
  match x.windowEnds with
  | some t => ((s.reach t).setInput i { x with windowEnds := none, edgeCount := 0 }).takeStaged i
  | none => s

/-- COUNT_WINDOW_END (R154). -/
def execCountWindowEnd (input : Fin 8) (s : State) : Host.Outcome State Fault Refusal :=
  .next (s.whilePowered (State.endWindow input))

/-- R155: the hold-off time runs out. -/
def State.endHoldOff (i : Fin 8) (s : State) : State :=
  let x := s.sup.inputs[i]
  match x.holdOffEnds with
  | some t => ((s.reach t).setInput i { x with holdOffEnds := none }).takeStaged i
  | none => s

/-- HOLD_OFF_END (R155). -/
def execHoldOffEnd (input : Fin 8) (s : State) : Host.Outcome State Fault Refusal :=
  .next (s.whilePowered (State.endHoldOff input))

/-- R156: the end of a clear delay that began at an instant, by the assignment in effect. -/
def SupervisedInput.clearEnds (x : SupervisedInput) (since : Nat) : Nat := since + x.assignment.clearDelay * Config.secondMs

/-- R156, R162: the clear delay ends, and the source becomes normal. -/
def State.endClearDelay (i : Fin 8) (s : State) : State :=
  let x := s.sup.inputs[i]
  match x.clearFrom with
  | some t => ((s.reach (x.clearEnds t)).setInput i { x with clearFrom := none }).makeNormal (.input i)
  | none => s

/-- CLEAR_DELAY_END (R156). -/
def execClearDelayEnd (input : Fin 8) (s : State) : Host.Outcome State Fault Refusal :=
  .next (s.whilePowered (State.endClearDelay input))

end Sys2Proof.Machine
end

