-- ==== Sys2Proof/Machine/LineCommands.lean ====
section
/-! DEFINITION. The commands of the line (chapter 7) and of the report unit's timers (chapter 10): the grant, seizure, dial
tone, out-dialling, answer, classifications, release and loop supervision, the retry timer and the reply wait. -/

namespace Sys2Proof.Machine

/-! ## The grant -/

/-- R113, R176: a grant, where one is to be made; at its own grant the report unit enters CALLING. -/
def State.makeGrant (s : State) : State :=
  match s.grantable with
  | none => s
  | some (owner, r) =>
    let s₁ := s.setLine (s.line.grant s.now owner r)
    match owner with
    | .session => s₁
    | .report => if s₁.report.state = .waitLine then s₁.setReport { s₁.report with state := .calling } else s₁

/-- LINE_GRANT (R113). -/
def execLineGrant (s : State) : Host.Outcome State Fault Refusal := .next (s.whilePowered State.makeGrant)

/-! ## Seizure and dial tone -/

/-- R115: loop current seen in SEIZING. -/
def State.seeCurrent (s : State) : State :=
  if s.line.state = .seizing then
    s.setLine { s.line with state := .awaitDialTone, deadline := s.now + Config.dialToneMs }
  else s

/-- LOOP_CURRENT_SEEN (R115). -/
def execLoopCurrentSeen (s : State) : Host.Outcome State Fault Refusal := .next (s.whilePowered State.seeCurrent)

/-- R115, R116, R117: a dial-tone failure: the release begins, the owner is handed DIAL_TONE_FAILURE, and it is counted. -/
def State.failDialTone (s : State) : State :=
  ((s.reach s.line.deadline).lineEnds .dialToneFailure).countDialToneFailure

/-- R115: 300 ms in SEIZING without loop current. -/
def State.endSeizure (s : State) : State := if s.line.state = .seizing then s.failDialTone else s

/-- SEIZURE_TIMEOUT (R115). -/
def execSeizureTimeout (s : State) : Host.Outcome State Fault Refusal := .next (s.whilePowered State.endSeizure)

/-- R116, R117: dial tone in AWAIT_DIAL_TONE: the streak becomes 0, DIALTONE normal, and the line dials. -/
def State.hearDialTone (s : State) : State :=
  if s.line.state = .awaitDialTone then
    let s₁ := (s.setLine { s.line with streak := 0 }).makeNormal .dialtone
    s₁.setLine (s₁.line.startDialling s₁.now)
  else s

/-- DIAL_TONE_CLASSIFIED (R116). -/
def execDialToneClassified (s : State) : Host.Outcome State Fault Refusal := .next (s.whilePowered State.hearDialTone)

/-- R116: 4 s in AWAIT_DIAL_TONE without dial tone. -/
def State.endDialTone (s : State) : State := if s.line.state = .awaitDialTone then s.failDialTone else s

/-- DIAL_TONE_TIMEOUT (R116). -/
def execDialToneTimeout (s : State) : Host.Outcome State Fault Refusal := .next (s.whilePowered State.endDialTone)

/-! ## Out-dialling -/

/-- R118, R119: a timed point of out-dialling. -/
def State.passDialPoint (s : State) : State :=
  if s.line.state = .dialling ∧ s.line.phase ≠ .sent then (s.reach s.line.phaseEnds).setLine s.line.dialPoint else s

/-- DIAL_SYMBOL_SENT (R118, R119). -/
def execDialSymbolSent (s : State) : Host.Outcome State Fault Refusal := .next (s.whilePowered State.passDialPoint)

/-- R141: the session enters RINGING when the line it owns enters AWAIT_ANSWER. -/
def State.startRinging (s : State) : State :=
  if s.lineOwner = some .session ∧ s.session.state = .placing then s.setSession { s.session with state := .ringing } else s

/-- R118, R119, R121, R141: the dial string has been sent: AWAIT_ANSWER. -/
def State.endDialling (s : State) : State :=
  if s.line.state = .dialling then
    let s₁ := s.reach s.line.diallingEnds
    (s₁.setLine (s₁.line.awaitAnswer s₁.now)).startRinging
  else s

/-- DIALLING_END (R118, R119, R121). -/
def execDiallingEnd (s : State) : Host.Outcome State Fault Refusal := .next (s.whilePowered State.endDialling)

/-! ## Answer and clearing -/

/-- R116, R120, R121, R122: a busy classification. -/
def State.hearBusy (s : State) : State :=
  match s.line.state with
  | .dialling | .awaitAnswer => s.lineEnds .busy
  | .connected => if s.line.modeIs .presumed then s.lineEnds .farEndClear else s
  | .free | .seizing | .awaitDialTone | .releasing => s

/-- BUSY_CLASSIFIED (R120, R121, R122). -/
def execBusyClassified (s : State) : Host.Outcome State Fault Refusal := .next (s.whilePowered State.hearBusy)

/-- R120, R121, R122: a polarity reversal. -/
def State.reversePolarity (s : State) : State :=
  if s.line.modeIs .signalled then
    match s.line.state with
    | .awaitAnswer => s.lineAnswered false
    | .connected => s.lineEnds .farEndClear
    | .free | .seizing | .awaitDialTone | .dialling | .releasing => s
  else s

/-- POLARITY_REVERSAL (R121, R122). -/
def execPolarityReversal (s : State) : Host.Outcome State Fault Refusal := .next (s.whilePowered State.reversePolarity)

/-- R121: the presumed delay ends in AWAIT_ANSWER; one longer than the answer limit is never reached. -/
def State.endPresumedDelay (s : State) : State :=
  match s.line.state, s.line.presumedAnswerAt with
  | .awaitAnswer, some t => (s.reach t).lineAnswered true
  | _, _ => s

/-- PRESUMED_DELAY_END (R121). -/
def execPresumedDelayEnd (s : State) : Host.Outcome State Fault Refusal := .next (s.whilePowered State.endPresumedDelay)

/-- R121: the answer wait ends in AWAIT_ANSWER; one that the presumed delay answers first never does. -/
def State.endAnswerWait (s : State) : State :=
  match s.line.state, s.line.noAnswerAt with
  | .awaitAnswer, some t => (s.reach t).lineEnds .noAnswer
  | _, _ => s

/-- ANSWER_WAIT_END (R121). -/
def execAnswerWaitEnd (s : State) : Host.Outcome State Fault Refusal := .next (s.whilePowered State.endAnswerWait)

/-! ## The centre's reply -/

/-- R122: whether a classification in CONNECTED is handed to the report unit in AWAIT_REPLY (R179). -/
def State.awaitsReply (s : State) : Bool :=
  s.line.state = .connected && s.lineOwner = some .report && s.report.state = .awaitReply

/-- R179, R181: an acknowledge classification. -/
def State.hearAcknowledge (s : State) : State := if s.awaitsReply then s.applyAck else s

/-- ACKNOWLEDGE_CLASSIFIED (R179, R181). -/
def execAcknowledgeClassified (s : State) : Host.Outcome State Fault Refusal :=
  .next (s.whilePowered State.hearAcknowledge)

/-- R179: after the first NAK of an attempt the same string is sent again. -/
def State.repeatReport (s : State) : State :=
  let s₁ := s.setReport { s.report with state := .sending, repeated := true, replyEnds := none }
  match s₁.report.snapshot with
  | some snap => s₁.sendTones .report snap.string
  | none => s₁

/-- R179, R180: a refuse classification. -/
def State.hearRefuse (s : State) : State :=
  if s.awaitsReply then if s.report.repeated then s.reportFail true else s.repeatReport else s

/-- REFUSE_CLASSIFIED (R179). -/
def execRefuseClassified (s : State) : Host.Outcome State Fault Refusal := .next (s.whilePowered State.hearRefuse)

/-- R177, R179: the sending completed, as the report unit takes it. -/
def State.reportSent (s : State) : State :=
  if s.report.state = .sending then
    s.setReport { s.report with state := .awaitReply, replyEnds := some (s.now + Config.replyWaitMs) }
  else s

/-- R122: a tone string has been sent, and its completion is handed to the owner. -/
def State.endToneString (s : State) : State :=
  match s.line.state, s.line.sending with
  | .connected, some t =>
    let s₁ := (s.reach t.sentAt).setLine { s.line with sending := none }
    if s.lineOwner = some .report then s₁.reportSent else s₁
  | _, _ => s

/-- TONE_STRING_SENT (R122). -/
def execToneStringSent (s : State) : Host.Outcome State Fault Refusal := .next (s.whilePowered State.endToneString)

/-- R179: 8 s in AWAIT_REPLY without a reply. -/
def State.endReplyWait (s : State) : State :=
  match s.report.state, s.report.replyEnds with
  | .awaitReply, some t => (s.reach t).reportFail true
  | _, _ => s

/-- REPLY_WAIT_END (R179). -/
def execReplyWaitEnd (s : State) : Host.Outcome State Fault Refusal := .next (s.whilePowered State.endReplyWait)

/-! ## Release and loop supervision -/

/-- R123, R183: the release guard ends. -/
def State.endGuard (s : State) : State :=
  if s.line.state = .releasing then
    let s₁ := (s.reach s.line.deadline).setLine { s.line with state := .free }
    if s₁.report.state = .releasing then s₁.afterAttempt else s₁
  else s

/-- RELEASE_GUARD_END (R123). -/
def execReleaseGuardEnd (s : State) : Host.Outcome State Fault Refusal := .next (s.whilePowered State.endGuard)

/-- R124: 300 ms without loop current on a closed loop. In DIALLING no absence is counted during a pulse break and the make
that follows it, so no loss falls there. -/
def State.loseLine (s : State) : State :=
  match s.line.state with
  | .awaitDialTone | .awaitAnswer | .connected => s.lineEnds .lineLost
  | .dialling => if s.line.phase.pulsing then s else s.lineEnds .lineLost
  | .free | .seizing | .releasing => s

/-- LOOP_CURRENT_LOSS (R124). -/
def execLoopCurrentLoss (s : State) : Host.Outcome State Fault Refusal := .next (s.whilePowered State.loseLine)

/-- R125: 5 s without line presence. -/
def State.lineAbsent (s : State) : State := if s.normal .line then s.becomeAbnormal .line .lineDown .fault else s

/-- LINE_ABSENT_5S (R125). -/
def execLineAbsent5s (s : State) : Host.Outcome State Fault Refusal := .next (s.whilePowered State.lineAbsent)

/-- R125, R175: 10 s of line presence; a report attempt that waited for the line begins, or fails at once where the centre
number has been emptied meanwhile (R190; log entry 41). -/
def State.linePresent (s : State) : State :=
  let s₁ := s.makeNormal .line
  if s₁.report.state = .scheduled ∧ s₁.report.timer = some .waitingLine then s₁.beginAttempt else s₁

/-- LINE_PRESENT_10S (R125). -/
def execLinePresent10s (s : State) : Host.Outcome State Fault Refusal := .next (s.whilePowered State.linePresent)

/-- R172, R175: the retry timer expires in SCHEDULED. -/
def State.expireRetry (s : State) : State :=
  match s.report.state, s.report.timer with
  | .scheduled, some (.running t) => (s.reach t).retryExpired
  | _, _ => s

/-- RETRY_TIMER_EXPIRY (R175). -/
def execRetryTimerExpiry (s : State) : Host.Outcome State Fault Refusal := .next (s.whilePowered State.expireRetry)

end Sys2Proof.Machine
end

