-- ==== Sys2Proof/Machine/PortOps.lean ====
section
/-! DEFINITION. The serving of a port request (R43, R186, R187, R188), and the views that STATUS_GET, TALLY_GET and
CONDITION_GET return. -/

namespace Sys2Proof.Machine

/-! ## Serving a request -/

/-- The unit of a port. -/
def State.port (s : State) : Port → PortUnit
  | .host => s.hostPort
  | .service => s.servicePort

/-- The unit of a port replaced. -/
def State.setPort (p : Port) (x : PortUnit) (s : State) : State :=
  match p with
  | .host => s.setHostPort x
  | .service => s.setServicePort x

/-- R186: the response a reply makes: the kind and tag of the request, and an empty body with every refusal. -/
def Reply.response (kind : Nat) (tag : Byte) : Reply → Response
  | .done body => { kind := kind, tag := tag, status := .done, reason := none, body := body }
  | .doneClamped => { kind := kind, tag := tag, status := .doneClamped, reason := none, body := .empty }
  | .doneDeferred body => { kind := kind, tag := tag, status := .doneDeferred, reason := none, body := body }
  | .refused reason => { kind := kind, tag := tag, status := .refused, reason := some reason, body := .empty }

/-- R187: the port ANSWERED with a response; an unread one is discarded. -/
def State.answer (p : Port) (r : Response) (s : State) : State :=
  s.setPort p { s.port p with phase := .answered, response := some r }

/-- R187: whether a port is FREE or ANSWERED, and not HELD or SERVING. -/
def PortUnit.takes (x : PortUnit) : Bool := x.phase = .free || x.phase = .answered

/-- R187, R192: whether the host port's ready line is active: in FREE and ANSWERED, and not before start-up has finished. -/
def State.hostReady (s : State) : Bool := s.supplies.main && s.hostPort.takes

/-- R187: whether a port takes a transfer. The host port ignores one begun while its ready line is inactive. The service port has
no ready line: it stretches a transfer that meets it HELD or SERVING until the response is ready, and takes it then (log entry
10). -/
def State.takes (p : Port) (s : State) : Bool := p = .service || (s.port p).takes

/-- R43: whether a request on a port is refused LOCKED. -/
def State.locks (p : Port) (s : State) : Bool := p = .service && !s.serviceEnabled

/-- R186: whether a body has a length its request allows. -/
def lengthFits (fits : List Byte → Bool) (body : List Byte) : Bool := body.length ≤ 60 && fits body

/-- R43, R186, R187, R188: a complete request arrives on a port, is taken by the arbiter, served whole and answered, as one
step (log entry 10). -/
def State.serve (p : Port) (kind : Nat) (tag : Byte) (body : List Byte) (fits : List Byte → Bool)
    (work : State → State × Reply) (s : State) : State :=
  if s.takes p then
    if s.locks p then s.answer p ((Reply.refused .locked).response kind tag)
    else if lengthFits fits body then (work s).1.answer p ((work s).2.response kind tag)
    else s.answer p ((Reply.refused .format).response kind tag)
  else s

/-- The body lengths of a request whose body is of one length. -/
def ofLength (n : Nat) (body : List Byte) : Bool := body.length = n

/-- A request that reads records: it changes nothing. -/
def reading (reply : State → Reply) (s : State) : State × Reply := (s, reply s)

/-- R187: a read transfer: the response is returned and the port FREE; in FREE none is held, which a response of kind 0 says. -/
def State.readResponse (p : Port) (s : State) : State :=
  if !s.takes p then s
  else if (s.port p).phase = .free then s.setPort p { s.port p with lastRead := some .kindZero }
  else s.setPort p { phase := .free, response := none, lastRead := some (((s.port p).response.map .response).getD .kindZero) }

/-! ## Views -/

/-- R40: the credit unit's view. -/
def State.creditView (s : State) : CreditView :=
  { banked := s.credit.banked, escrow := s.escrow, collectable := s.collectable, owed := owedTotal s.credit.owed,
    available := s.available, sessionForfeit := s.credit.sessionForfeit, sessionOpen := s.credit.account ≠ .notOpen }

/-- R110: what STATUS_GET gives of a RATED context. -/
def State.ratedView (c : RatedCall) (s : State) : RatedView :=
  { rounding := c.rounding, steps := c.steps, total := c.total, lastBand := c.lastBand, acc := c.acc,
    secondsToBoundary := s.secondsTo c.nextBoundary,
    warning := c.warning.map (fun w => ⟨if w.playing then 0 else s.secondsTo w.toneStart⟩), runway := c.runway }

/-- R110: whole seconds of elapsed time since an instant, parts of a second dropped, which R110 leaves open (DESIGN CHOICE, log
entry 43). -/
def State.secondsSince (s : State) (t : Nat) : Nat := (s.now - t) / Config.secondMs

/-- R110: the rating unit's view. -/
def State.ratingView (s : State) : RatingView :=
  match s.rating.context with
  | .empty => { context := .empty, call := none, secondsSinceAnswer := none, rated := none, summary := s.rating.summary }
  | .placed call =>
    { context := .placed, call := some call, secondsSinceAnswer := none, rated := none, summary := s.rating.summary }
  | .rated call c =>
    { context := .rated, call := some call, secondsSinceAnswer := some (s.secondsSince c.answeredAt),
      rated := some (s.ratedView c), summary := s.rating.summary }
  | .unrated call t =>
    { context := .unrated, call := some call, secondsSinceAnswer := some (s.secondsSince t), rated := none,
      summary := s.rating.summary }

/-- R126: the line controller's view. -/
def State.lineView (s : State) : LineView :=
  { state := s.line.state, owner := s.lineOwner, sessionWaiting := s.line.sessionRequest.isSome,
    reportWaiting := s.line.reportRequest.isSome,
    position := if s.line.state = .dialling then s.line.call.map LineCall.position else none,
    method := s.line.call.map (fun c => c.request.method), answerMode := s.line.call.map (fun c => c.request.answerMode),
    streak := s.line.streak, lineNormal := s.normal .line, dialtoneNormal := s.normal .dialtone }

/-- The thirteen keys. -/
def Key.all : List Key :=
  [.symbol 0, .symbol 1, .symbol 2, .symbol 3, .symbol 4, .symbol 5, .symbol 6, .symbol 7, .symbol 8, .symbol 9,
    .symbol 10, .symbol 11, .followOn]

/-- R148: the session controller's view. -/
def State.sessionView (s : State) : SessionView :=
  { state := s.session.state, hook := s.session.hook, buffer := s.session.buffer,
    timer := s.session.timer.map (fun t => (t.kind, s.secondsTo t.expiresAt)), decision := s.session.decision,
    threshold := if s.session.state = .awaitCredit then s.session.threshold else none, tone := s.localTone,
    stuckKeys := Key.all.filter (fun k => s.session.keys[k.idx] = .stuck), event := s.session.event,
    eventCount := s.session.eventCount }

/-- R184: the retry timer as STATUS_GET gives it, parts of a second dropped (DESIGN CHOICE, log entry 43). -/
def State.retryView (s : State) : RetryTimer → RetryView
  | .running t => .running (s.secondsTo t)
  | .held left => .held (left / Config.secondMs)
  | .waitingLine => .waitingLine

/-- R184: the report unit's view; the snapshot's items are given from SENDING to AWAIT_REPLY. -/
def State.reportView (s : State) : ReportView :=
  let given := s.report.state = .sending || s.report.state = .awaitReply
  { state := s.report.state, attempts := s.report.attempts,
    retry := if s.report.state = .scheduled then s.report.timer.map s.retryView else none, renewal := s.report.renewal,
    included := if given then s.report.snapshot.map (fun r => r.records.length) else none,
    tallyPart := if given then s.report.snapshot.map (fun r => r.tally.isSome) else none,
    repeated := if given then some s.report.repeated else none }

/-- Section 11.2: what STATUS_GET gives. -/
def State.statusView (s : State) : StatusView :=
  { rejectedCount := s.coin.rejectedCount, refundedCount := s.coin.refundedCount, credit := s.creditView,
    rating := s.ratingView, line := s.lineView, session := s.sessionView, report := s.reportView,
    backupHeld := s.supplies.outcomeBackupHeld, failedRegions := s.supplies.outcomeFailed }

/-- R54: the closed tally as TALLY_GET gives it. -/
def ClosedTally.view (t : ClosedTally) : ClosedTallyView :=
  { figures := t.figures, forced := t.forced, merged := t.merged, closureDigit := closureDigit t.forced t.merged }

/-- R54: what TALLY_GET gives. -/
def State.tallyBody (s : State) : ResponseBody :=
  .tally s.comp.current (s.comp.closedTally.map ClosedTally.view) s.comp.door s.comp.key s.comp.presence s.serviceEnabled

/-- R169: a record as CONDITION_GET gives it. -/
def State.recordView (src : Source) (r : ConditionRecord) (s : State) : RecordView :=
  { source := src, type := r.type, severity := r.severity, state := r.state, firstRaised := r.firstRaised,
    lastChange := r.lastChange, count := r.count, acked := r.acked, activeSeconds := r.activeSeconds s.now,
    reportEnable := s.reportEnabled src, snapshot := r.snapshot }

/-- The whole seconds to an instant that may be absent, 0 where it is; parts of a second are dropped, which R169 leaves open
(DESIGN CHOICE, log entry 43). -/
def State.secondsLeft (s : State) : Option Nat → Nat
  | some t => s.secondsTo t
  | none => 0

/-- R169: an input as CONDITION_GET gives it. -/
def State.inputView (x : SupervisedInput) (s : State) : InputView :=
  { assignment := x.assignment, staged := x.staged, active := x.active, windowOpen := x.windowEnds.isSome,
    edgeCount := x.edgeCount, holdOffSeconds := s.secondsLeft x.holdOffEnds,
    clearDelaySeconds := s.secondsLeft (x.clearFrom.map x.clearEnds), atRest := x.atRest }

/-- R169: CONDITION_GET of a source. -/
def State.conditionBody (src : Source) (s : State) : ResponseBody :=
  .condition ((s.record src).map (fun r => s.recordView src r)) (s.normal src)
    (match src with
      | .input i => some (s.inputView s.sup.inputs[i])
      | _ => none)

/-- R169: a source's line of the CONDITION_GET summary. -/
def State.summaryLine (s : State) (src : Source) : SummaryLine :=
  { source := src, state := (s.record src).map ConditionRecord.state, normal := s.normal src,
    inReport := match s.record src with
      | some r => r.snapshot.isSome
      | none => false }

/-- R169: the CONDITION_GET summary. -/
def State.summaryBody (s : State) : ResponseBody :=
  .conditionSummary s.sup.level s.lampLit (Source.all.map s.summaryLine)

end Sys2Proof.Machine
end

