-- ==== Sys2Proof/Machine/Requests.lean ====
section
/-! DEFINITION. The port requests (section 11.1), RESPONSE_READ and UNKNOWN_REQUEST: for each request its body lengths, what
it changes and what it answers. -/

namespace Sys2Proof.Machine

/-! ## Tallies -/

/-- TALLY_GET (R54). -/
def execTallyGet (port : Port) (tag : Byte) (body : List Byte) (s : State) : Host.Outcome State Fault Refusal :=
  .next (s.whilePowered (State.serve port 16 tag body (ofLength 0) (reading (fun s => .done s.tallyBody))))

/-- R52: whether a report that includes the COLLECTION record is being sent or awaits its reply. -/
def State.collectionInReport (s : State) : Bool :=
  (s.report.state = .sending || s.report.state = .awaitReply) &&
    (match s.record .collection with
      | some r => r.snapshot.isSome
      | none => false)

/-- R52: TALLY_RELEASE judged. -/
def State.releaseTally (s : State) : State × Reply :=
  if s.comp.closedTally = none then (s, .refused .notFound)
  else if s.lateCycle then (s, .refused .state)
  else if s.collectionInReport then (s, .refused .state)
  else (s.releaseClosedTally, .done .empty)

/-- TALLY_RELEASE (R52). -/
def execTallyRelease (port : Port) (tag : Byte) (body : List Byte) (s : State) : Host.Outcome State Fault Refusal :=
  .next (s.whilePowered (State.serve port 17 tag body (ofLength 0) State.releaseTally))

/-! ## The tariff table -/

/-- R56, R57, R60, R61: TARIFF_PUT of an offer. -/
def State.putTariff (body : List Byte) (s : State) : State × Reply :=
  let now := s.clock.time.toMinute
  match tariffOffer body with
  | none => (s, .refused .invalid)
  | some o =>
    if o.acceptable now then
      let put :=
        if o.toDefault then s.tariff.putDefault o.content
        else if o.replace then s.tariff.putReplace now o.content
        else s.tariff.putNew now o.content
      (s.setTariff put.1, put.2)
    else (s, .refused .invalid)

/-- TARIFF_PUT (R56, R57, R60, R61). -/
def execTariffPut (port : Port) (tag : Byte) (body : List Byte) (s : State) : Host.Outcome State Fault Refusal :=
  .next (s.whilePowered (State.serve port 1 tag body (ofLength 42) (State.putTariff body)))

/-- TARIFF_GET (R74). -/
def execTariffGet (port : Port) (tag : Byte) (body : List Byte) (s : State) : Host.Outcome State Fault Refusal :=
  .next (s.whilePowered
    (State.serve port 2 tag body (ofLength 1) (reading (fun s => s.tariff.get (byteAt body 0)))))

/-- R58, R63: TARIFF_WITHDRAW. -/
def State.withdrawTariff (slot : Nat) (s : State) : State × Reply :=
  let out := s.tariff.withdraw slot
  (s.setTariff out.1, out.2)

/-- TARIFF_WITHDRAW (R58, R63). -/
def execTariffWithdraw (port : Port) (tag : Byte) (body : List Byte) (s : State) : Host.Outcome State Fault Refusal :=
  .next (s.whilePowered (State.serve port 3 tag body (ofLength 1) (State.withdrawTariff (byteAt body 0))))

/-- R73: TARIFF_FIND judged. -/
def State.findTariff (body : List Byte) (s : State) : Reply :=
  match symbolString body with
  | some dialled => if dialled = [] ∨ 20 < dialled.length then .refused .invalid else .done (s.tariff.find dialled)
  | none => .refused .invalid

/-- TARIFF_FIND (R73). -/
def execTariffFind (port : Port) (tag : Byte) (body : List Byte) (s : State) : Host.Outcome State Fault Refusal :=
  .next (s.whilePowered (State.serve port 4 tag body symbolStringFits (reading (State.findTariff body))))

/-- R75: TARIFF_SCAN judged. -/
def State.scanTariff (body : List Byte) (s : State) : Reply :=
  match filterOfCode (byteAt body 1) with
  | some filter => if 239 < byteAt body 0 then .refused .invalid else .done (s.tariff.scan (byteAt body 0) filter)
  | none => .refused .invalid

/-- TARIFF_SCAN (R75). -/
def execTariffScan (port : Port) (tag : Byte) (body : List Byte) (s : State) : Host.Outcome State Fault Refusal :=
  .next (s.whilePowered (State.serve port 5 tag body (ofLength 2) (reading (State.scanTariff body))))

/-! ## Clock, holidays and bands -/

/-- R79: CLOCK_SET judged and taken. The second that now begins is a whole one (log entry 19). -/
def State.setTime (body : List Byte) (s : State) : State × Reply :=
  let t := clockTimeAt body 0
  if t.valid then
    let s₁ := s.setClock
      { s.clock with time := t, weekday := t.date.weekday, unset := false, nextSecond := s.now + Config.secondMs }
    let s₂ := (s₁.makeNormal .clock).evaluateTable
    (s₂.setClock s₂.clock.formBand, .done .empty)
  else (s, .refused .invalid)

/-- CLOCK_SET (R79). -/
def execClockSet (port : Port) (tag : Byte) (body : List Byte) (s : State) : Host.Outcome State Fault Refusal :=
  .next (s.whilePowered (State.serve port 13 tag body (ofLength 6) (State.setTime body)))

/-- R81: what CLOCK_GET gives. -/
def StationClock.view (c : StationClock) : ResponseBody := .clock c.time c.weekday c.dayType c.band c.unset

/-- CLOCK_GET (R81). -/
def execClockGet (port : Port) (tag : Byte) (body : List Byte) (s : State) : Host.Outcome State Fault Refusal :=
  .next (s.whilePowered (State.serve port 14 tag body (ofLength 0) (reading (fun s => .done s.clock.view))))

/-- R83: HOLIDAY_SET judged and taken. -/
def State.setHolidays (body : List Byte) (s : State) : State × Reply :=
  let dates := holidaysAt body 1 (byteAt body 0)
  if byteAt body 0 ≤ 24 ∧ dates.all Date.valid ∧ strictlyIncreasing (dates.map Date.key) then
    (s.setClock { s.clock with holidays := dates }.formBand, .done .empty)
  else (s, .refused .invalid)

/-- HOLIDAY_SET (R83). -/
def execHolidaySet (port : Port) (tag : Byte) (body : List Byte) (s : State) : Host.Outcome State Fault Refusal :=
  .next (s.whilePowered (State.serve port 8 tag body (countedFits 1 2) (State.setHolidays body)))

/-- HOLIDAY_GET (R83). -/
def execHolidayGet (port : Port) (tag : Byte) (body : List Byte) (s : State) : Host.Outcome State Fault Refusal :=
  .next (s.whilePowered (State.serve port 9 tag body (ofLength 0)
    (reading (fun s => .done (.holidays s.clock.holidays.length s.clock.holidays)))))

/-- `k` switch points as minute and band, from byte `i` on. -/
def pointsAt (body : List Byte) (i : Nat) : Nat → List (Nat × Nat)
  | 0 => []
  | k + 1 => (word2 body i, byteAt body (i + 2)) :: pointsAt body (i + 3) k

/-- A switch point from its minute and band, where both lie in their ranges. -/
def switchPoint (p : Nat × Nat) : Option SwitchPoint :=
  if h : p.2 < 4 then if p.1 ≤ 1439 then some ⟨p.1, ⟨p.2, h⟩⟩ else none else none

/-- Switch points from minutes and bands; none where one lies out of range. -/
def switchPoints : List (Nat × Nat) → Option (List SwitchPoint)
  | [] => some []
  | p :: rest =>
    match switchPoint p, switchPoints rest with
    | some q, some qs => some (q :: qs)
    | _, _ => none

/-- R85: the schedule a BAND_SET carries, where it is one that is accepted. -/
def scheduleOf (body : List Byte) : Option (List SwitchPoint) :=
  match switchPoints (pointsAt body 2 (byteAt body 1)) with
  | some points =>
    if points.length ≤ 6 ∧ (points.head?.map SwitchPoint.minute) = some 0 ∧
      strictlyIncreasing (points.map SwitchPoint.minute) then some points else none
  | none => none

/-- R85: BAND_SET judged and taken. -/
def State.setBands (body : List Byte) (s : State) : State × Reply :=
  match dayTypeOfCode (byteAt body 0), scheduleOf body with
  | some day, some points =>
    let clock := s.clock.setSchedule points day
    (s.setClock (if day = s.clock.dayType then clock.formBand else clock), .done .empty)
  | _, _ => (s, .refused .invalid)

/-- BAND_SET (R85). -/
def execBandSet (port : Port) (tag : Byte) (body : List Byte) (s : State) : Host.Outcome State Fault Refusal :=
  .next (s.whilePowered (State.serve port 6 tag body (countedFits 2 3) (State.setBands body)))

/-- R85: BAND_GET judged. -/
def State.getBands (code : Nat) (s : State) : Reply :=
  match dayTypeOfCode code with
  | some day =>
    let points := s.clock.schedule day
    .done (.schedule points.length points s.clock.dayType s.clock.band)
  | none => .refused .invalid

/-- BAND_GET (R85). -/
def execBandGet (port : Port) (tag : Byte) (body : List Byte) (s : State) : Host.Outcome State Fault Refusal :=
  .next (s.whilePowered (State.serve port 7 tag body (ofLength 1) (reading (State.getBands (byteAt body 0)))))

/-! ## Rating flags -/

/-- R109: the accrued rating flags returned and cleared. -/
def State.readClearFlags (s : State) : State × Reply :=
  (s.setRating { s.rating with accrued := .empty }, .done (.callFlags s.rating.accrued))

/-- FLAGS_READ_CLEAR (R109). -/
def execFlagsReadClear (port : Port) (tag : Byte) (body : List Byte) (s : State) : Host.Outcome State Fault Refusal :=
  .next (s.whilePowered (State.serve port 21 tag body (ofLength 0) State.readClearFlags))

/-! ## Conditions -/

/-- R163, R19: a latched, active record of a normal source cleared; the clearing of REFUND_GATE requests a refund. -/
def State.clearCondition (src : Source) (s : State) : State :=
  let s₁ := s.clearRecord src
  if src = .refundGate then s₁.requestRefund false false else s₁

/-- R163: CONDITION_CLEAR of a source judged. -/
def State.judgeClear (src : Source) (s : State) : State × Reply :=
  match s.record src with
  | none => (s, .refused .notFound)
  | some r =>
    if latched src r = false then (s, .refused .state)
    else if r.state = .cleared then (s, .done .empty)
    else if s.normal src then (s.clearCondition src, .done .empty)
    else (s, .refused .state)

/-- R163: CONDITION_CLEAR of a source code. -/
def State.clearCode (code : Nat) (s : State) : State × Reply :=
  match Source.ofCode code with
  | some src => s.judgeClear src
  | none => (s, .refused .invalid)

/-- CONDITION_CLEAR (R163). -/
def execConditionClear (port : Port) (tag : Byte) (body : List Byte) (s : State) : Host.Outcome State Fault Refusal :=
  .next (s.whilePowered
    (State.creditStep (State.serve port 19 tag body (ofLength 1) (State.clearCode (byteAt body 0)))))

/-- R169: CONDITION_GET of a source code, or of the summary. -/
def State.getCondition (code : Nat) (s : State) : Reply :=
  if code = 0 then .done s.summaryBody
  else
    match Source.ofCode code with
    | some src => .done (s.conditionBody src)
    | none => .refused .invalid

/-- CONDITION_GET (R169). -/
def execConditionGet (port : Port) (tag : Byte) (body : List Byte) (s : State) : Host.Outcome State Fault Refusal :=
  .next (s.whilePowered (State.serve port 18 tag body (ofLength 1) (reading (State.getCondition (byteAt body 0)))))

/-! ## Reports -/

/-- R174: REPORT_NOW taken. -/
def State.reportNow (s : State) : State × Reply :=
  match s.report.state with
  | .idle | .scheduled | .deferred => (s.scheduleNow, .done .empty)
  | .waitLine | .calling | .sending | .awaitReply | .releasing =>
    (s.setReport { s.report with renewal := true }, .done .empty)

/-- REPORT_NOW (R174). -/
def execReportNow (port : Port) (tag : Byte) (body : List Byte) (s : State) : Host.Outcome State Fault Refusal :=
  .next (s.whilePowered (State.serve port 20 tag body (ofLength 0) State.reportNow))

/-! ## Status and coin classes -/

/-- STATUS_GET (section 11.2, R40). -/
def execStatusGet (port : Port) (tag : Byte) (body : List Byte) (s : State) : Host.Outcome State Fault Refusal :=
  .next (s.whilePowered (State.serve port 15 tag body (ofLength 0) (reading (fun s => .done (.status s.statusView)))))

/-- A coded byte that says off or on. -/
def onOffOfCode : Nat → Option Bool
  | 0 => some false
  | 1 => some true
  | _ => none

/-- R3: COIN_CLASS_SET judged and taken. -/
def State.setCoinClass (body : List Byte) (s : State) : State × Reply :=
  if h : byteAt body 0 < 16 then
    match onOffOfCode (byteAt body 3) with
    | some enabled =>
      if word2 body 1 ≤ 5000 then
        (s.setSettings
          { s.settings with classes := s.settings.classes.set (byteAt body 0) ⟨word2 body 1, enabled⟩ }, .done .empty)
      else (s, .refused .invalid)
    | none => (s, .refused .invalid)
  else (s, .refused .invalid)

/-- COIN_CLASS_SET (R3). -/
def execCoinClassSet (port : Port) (tag : Byte) (body : List Byte) (s : State) : Host.Outcome State Fault Refusal :=
  .next (s.whilePowered (State.serve port 10 tag body (ofLength 4) (State.setCoinClass body)))

/-- R3: COIN_CLASS_GET judged. -/
def State.getCoinClass (cls : Nat) (s : State) : Reply :=
  if h : cls < 16 then .done (.coinClass s.settings.classes[cls]) else .refused .invalid

/-- COIN_CLASS_GET (R3). -/
def execCoinClassGet (port : Port) (tag : Byte) (body : List Byte) (s : State) : Host.Outcome State Fault Refusal :=
  .next (s.whilePowered (State.serve port 11 tag body (ofLength 1) (reading (State.getCoinClass (byteAt body 0)))))

/-! ## Settings -/

/-- A value held within a range (section 4.5 of 00_scope.md). -/
def clamp (low high x : Nat) : Nat := max low (min high x)

/-- DONE, or DONE_CLAMPED where a value was clamped. -/
def clampReply (clamped : Bool) : Reply := if clamped then .doneClamped else .done .empty

/-- Section 11.8: the dialling method codes. -/
def methodOfCode : Nat → Option DialMethod
  | 0 => some .tone
  | 1 => some .pulse
  | _ => none

/-- Section 11.8: the answer mode codes. -/
def answerModeOfCode : Nat → Option AnswerMode
  | 0 => some .signalled
  | 1 => some .presumed
  | _ => none

/-- R190, R92: the default rounding codes; DEFAULT is refused. -/
def stationRounding (code : Nat) : Option Rounding :=
  match roundingOfCode code with
  | some (.fixed r) => some r
  | _ => none

/-- R157: the numbers of an assignment's times as a SETTING_SET gives them, before they are clamped. -/
def assignmentNumbers (body : List Byte) : List Nat :=
  [word2 body 5, byteAt body 7, byteAt body 8, word2 body 9, word2 body 11]

/-- R157: an assignment offered by SETTING_SET, its numbers clamped, and whether one was; none where a name is unknown. -/
def assignmentOf (body : List Byte) : Option (Assignment × Bool) :=
  match inputTypeOfCode (byteAt body 2), polarityOfCode (byteAt body 3), inputModeOfCode (byteAt body 4) with
  | some type, some polarity, some mode =>
    match restrictionOfCode type (byteAt body 13) with
    | some restriction =>
      let a : Assignment :=
        { type := type, polarity := polarity, mode := mode, qualifyMs := clamp 10 10000 (word2 body 5),
          count := clamp 2 15 (byteAt body 7), window := clamp 1 60 (byteAt body 8),
          holdOff := clamp 0 600 (word2 body 9), clearDelay := clamp 1 600 (word2 body 11), restriction := restriction }
      some (a, [a.qualifyMs, a.count, a.window, a.holdOff, a.clearDelay] ≠ assignmentNumbers body)
    | none => none
  | _, _, _ => none

/-- R158: an accepted assignment applied to an input: at once where it is UNUSED or the input is at rest, and otherwise
staged. -/
def State.applyAssignment (i : Fin 8) (a : Assignment) (clamped : Bool) (s : State) : State × Reply :=
  if a.type = .unused then (s.unuseInput i a, clampReply clamped)
  else if s.sup.inputs[i].atRest then (s.assignInput i a, clampReply clamped)
  else (s.setInput i { s.sup.inputs[i] with staged := some a }, .doneDeferred .empty)

/-- R157: SETTING_SET of an input assignment. -/
def State.setAssignment (body : List Byte) (s : State) : State × Reply :=
  if h : byteAt body 1 < 8 then
    match assignmentOf body with
    | some (a, clamped) => s.applyAssignment ⟨byteAt body 1, h⟩ a clamped
    | none => (s, .refused .invalid)
  else (s, .refused .invalid)

/-- R165, R174: a source's report enable changed: off, a CLEARED record is retired unless it is in report; on, an outstanding
record is taken by the report unit as an occurrence of its severity. -/
def State.setEnable (src : Source) (on : Bool) (s : State) : State :=
  let s₁ := s.setSettings { s.settings with reportEnable := s.settings.reportEnable.set src.idx on }
  if on then
    match s₁.record src with
    | some r => if s.reportEnabled src = false ∧ s₁.outstanding src then s₁.reportTrigger r.severity else s₁
    | none => s₁
  else s₁.retireIfDue src

/-- R190: a setting taken that has no effect of its own. -/
def State.takeSetting (st : Settings) (s : State) : State × Reply := (s.setSettings st, .done .empty)

/-- R190: SETTING_SET of the station number. -/
def State.setStationNumber (value : List Byte) (s : State) : State × Reply :=
  match symbolString value with
  | some x =>
    if 1 ≤ x.length ∧ x.length ≤ 12 ∧ holdsStarOrHash x = false then s.takeSetting { s.settings with stationNumber := x }
    else (s, .refused .invalid)
  | none => (s, .refused .invalid)

/-- R190: SETTING_SET of the centre number. -/
def State.setCentreNumber (value : List Byte) (s : State) : State × Reply :=
  match symbolString value with
  | some x => if x.length ≤ 20 then s.takeSetting { s.settings with centreNumber := x } else (s, .refused .invalid)
  | none => (s, .refused .invalid)

/-- R46, R190: SETTING_SET of the cashbox thresholds, judged at once. -/
def State.setThresholds (near full : Nat) (s : State) : State × Reply :=
  if 1 ≤ near ∧ near ≤ 65534 ∧ 2 ≤ full ∧ full ≤ 65535 ∧ near < full then
    ((s.setSettings { s.settings with near := near, full := full }).judgeThresholds, .done .empty)
  else (s, .refused .invalid)

/-- R190: SETTING_SET of a source's report enable. -/
def State.setReportEnable (code value : Nat) (s : State) : State × Reply :=
  match Source.ofCode code, onOffOfCode value with
  | some src, some on => (s.setEnable src on, .done .empty)
  | _, _ => (s, .refused .invalid)

/-- R190: SETTING_SET, by setting code. -/
def State.setSetting (body : List Byte) (s : State) : State × Reply :=
  match byteAt body 0 with
  | 1 => s.setStationNumber (body.drop 1)
  | 2 => s.setCentreNumber (body.drop 1)
  | 3 =>
    match methodOfCode (byteAt body 1) with
    | some m => s.takeSetting { s.settings with method := m }
    | none => (s, .refused .invalid)
  | 4 =>
    match answerModeOfCode (byteAt body 1) with
    | some m => s.takeSetting { s.settings with answerMode := m }
    | none => (s, .refused .invalid)
  | 5 =>
    let x := word2 body 1
    (s.setSettings { s.settings with presumedDelay := clamp 1 60 x }, clampReply (clamp 1 60 x ≠ x))
  | 6 =>
    let x := word2 body 1
    (s.setSettings { s.settings with warningLead := clamp 5 60 x }, clampReply (clamp 5 60 x ≠ x))
  | 7 =>
    match stationRounding (byteAt body 1) with
    | some r => s.takeSetting { s.settings with rounding := r }
    | none => (s, .refused .invalid)
  | 8 => s.setThresholds (word2 body 1) (word2 body 3)
  | 9 =>
    if word2 body 1 ≤ 1439 then s.takeSetting { s.settings with dailyReport := word2 body 1 }
    else (s, .refused .invalid)
  | 10 => s.setReportEnable (byteAt body 1) (byteAt body 2)
  | 11 => s.setAssignment body
  | _ => (s, .refused .invalid)

/-- SETTING_SET (R190, R157). -/
def execSettingSet (port : Port) (tag : Byte) (body : List Byte) (s : State) : Host.Outcome State Fault Refusal :=
  .next (s.whilePowered (State.serve port 12 tag body settingSetFits (State.setSetting body)))

/-- R190: SETTING_GET of a source's report enable. -/
def State.getReportEnable (code : Nat) (s : State) : Reply :=
  match Source.ofCode code with
  | some src => .done (.setting (.enable (s.reportEnabled src)))
  | none => .refused .invalid

/-- R190: SETTING_GET of an input's assignments. -/
def State.getAssignment (i : Nat) (s : State) : Reply :=
  if h : i < 8 then .done (.setting (.assignment s.sup.inputs[i].assignment s.sup.inputs[i].staged))
  else .refused .invalid

/-- R190: SETTING_GET, by setting code. -/
def State.getSetting (body : List Byte) (s : State) : Reply :=
  match byteAt body 0 with
  | 1 => .done (.setting (.symbols s.settings.stationNumber))
  | 2 => .done (.setting (.symbols s.settings.centreNumber))
  | 3 => .done (.setting (.method s.settings.method))
  | 4 => .done (.setting (.answerMode s.settings.answerMode))
  | 5 => .done (.setting (.number s.settings.presumedDelay))
  | 6 => .done (.setting (.number s.settings.warningLead))
  | 7 => .done (.setting (.rounding s.settings.rounding))
  | 8 => .done (.setting (.thresholds s.settings.near s.settings.full))
  | 9 => .done (.setting (.number s.settings.dailyReport))
  | 10 => s.getReportEnable (byteAt body 1)
  | 11 => s.getAssignment (byteAt body 1)
  | _ => .refused .invalid

/-- SETTING_GET (R190). -/
def execSettingGet (port : Port) (tag : Byte) (body : List Byte) (s : State) : Host.Outcome State Fault Refusal :=
  .next (s.whilePowered (State.serve port 26 tag body settingGetFits (reading (State.getSetting body))))

/-! ## Attention -/

/-- ATTENTION_GET (R189). -/
def execAttentionGet (port : Port) (tag : Byte) (body : List Byte) (s : State) : Host.Outcome State Fault Refusal :=
  .next (s.whilePowered (State.serve port 22 tag body (ofLength 0)
    (reading (fun s => .done (.attention s.attention.flags s.attention.mask)))))

/-- R189: the flags a byte names cleared. -/
def State.ackAttention (b : Byte) (s : State) : State × Reply :=
  (s.setAttention { s.attention with flags := s.attention.flags.clear (AttentionFlags.ofByte b) }, .done .empty)

/-- ATTENTION_ACK (R189). -/
def execAttentionAck (port : Port) (tag : Byte) (body : List Byte) (s : State) : Host.Outcome State Fault Refusal :=
  .next (s.whilePowered (State.serve port 23 tag body (ofLength 1) (State.ackAttention (body.getD 0 0))))

/-- R189: the mask replaced. -/
def State.maskAttention (b : Byte) (s : State) : State × Reply :=
  (s.setAttention { s.attention with mask := AttentionFlags.ofByte b }, .done .empty)

/-- ATTENTION_MASK (R189). -/
def execAttentionMask (port : Port) (tag : Byte) (body : List Byte) (s : State) : Host.Outcome State Fault Refusal :=
  .next (s.whilePowered (State.serve port 24 tag body (ofLength 1) (State.maskAttention (body.getD 0 0))))

/-! ## Station initialisation -/

/-- R149: the session end that STATION_INIT brings, in every session state. DEDUCED (log entry 42): "the event count is
unchanged" is taken to say that the request does not reset the count; the ENDED of a call it ends is recorded and counted as
R142 and R147 give. -/
def State.initSession (s : State) : State :=
  match s.session.state with
  | .idle => (s.endSession .stationInit).departIdle
  | .clearing => s.requestRefund false true
  | .dialWait | .collecting | .awaitCredit | .placing | .ringing | .connected | .ended => s.endSession .stationInit

/-- R193: STATION_INIT. -/
def State.stationInit (s : State) : State × Reply :=
  let s₁ := s.resetReport.initSession
  let s₂ := s₁.setSession { s₁.session with buffer := [], timer := none }
  let s₃ := s₂.setRating { s₂.rating with accrued := .empty }
  let s₄ := (s₃.setLine { s₃.line with streak := 0 }).setCoin { s₃.coin with streak := 0 }
  (s₄.setAttention { s₄.attention with flags := .none }, .done .empty)

/-- STATION_INIT (R193). -/
def execStationInit (port : Port) (tag : Byte) (body : List Byte) (s : State) : Host.Outcome State Fault Refusal :=
  .next (s.whilePowered (State.serve port 25 tag body (ofLength 0) State.stationInit))

/-! ## Reads and unknown kinds -/

/-- RESPONSE_READ (R187). -/
def execResponseRead (port : Port) (s : State) : Host.Outcome State Fault Refusal :=
  .next (s.whilePowered (State.readResponse port))

/-- UNKNOWN_REQUEST (R186): refused FORMAT whatever its body. On the host port a first byte of 0 is no request but a read
transfer (R187). -/
def execUnknownRequest (port : Port) (kind tag : Byte) (body : List Byte) (s : State) :
    Host.Outcome State Fault Refusal :=
  .next (s.whilePowered
    (if kindReachesPort port kind then
      State.serve port kind.toNat tag body (fun _ => false) (reading (fun _ => .refused .format))
    else State.readResponse port))

end Sys2Proof.Machine
end

