-- ==== Sys2Proof/Machine/SessionCommands.lean ====
section
/-! DEFINITION. The commands of the user session (chapter 8): the hook, the end of clearing, the keypad and the session
timers. -/

namespace Sys2Proof.Machine

/-! ## The hook -/

/-- R128, R129: a qualified off-hook. -/
def State.liftHandset (s : State) : State :=
  if s.session.hook = .off then s
  else
    let s₁ := s.setSession { s.session with hook := .off }
    if s₁.session.state = .idle then s₁.openSession else s₁

/-- OFF_HOOK (R129). -/
def execOffHook (s : State) : Host.Outcome State Fault Refusal := .next (s.whilePowered State.liftHandset)

/-- R128, R130: a qualified on-hook. -/
def State.replaceHandset (s : State) : State :=
  if s.session.hook = .on then s
  else
    let s₁ := s.setSession { s.session with hook := .on }
    match s₁.session.state with
    | .idle | .clearing => s₁
    | .dialWait | .collecting | .awaitCredit | .placing | .ringing | .connected | .ended => s₁.endSession .onHook

/-- ON_HOOK (R130). -/
def execOnHook (s : State) : Host.Outcome State Fault Refusal := .next (s.whilePowered State.replaceHandset)

/-- R131: whether the clearing has ended: the account is closed and the session end's refund has ended. -/
def State.clearingStands (s : State) : Bool :=
  s.session.state = .clearing && s.credit.account = .notOpen && !s.coin.sessionRefundStands

/-- R131: the session enters IDLE; with the hook OFF it opens a new session at the same instant. DESIGN CHOICE (log entry 52): it
leaves IDLE again in the same step, before any grant and before a retry timer held at zero expires. So a report request that waits
is not granted and preempted at that instant, and the attempt of that timer does not begin there, where R113 and R172 allow either
order. -/
def State.endClearing (s : State) : State :=
  if s.clearingStands then
    let s₁ := (s.setSession { s.session with state := .idle }).recordEvent .closed none none none none
    let s₂ := s₁.returnIdle
    if s₂.session.hook = .off then s₂.openSession else s₂
  else s

/-- CLEARING_END (R131). -/
def execClearingEnd (s : State) : Host.Outcome State Fault Refusal := .next (s.whilePowered State.endClearing)

/-! ## The keypad -/

/-- A key's state replaced. -/
def State.setKey (key : Key) (x : KeyState) (s : State) : State :=
  s.setSession { s.session with keys := s.session.keys.set key.idx x }

/-- R134: a symbol appended to the buffer, with the inter-symbol timer and the analyser's verdict. -/
def State.appendSymbol (sym : Symbol) (s : State) : State :=
  let s₁ := s.setSession { s.session with
    state := .collecting
    buffer := s.session.buffer ++ [sym]
    timer := some ⟨.interSymbol, s.now + Config.interSymbolMs⟩ }
  let dialled := s₁.session.buffer
  s₁.takeVerdict ((s₁.tariff.dialledVerdict dialled).forMethod s₁.settings.method dialled)

/-- R134, R145: a symbol key press taken according to the session state. -/
def State.takeSymbol (sym : Symbol) (s : State) : State :=
  if s.sup.level = .closed then s
  else
    match s.session.state with
    | .dialWait | .ended => (s.setSession { s.session with buffer := [] }).appendSymbol sym
    | .collecting => if s.session.buffer.length < 20 then s.appendSymbol sym else s
    | .connected => s.sendTones .session [sym]
    | .idle | .awaitCredit | .placing | .ringing | .clearing => s

/-- R132: a key press: a released key becomes pressed, and its press is taken. -/
def State.pressKey (key : Key) (take : State → State) (s : State) : State :=
  if s.session.keys[key.idx] = .released then take (s.setKey key (.pressed s.now)) else s

/-- SYMBOL_KEY_PRESS (R132, R134, R145). -/
def execSymbolKeyPress (sym : Symbol) (s : State) : Host.Outcome State Fault Refusal :=
  .next (s.whilePowered (State.pressKey (.symbol sym) (State.takeSymbol sym)))

/-- R144: a FOLLOW_ON press taken according to the session state. -/
def State.takeFollowOn (s : State) : State :=
  match s.session.state with
  | .awaitCredit | .placing | .ringing | .connected => (s.endCall .followOn).enterDialWait
  | .dialWait | .collecting | .ended => s.enterDialWait
  | .idle | .clearing => s

/-- FOLLOW_ON_PRESS (R132, R144). -/
def execFollowOnPress (s : State) : Host.Outcome State Fault Refusal :=
  .next (s.whilePowered (State.pressKey .followOn State.takeFollowOn))

/-- R132: a key stays pressed for 30 s and becomes stuck; the first makes KEYPAD abnormal. -/
def State.stickKey (key : Key) (s : State) : State :=
  match s.session.keys[key.idx] with
  | .pressed since =>
    let s₁ := (s.reach (since + Config.keyStuckMs)).setKey key .stuck
    if s₁.normal .keypad then s₁.becomeAbnormal .keypad .keypadStuck .fault else s₁
  | .released | .stuck => s

/-- KEY_STUCK (R132). -/
def execKeyStuck (key : Key) (s : State) : Host.Outcome State Fault Refusal :=
  .next (s.whilePowered (State.stickKey key))

/-- R132: whether any key is stuck. -/
def Session.anyStuck (x : Session) : Bool := x.keys.toList.any (fun k => k = .stuck)

/-- R132: a key released; when no key remains stuck KEYPAD becomes normal. -/
def State.releaseKey (key : Key) (s : State) : State :=
  let s₁ := s.setKey key .released
  if s₁.session.anyStuck ∨ s₁.normal .keypad then s₁ else s₁.makeNormal .keypad

/-- KEY_RELEASE (R132). -/
def execKeyRelease (key : Key) (s : State) : Host.Outcome State Fault Refusal :=
  .next (s.whilePowered (State.releaseKey key))

/-! ## The session timers -/

/-- The session timer of a kind, if it is the one running. -/
def Session.timerOf (x : Session) (kind : TimerKind) : Option Nat :=
  match x.timer with
  | some t => if t.kind = kind then some t.expiresAt else none
  | none => none

/-- R136: the first-symbol timer expires. -/
def State.expireFirstSymbol (s : State) : State :=
  match s.session.timerOf .firstSymbol with
  | some t => (s.reach t).refuseNumber .noSymbol none
  | none => s

/-- FIRST_SYMBOL_TIMEOUT (R136). -/
def execFirstSymbolTimeout (s : State) : Host.Outcome State Fault Refusal :=
  .next (s.whilePowered State.expireFirstSymbol)

/-- R71, R136: the inter-symbol timer expires, and the timeout verdict is taken. -/
def State.expireInterSymbol (s : State) : State :=
  match s.session.timerOf .interSymbol with
  | some t =>
    let s₁ := (s.reach t).setSession { s.session with timer := none }
    let dialled := s₁.session.buffer
    s₁.takeVerdict ((s₁.tariff.timeoutVerdict dialled).forMethod s₁.settings.method dialled)
  | none => s

/-- INTER_SYMBOL_TIMEOUT (R71, R136). -/
def execInterSymbolTimeout (s : State) : Host.Outcome State Fault Refusal :=
  .next (s.whilePowered State.expireInterSymbol)

/-- R139: the credit wait timer expires. -/
def State.expireCreditWait (s : State) : State :=
  match s.session.timerOf .creditWait with
  | some t => (s.reach t).endCallToEnded .creditTimeout
  | none => s

/-- CREDIT_WAIT_TIMEOUT (R139). -/
def execCreditWaitTimeout (s : State) : Host.Outcome State Fault Refusal :=
  .next (s.whilePowered State.expireCreditWait)

end Sys2Proof.Machine
end

