-- ==== Sys2Proof/Machine/Supply.lean ====
section
/-! DEFINITION. The supplies (chapter 11): the losses of the main and the backup supply, the judgement of the retained
regions (R191) and the start-up, in the order of R192. -/

namespace Sys2Proof.Machine

/-! ## Losses -/

/-- R166: a record's active seconds banked, as its counting stops with the main supply (log entry 20). -/
def ConditionRecord.bank (now : Nat) (r : ConditionRecord) : ConditionRecord := r.recount now false

/-- R166: every record's active seconds banked. -/
def State.bankActive (s : State) : State :=
  s.setSup { s.sup with records := s.sup.records.map (fun r => r.map (ConditionRecord.bank s.now)) }

/-- R191: the main supply is lost: every region stays as its last whole change left it. -/
def State.loseMain (s : State) : State :=
  if s.supplies.main then s.bankActive.setSupplies { s.supplies with main := false, backupLost := false } else s

/-- MAIN_SUPPLY_LOSS (R191). -/
def execMainSupplyLoss (s : State) : Host.Outcome State Fault Refusal := .next s.loseMain

/-- R191: the backup supply fails while the main supply is lost. -/
def State.loseBackup (s : State) : State :=
  if s.supplies.main then s else s.setSupplies { s.supplies with backupLost := true }

/-- BACKUP_SUPPLY_LOSS (R191). -/
def execBackupSupplyLoss (s : State) : Host.Outcome State Fault Refusal := .next s.loseBackup

/-! ## The regions (step 1) -/

/-- The six regions in the order of section 11.5. -/
def Region.all : List Region := [.tariff, .bands, .settings, .accounts, .escrow, .clock]

/-- R191: the regions that failed their check; none is checked when the backup supply was lost. -/
def State.failedRegions (readings : StartReadings) (s : State) : List Region :=
  if s.supplies.backupLost then [] else Region.all.filter (fun r => r ∈ readings.failed)

/-- R191: whether a region takes its defaults. -/
def State.defaulted (readings : StartReadings) (s : State) (r : Region) : Bool :=
  s.supplies.backupLost || r ∈ readings.failed

/-- R87, R88: the clock and band unit as the bands and clock regions leave it. -/
def StationClock.restart (now : Nat) (bandsLost clockLost : Bool) (c : StationClock) : StationClock :=
  let c₁ :=
    if bandsLost then
      { c with weekdaySchedule := [⟨0, 0⟩], saturdaySchedule := [⟨0, 0⟩], holidaySchedule := [⟨0, 0⟩], holidays := [] }
    else c
  if clockLost then
    { c₁ with time := .regionDefault, weekday := .saturday, unset := true, nextSecond := now + Config.secondMs }
  else { c₁ with unset := false }

/-- R158, R170: an input at start-up: its retained staged assignment takes effect, and its reading, window, hold-off and
clear delay begin afresh. -/
def SupervisedInput.restart (lost : Bool) (x : SupervisedInput) : SupervisedInput :=
  if lost then .unused else { SupervisedInput.unused with assignment := x.staged.getD x.assignment }

/-- R191: the accounts region as start-up finds it. -/
def Compartment.restart (lost : Bool) (c : Compartment) : Compartment :=
  if lost then { c with current := .zero, closedTally := none, presence := .absent, generation := 0 }
  else { c with generation := 0 }

/-- R192 steps 1 and 2: a start-up's blocks, with the defaults of some regions written and the volatile state at its start-up
values. -/
def State.restartWith (lost : Region → Bool) (supplies : Supplies) (s : State) : State :=
  { pending := s.pending
    now := s.now
    supplies := supplies
    coin := .startUp (if lost .escrow then [] else s.coin.column)
    credit := .startUp (if lost .escrow then 0 else s.credit.banked)
    comp := s.comp.restart (lost .accounts)
    tariff := if lost .tariff then .regionDefault else s.tariff
    clock := s.clock.restart s.now (lost .bands) (lost .clock)
    rating := .startUp
    line := .startUp
    session := .startUp
    sup :=
      { inputs := s.sup.inputs.map (SupervisedInput.restart (lost .settings))
        records := if lost .accounts then Vector.replicate 22 none else s.sup.records
        abnormal := Vector.replicate 22 false
        level := .full
        levelSince := s.now }
    report := .startUp
    settings := if lost .settings then .initial else s.settings
    attention := { flags := .none, mask := .none }
    hostPort := .startUp
    servicePort := .startUp }

/-- R191, R192 steps 1 and 2: the regions judged and the volatile state at its start-up values. -/
def State.restartBlocks (readings : StartReadings) (s : State) : State :=
  s.restartWith (s.defaulted readings)
    { main := true, backupLost := false, outcomeBackupHeld := !s.supplies.backupLost,
      outcomeFailed := s.failedRegions readings }

/-! ## The tariff table and the bands (step 3) -/

/-- R76, R88: pins cleared as releases, the table evaluated once without TABLE_CHANGED, and the band formed. -/
def State.restartTables (s : State) : State :=
  let table := s.tariff.releaseAll
  (s.setTariff { table with records := evaluate s.clock.time.toMinute table.records }).setClock s.clock.formBand

/-! ## The compartment (step 4) -/

/-- R170: a source's normality at start-up, as its owner reports it before the compartment's readings are taken. -/
def State.startAbnormal (s : State) : Source → Bool
  | .coinPath | .collectGate | .refundGate | .returnCup | .keypad | .retention => false
  | .coinSlot => s.recordActive .coinSlot
  | .line => s.recordActive .line
  | .dialtone => s.recordActive .dialtone
  | .input i => s.recordActive (.input i)
  | .clock => s.clock.unset
  | .collection => s.comp.closedTally.isSome
  | .compartment | .cashboxNear | .cashboxFull => false

/-- R170: the normality of the sources whose owners form it from retained state. -/
def State.takeNormality (s : State) : State :=
  Source.all.foldl (fun s src => s.setNormality src (s.startAbnormal src)) s

/-- R47, R55: the closure of a tally whose cashbox was removed while the supply was lost. -/
def State.startClosure (s : State) : State :=
  let forced := s.comp.forcedNow
  let s₁ := (s.setComp (s.comp.close forced)).setNormality .collection true
  let s₂ := s₁.recordOccurrence .collection .cashboxCollected .notice
  let s₃ := if forced then s₂.recordOccurrence .compartment .compartmentForced .alarm else s₂
  s₃.raise .tallyClosed

/-- R55: whether start-up finds the cashbox removed. -/
def State.removedAtStart (readings : StartReadings) (s : State) : Bool :=
  s.comp.presence = .present && readings.presence = .absent

/-- R55: whether the first readings are those of a forced entry. -/
def forcedEntryAt (readings : StartReadings) : Bool := readings.door = .opened && readings.key = .locked

/-- R46, R55: a threshold judged at start-up: an occurrence is raised only where no active record of it is retained. -/
def State.startThreshold (src : Source) (type : ConditionType) (severity : Severity) (reached : Bool) (s : State) : State :=
  if reached then
    let s₁ := s.setNormality src true
    if s₁.recordActive src then s₁ else s₁.recordOccurrence src type severity
  else s

/-- R55: the first readings of the compartment inputs, with the closure of a tally whose cashbox they show removed. -/
def State.takeReadings (readings : StartReadings) (s : State) : State :=
  let s₁ := (s.setComp { s.comp with door := readings.door, key := readings.key, presence := readings.presence }).setNormality
    .compartment (readings.door = .opened)
  if s.removedAtStart readings then s₁.startClosure else s₁

/-- R55: the forced entry that the first readings show. -/
def State.startForcedEntry (readings : StartReadings) (s : State) : State :=
  if forcedEntryAt readings then s.recordOccurrence .compartment .compartmentForced .alarm else s

/-- R46, R55: the near threshold judged at start-up. -/
def State.startNear (s : State) : State :=
  s.startThreshold .cashboxNear .cashboxNearFull .notice (s.settings.near ≤ s.comp.current.totalCoins)

/-- R46, R55: the full threshold judged at start-up. -/
def State.startFull (s : State) : State :=
  s.startThreshold .cashboxFull .cashboxFull .fault (s.settings.full ≤ s.comp.current.totalCoins)

/-- R55, R185: whether an ALARM occurrence is raised during start-up. -/
def State.alarmAtStart (readings : StartReadings) (s : State) : Bool :=
  forcedEntryAt readings || (s.removedAtStart readings && readings.key ≠ .collect)

/-! ## The supervision unit (step 5) -/

/-- R170: whether an input's line stands inactive. -/
def Assignment.inactiveAt (a : Assignment) (high : Bool) : Bool :=
  match a.polarity with
  | .high => !high
  | .low => high

/-- R170: an input whose source is abnormal begins its clear delay at start-up where its line stands inactive. DESIGN CHOICE
(log entry 44): an input that start-up leaves UNUSED while its record is kept active is read for this by the default
assignment, HIGH and 1 s, though R151 does not read an UNUSED input; otherwise its source would stay abnormal. DESIGN CHOICE (log
entry 50): where the line stands active at start-up no delay begins, and if it drops before the qualify time has run, none begins
until a later inactive change (R156), since the qualified reading has stayed inactive. -/
def State.startClearDelays (readings : StartReadings) (s : State) : State :=
  s.setSup { s.sup with
    inputs := Vector.ofFn (fun i =>
      let x := s.sup.inputs[i]
      if s.normal (.input i) = false ∧ x.assignment.inactiveAt readings.linesHigh[i] then
        { x with clearFrom := some s.now }
      else x) }

/-- R170: a retained record at start-up: its snapshot removed, cleared where it is unlatched, active and its source normal,
and retired where it is CLEARED with its enable off. -/
def State.settleRecord (src : Source) (s : State) : State := ((s.removeSnapshot src).clearIfNormal src).retireIfDue src

/-- R191: one RETENTION occurrence of start-up; the source is normal at all times, so an unlatched record clears at once. -/
def State.retentionOccurrence (s : State) : State :=
  (s.recordOccurrence .retention .retentionLost .notice).clearIfNormal .retention

/-- R80, R88: the CLOCK occurrence of a start-up that lost the time. -/
def State.clockOccurrence (s : State) : State :=
  if s.clock.unset then s.recordOccurrence .clock .clockUnset .notice else s

/-- R170: the level derived at start-up, without LEVEL_CHANGED. -/
def State.holdLevel (s : State) : State :=
  let s₁ := s.setSup { s.sup with level := s.sup.derivedLevel, levelSince := s.now }
  s₁.setAttention { s₁.attention with flags := { s₁.attention.flags with levelChanged := false } }

/-! ## Credit, the refund and the report unit (steps 6 to 9) -/

/-- R39: the retained B added to the current tally's forfeit sum, in the accounts region. -/
def State.addStartForfeit (s : State) : State := s.addForfeit s.credit.banked

/-- R39: B becomes 0, in the escrow region. -/
def State.clearBanked (s : State) : State := s.setCredit { s.credit with banked := 0 }

/-- R185: the report unit placed in SCHEDULED or IDLE. DESIGN CHOICE (log entry 45): the delay of 0 that an ALARM occurrence
of start-up gives is the delay of SCHEDULED; with no record outstanding (the source's report enable off) the unit is IDLE. -/
def State.startReport (alarm : Bool) (s : State) : State :=
  if s.anyOutstanding then s.schedule (if alarm then 0 else 2 * Config.minuteMs) else s

/-- R191: the number of RETENTION occurrences a start-up raises. -/
def State.retentionCount (readings : StartReadings) (s : State) : Nat :=
  if s.supplies.backupLost then 1 else (s.failedRegions readings).length

/-! ## The start-up, and a start-up that is cut short -/

/-- R192 steps 4 to 6, as the whole changes that they make to the retained records, in order (with the level derived at the
end of step 5); `lost` counts the RETENTION occurrences. -/
def State.startChanges (readings : StartReadings) (lost : Nat) : List (State → State) :=
  [State.takeReadings readings, State.startForcedEntry readings, State.startNear, State.startFull,
    State.startClearDelays readings] ++
  Source.all.map State.settleRecord ++ List.replicate lost State.retentionOccurrence ++
  [State.clockOccurrence, State.holdLevel, State.addStartForfeit, State.clearBanked]

/-- Changes made one after another. -/
def State.makeChanges (changes : List (State → State)) (s : State) : State := changes.foldl (fun s change => change s) s

/-- R192 steps 1 to 3, with each owner's normality taken. -/
def State.startTables (readings : StartReadings) (s : State) : State :=
  ((s.bankActive.restartBlocks readings).restartTables).takeNormality

/-- R192: a start-up that runs to its end. -/
def State.fullStart (readings : StartReadings) (s : State) : State :=
  let s₁ := s.startTables readings
  let s₂ := (s₁.makeChanges (State.startChanges readings (s.retentionCount readings))).requestRefund true false
  (s₂.startReport (s₁.alarmAtStart readings)).raise .restarted

/-- R192: the state when the main supply fails while the regions are judged (step 1): the defaults of the failed regions named
have been written, and every other region is as it was, its pins, its staged content and its staged assignments too. What is
volatile stands as start-up forms it, but for the call, which stands as it was while the region of its pin does (log entry 46). -/
def State.cutTables (readings : StartReadings) (written : List Region) (s : State) : State :=
  let lost (r : Region) : Bool := s.defaulted readings r && r ∈ written
  let s₁ := s.bankActive.restartWith lost s.supplies
  let s₂ := (s₁.setSup { s₁.sup with inputs := s.sup.inputs.map (fun x => if lost .settings then .unused else x) }).setClock
    { s₁.clock with unset := lost .clock || s.clock.unset }
  (((s₂.setSession (if lost .tariff then .startUp else s.session)).setRating
    (if lost .tariff then .startUp else s.rating)).setLine (if lost .tariff then .startUp else s.line)).takeNormality

/-- R192: the main supply fails while the regions are judged; a lost backup supply stands as lost, so that the next start-up
judges afresh. -/
def State.cutJudging (readings : StartReadings) (written : List Region) (s : State) : State :=
  (s.cutTables readings written).holdLevel.bankActive.setSupplies { s.supplies with main := false }

/-- R192: the main supply fails after so many of the start-up's changes, with the regions as the last whole change left
them. -/
def State.cutAfter (readings : StartReadings) (changes : Nat) (s : State) : State :=
  let made := (State.startChanges readings (s.retentionCount readings)).take changes
  ((s.startTables readings).makeChanges made).holdLevel.loseMain

/-- R192: the start-up, in its order, to its end or to the point at which the main supply fails again. -/
def State.startUp (readings : StartReadings) (s : State) : State :=
  match readings.cut with
  | none => s.fullStart readings
  | some (.judging written) => s.cutJudging readings written
  | some (.after changes) => s.cutAfter readings changes

/-- MAIN_SUPPLY_START (R192). -/
def execMainSupplyStart (readings : StartReadings) (s : State) : Host.Outcome State Fault Refusal :=
  .next (s.startUp readings)

end Sys2Proof.Machine
end

