-- ==== Sys2Proof/Machine/Dispatch.lean ====
section
/-! DEFINITION. One arm per command, each one direct call of its meaning. -/

namespace Sys2Proof.Machine

/-- The effect of a command on everything but the queue. -/
def exec (i : Instr) (s : State) : Host.Outcome State Fault Refusal :=
  match i with
  | .validatorAccepted cls => Sys2Proof.Machine.execValidatorAccepted cls s
  | .validatorRejected => Sys2Proof.Machine.execValidatorRejected s
  | .columnEntryPulse => Sys2Proof.Machine.execColumnEntryPulse s
  | .cashboxEntryPulse => Sys2Proof.Machine.execCashboxEntryPulse s
  | .transitWindowEnd => Sys2Proof.Machine.execTransitWindowEnd s
  | .refundCycleStart => Sys2Proof.Machine.execRefundCycleStart s
  | .collectCycleStart => Sys2Proof.Machine.execCollectCycleStart s
  | .collectGateHome => Sys2Proof.Machine.execCollectGateHome s
  | .collectWindowTimeout => Sys2Proof.Machine.execCollectWindowTimeout s
  | .refundGateHome => Sys2Proof.Machine.execRefundGateHome s
  | .refundWindowTimeout => Sys2Proof.Machine.execRefundWindowTimeout s
  | .returnCupPulse => Sys2Proof.Machine.execReturnCupPulse s
  | .returnCupWatchEnd => Sys2Proof.Machine.execReturnCupWatchEnd s
  | .slotObstructed10s => Sys2Proof.Machine.execSlotObstructed10s s
  | .slotClear5s => Sys2Proof.Machine.execSlotClear5s s
  | .sessionEndClose => Sys2Proof.Machine.execSessionEndClose s
  | .doorReading reading => Sys2Proof.Machine.execDoorReading reading s
  | .keyReading reading => Sys2Proof.Machine.execKeyReading reading s
  | .cashboxRemoval => Sys2Proof.Machine.execCashboxRemoval s
  | .cashboxInsertion => Sys2Proof.Machine.execCashboxInsertion s
  | .tallyGet port tag body => Sys2Proof.Machine.execTallyGet port tag body s
  | .tallyRelease port tag body => Sys2Proof.Machine.execTallyRelease port tag body s
  | .tariffPut port tag body => Sys2Proof.Machine.execTariffPut port tag body s
  | .tariffGet port tag body => Sys2Proof.Machine.execTariffGet port tag body s
  | .tariffWithdraw port tag body => Sys2Proof.Machine.execTariffWithdraw port tag body s
  | .tariffFind port tag body => Sys2Proof.Machine.execTariffFind port tag body s
  | .tariffScan port tag body => Sys2Proof.Machine.execTariffScan port tag body s
  | .clockSecond => Sys2Proof.Machine.execClockSecond s
  | .clockSet port tag body => Sys2Proof.Machine.execClockSet port tag body s
  | .clockGet port tag body => Sys2Proof.Machine.execClockGet port tag body s
  | .holidaySet port tag body => Sys2Proof.Machine.execHolidaySet port tag body s
  | .holidayGet port tag body => Sys2Proof.Machine.execHolidayGet port tag body s
  | .bandSet port tag body => Sys2Proof.Machine.execBandSet port tag body s
  | .bandGet port tag body => Sys2Proof.Machine.execBandGet port tag body s
  | .stepBoundary => Sys2Proof.Machine.execStepBoundary s
  | .warningToneStart => Sys2Proof.Machine.execWarningToneStart s
  | .flagsReadClear port tag body => Sys2Proof.Machine.execFlagsReadClear port tag body s
  | .lineGrant => Sys2Proof.Machine.execLineGrant s
  | .loopCurrentSeen => Sys2Proof.Machine.execLoopCurrentSeen s
  | .seizureTimeout => Sys2Proof.Machine.execSeizureTimeout s
  | .dialToneClassified => Sys2Proof.Machine.execDialToneClassified s
  | .dialToneTimeout => Sys2Proof.Machine.execDialToneTimeout s
  | .diallingEnd => Sys2Proof.Machine.execDiallingEnd s
  | .busyClassified => Sys2Proof.Machine.execBusyClassified s
  | .polarityReversal => Sys2Proof.Machine.execPolarityReversal s
  | .presumedDelayEnd => Sys2Proof.Machine.execPresumedDelayEnd s
  | .answerWaitEnd => Sys2Proof.Machine.execAnswerWaitEnd s
  | .acknowledgeClassified => Sys2Proof.Machine.execAcknowledgeClassified s
  | .refuseClassified => Sys2Proof.Machine.execRefuseClassified s
  | .toneStringSent => Sys2Proof.Machine.execToneStringSent s
  | .releaseGuardEnd => Sys2Proof.Machine.execReleaseGuardEnd s
  | .loopCurrentLoss => Sys2Proof.Machine.execLoopCurrentLoss s
  | .lineAbsent5s => Sys2Proof.Machine.execLineAbsent5s s
  | .linePresent10s => Sys2Proof.Machine.execLinePresent10s s
  | .offHook => Sys2Proof.Machine.execOffHook s
  | .onHook => Sys2Proof.Machine.execOnHook s
  | .clearingEnd => Sys2Proof.Machine.execClearingEnd s
  | .symbolKeyPress sym => Sys2Proof.Machine.execSymbolKeyPress sym s
  | .followOnPress => Sys2Proof.Machine.execFollowOnPress s
  | .keyStuck key => Sys2Proof.Machine.execKeyStuck key s
  | .keyRelease key => Sys2Proof.Machine.execKeyRelease key s
  | .firstSymbolTimeout => Sys2Proof.Machine.execFirstSymbolTimeout s
  | .interSymbolTimeout => Sys2Proof.Machine.execInterSymbolTimeout s
  | .creditWaitTimeout => Sys2Proof.Machine.execCreditWaitTimeout s
  | .inputActiveEdge input => Sys2Proof.Machine.execInputActiveEdge input s
  | .inputInactiveChange input => Sys2Proof.Machine.execInputInactiveChange input s
  | .countWindowEnd input => Sys2Proof.Machine.execCountWindowEnd input s
  | .holdOffEnd input => Sys2Proof.Machine.execHoldOffEnd input s
  | .clearDelayEnd input => Sys2Proof.Machine.execClearDelayEnd input s
  | .conditionClear port tag body => Sys2Proof.Machine.execConditionClear port tag body s
  | .conditionGet port tag body => Sys2Proof.Machine.execConditionGet port tag body s
  | .retryTimerExpiry => Sys2Proof.Machine.execRetryTimerExpiry s
  | .replyWaitEnd => Sys2Proof.Machine.execReplyWaitEnd s
  | .reportNow port tag body => Sys2Proof.Machine.execReportNow port tag body s
  | .responseRead port => Sys2Proof.Machine.execResponseRead port s
  | .statusGet port tag body => Sys2Proof.Machine.execStatusGet port tag body s
  | .coinClassSet port tag body => Sys2Proof.Machine.execCoinClassSet port tag body s
  | .coinClassGet port tag body => Sys2Proof.Machine.execCoinClassGet port tag body s
  | .settingSet port tag body => Sys2Proof.Machine.execSettingSet port tag body s
  | .settingGet port tag body => Sys2Proof.Machine.execSettingGet port tag body s
  | .attentionGet port tag body => Sys2Proof.Machine.execAttentionGet port tag body s
  | .attentionAck port tag body => Sys2Proof.Machine.execAttentionAck port tag body s
  | .attentionMask port tag body => Sys2Proof.Machine.execAttentionMask port tag body s
  | .stationInit port tag body => Sys2Proof.Machine.execStationInit port tag body s
  | .unknownRequest port kind tag body => Sys2Proof.Machine.execUnknownRequest port kind tag body s
  | .mainSupplyStart readings => Sys2Proof.Machine.execMainSupplyStart readings s
  | .mainSupplyLoss => Sys2Proof.Machine.execMainSupplyLoss s
  | .gateLeavesHome gate => Sys2Proof.Machine.execGateLeavesHome gate s
  | .dialSymbolSent => Sys2Proof.Machine.execDialSymbolSent s
  | .backupSupplyLoss => Sys2Proof.Machine.execBackupSupplyLoss s

end Sys2Proof.Machine
end

