-- ==== Sys2Proof/Machine/Timers.lean ====
section
/-! DEFINITION. What falls due by itself: the internal commands that the state calls for at this instant, and the timed
commands whose instant has come (log entry 2). -/

namespace Sys2Proof.Machine

/-- A command that is due where a condition holds. -/
def dueIf (c : Instr) (due : Bool) : Option Instr := if due then some c else none

/-- A command that is due where an instant, if there is one, has come. -/
def dueAt (now : Nat) (c : Instr) (t : Option Nat) : Option Instr :=
  match t with
  | some t => if t ≤ now then some c else none
  | none => none

/-- The instant of the clock's next second, at which CLOCK_SECOND falls (R77); with the main supply lost, only while the
backup supply holds. -/
def State.clockDue (s : State) : Option Instr :=
  if s.supplies.main ∨ s.supplies.backupLost = false then dueAt s.now .clockSecond (some s.clock.nextSecond) else none

/-- The internal commands, which take no time: the first one that the state calls for. -/
def State.internalDue (s : State) : Option Instr :=
  (dueIf .sessionEndClose s.closeStands).or <|
  (dueIf .collectCycleStart s.collectStarts).or <|
  (dueIf .refundCycleStart s.refundStarts.isSome).or <|
  (dueIf .clearingEnd s.clearingStands).or <|
  (dueIf .lineGrant s.grantable.isSome).or <|
  dueIf .diallingEnd (s.line.state = .dialling && s.line.phase = .sent)

/-- The instants of the coin path's timed commands. -/
def State.coinDue (s : State) : Option Instr :=
  (dueAt s.now .transitWindowEnd (s.coin.transit.head?.map TransitEntry.windowEnds)).or <|
  (dueAt s.now .collectWindowTimeout (match s.coin.cycle with
    | .collectStarted _ t _ _ => some t
    | _ => none)).or <|
  (dueAt s.now .refundWindowTimeout (match s.coin.cycle with
    | .refund t _ _ => some t
    | _ => none)).or <|
  dueAt s.now .returnCupWatchEnd (s.coin.watches.head?.map CupWatch.watchEnds)

/-- The instants of the rating unit's timed commands. -/
def State.ratingDue (s : State) : Option Instr :=
  match s.rating.context with
  | .rated _ c =>
    (dueAt s.now .stepBoundary (some c.nextBoundary)).or <|
    dueAt s.now .warningToneStart (match c.warning with
      | some w => if w.playing then none else some w.toneStart
      | none => none)
  | .empty | .placed _ | .unrated _ _ => none

/-- The instants of the line's timed commands. -/
def State.lineDue (s : State) : Option Instr :=
  match s.line.state with
  | .free => none
  | .seizing => dueAt s.now .seizureTimeout (some s.line.deadline)
  | .awaitDialTone => dueAt s.now .dialToneTimeout (some s.line.deadline)
  | .dialling => dueAt s.now .dialSymbolSent (if s.line.phase = .sent then none else some s.line.phaseEnds)
  | .awaitAnswer =>
    (dueAt s.now .presumedDelayEnd s.line.presumedAnswerAt).or (dueAt s.now .answerWaitEnd s.line.noAnswerAt)
  | .connected => dueAt s.now .toneStringSent (s.line.sending.map ToneString.sentAt)
  | .releasing => dueAt s.now .releaseGuardEnd (some s.line.deadline)

/-- The command of a session timer's expiry. -/
def TimerKind.command : TimerKind → Instr
  | .firstSymbol => .firstSymbolTimeout
  | .interSymbol => .interSymbolTimeout
  | .creditWait => .creditWaitTimeout

/-- The instant at which a key becomes stuck. -/
def State.keyDue (s : State) (key : Key) : Option Instr :=
  match s.session.keys[key.idx] with
  | .pressed since => dueAt s.now (.keyStuck key) (some (since + Config.keyStuckMs))
  | .released | .stuck => none

/-- The instants of the session's timed commands. -/
def State.sessionDue (s : State) : Option Instr :=
  (match s.session.timer with
    | some t => dueAt s.now t.kind.command (some t.expiresAt)
    | none => none).or (Key.all.findSome? s.keyDue)

/-- The instants of one input's timed commands. -/
def State.inputDue (s : State) (i : Fin 8) : Option Instr :=
  let x := s.sup.inputs[i]
  (dueAt s.now (.countWindowEnd i) x.windowEnds).or <|
  (dueAt s.now (.holdOffEnd i) x.holdOffEnds).or <|
  dueAt s.now (.clearDelayEnd i) (x.clearFrom.map x.clearEnds)

/-- The instants of the report unit's timed commands. -/
def State.reportDue (s : State) : Option Instr :=
  (match s.report.state, s.report.timer with
    | .scheduled, some (.running t) => dueAt s.now .retryTimerExpiry (some t)
    | _, _ => none).or
    (if s.report.state = ReportState.awaitReply then dueAt s.now .replyWaitEnd s.report.replyEnds else none)

/-- The eight inputs. -/
def allInputs : List (Fin 8) := [0, 1, 2, 3, 4, 5, 6, 7]

/-- The first command due: an internal one before a timed one. With the main supply lost only the clock runs. -/
def State.due (s : State) : Option Instr :=
  if s.supplies.main then
    s.internalDue.or <| s.clockDue.or <| s.coinDue.or <| s.ratingDue.or <| s.lineDue.or <| s.sessionDue.or <|
    (allInputs.findSome? s.inputDue).or s.reportDue
  else s.clockDue

/-- A millisecond of elapsed time. -/
def State.tick (s : State) : State := s.setNow (s.now + 1)

end Sys2Proof.Machine
end

