-- ==== Sys2Proof/Machine/Step.lean ====
section
/-! DEFINITION. One step: the command at the front of the queue is executed on the state with the queue's rest; on an empty
queue the first command due is executed, and where none is due a millisecond of elapsed time passes (log entry 2). -/

namespace Sys2Proof.Machine

/-- What a step does on an empty queue (log entry 2). -/
def State.idle (s : State) : Host.Outcome State Fault Refusal :=
  match s.due with
  | some c => exec c s
  | none => .next s.tick

/-- One step of the machine. -/
def step (s : State) : Host.Outcome State Fault Refusal :=
  match s.pending with
  | [] => s.idle
  | c :: rest => exec c (s.setPending rest)

/-- A state with the command that a word spells at the front of its queue; unchanged where the word spells none. -/
def State.withFetchWord (s : State) (nbits w : Nat) : State :=
  match decodeTableWord nbits w with
  | some c => s.setPending (c :: s.pending)
  | none => s

end Sys2Proof.Machine
end

