-- ==== Sys2Proof/Safety.lean ====
section
/-! DEFINITION. What a safe run keeps: the laws the manual states over the records, as predicates on a state. Each is stated
of every step from every state that has it (and of the state after reset) in Certificates/Slice0/Obligations.lean. -/

namespace Sys2Proof.Machine

/-! ## Coins and money -/

/-- The First Law of the coin path (section 1.3), with the bounds of the transit list and of the unconfirmed streak. -/
def CoinPath.FirstLaw (c : CoinPath) : Prop := c.fill ≤ 12 ∧ c.transit.length ≤ 4 ∧ c.streak ≤ 2

/-- A collect cycle in flight has a coin to drop (R11, R12): the column holds a coin for as long as it is in flight. -/
def CoinPath.CollectHasCoin (c : CoinPath) : Prop := c.collectInFlight = true → c.column ≠ []

/-- The account's laws: B lies in its range (R22), the owed list holds at most 4 entries of at least 1 MU (section 2.2), and
whenever an amount is owed B is 0 (R22) and a collect cycle is in flight (R26). -/
def State.OwedLaw (s : State) : Prop :=
  s.credit.banked ≤ 65535 ∧ s.credit.owed.length ≤ 4 ∧ (∀ e ∈ s.credit.owed, 1 ≤ e.amount) ∧
    (s.credit.owed ≠ [] → s.credit.banked = 0 ∧ s.coin.collectInFlight = true)

/-- R46: with `n` total coins in the current tally neither threshold source changes: each is normal below its threshold and
abnormal from it on. -/
def State.thresholdsQuiet (n : Nat) (s : State) : Prop :=
  s.normal .cashboxNear = decide (n < s.settings.near) ∧ s.normal .cashboxFull = decide (n < s.settings.full)

/-! ## Conditions -/

/-- R167: the service level held is the one that the active records give. -/
def State.LevelHeld (s : State) : Prop := s.sup.level = s.sup.derivedLevel

/-- The type and severity that the tables of sections 9.1 and 9.4 give a source. -/
def Source.raises : Source → ConditionType → Severity → Bool
  | .coinPath, .coinPathJam, .fault => true
  | .collectGate, .gateJam, .fault => true
  | .refundGate, .gateJam, .fault => true
  | .returnCup, .returnBlocked, .alarm => true
  | .coinSlot, .slotBlocked, .alarm => true
  | .cashboxNear, .cashboxNearFull, .notice => true
  | .cashboxFull, .cashboxFull, .fault => true
  | .compartment, .compartmentForced, .alarm => true
  | .keypad, .keypadStuck, .fault => true
  | .line, .lineDown, .fault => true
  | .dialtone, .noDialTone, .fault => true
  | .retention, .retentionLost, .notice => true
  | .clock, .clockUnset, .notice => true
  | .collection, .cashboxCollected, .notice => true
  | .input _, .ofInput t, severity => t ≠ .unused && severity = t.severity
  | _, _, _ => false

/-- The laws of a condition record (section 9.5, R160): its counts in their ranges, RAISED while an occurrence is
unacknowledged, STANDING while none is, and a type and severity of its source. -/
def ConditionRecord.Lawful (src : Source) (r : ConditionRecord) : Prop :=
  1 ≤ r.count ∧ r.count ≤ 255 ∧ r.acked ≤ r.count ∧ (r.state = .raised → r.acked < r.count) ∧
    (r.state = .standing → r.acked = r.count) ∧ src.raises r.type r.severity = true

/-- Every record of the condition table is lawful. -/
def State.RecordsLawful (s : State) : Prop := ∀ src r, s.record src = some r → r.Lawful src

/-! ## The tariff table -/

/-- Section 4.3: each record stands in a slot of its own, 1..239, the slots rising; no two LIVE records share a prefix; no
two records of one prefix that are each PENDING or LIVE have intersecting windows; and only a pinned record is RETIRING. -/
def TariffTable.Lawful (t : TariffTable) : Prop :=
  (t.records.map TariffRecord.slot).Pairwise (· < ·) ∧
    (∀ r ∈ t.records, 1 ≤ r.slot ∧ r.slot ≤ 239 ∧ (r.state = .retiring → r.pinned = true)) ∧
    t.records.Pairwise (fun a b =>
      a.content.pre = b.content.pre →
        ¬ (a.state = .live ∧ b.state = .live) ∧
          (a.state ≠ .retiring → b.state ≠ .retiring → windowsIntersect a.content b.content = false))

/-! ## The tallies -/

/-- R51: the COLLECTION record is held, and active, exactly while a closed tally is held; and COLLECTION is abnormal exactly
then. -/
def State.CollectionLaw (s : State) : Prop :=
  (s.record .collection).isSome = s.comp.closedTally.isSome ∧ s.normal .collection = !s.comp.closedTally.isSome ∧
    ∀ r, s.record .collection = some r → r.active = true

/-- Section 3.2: every figure of a tally in its range. -/
def Tally.InRange (t : Tally) : Prop :=
  (∀ cls : Fin 16, t.counts[cls] ≤ 65535) ∧ t.totalCoins ≤ 65535 ∧ t.totalValue ≤ 4294967295 ∧ t.uncredited ≤ 65535 ∧
    t.forfeit ≤ 4294967295 ∧ t.unrecovered ≤ 4294967295 ∧ t.refundedAtRestart ≤ 65535

/-- Sections 3.2 and 2.5: every figure of both tallies, and the session forfeit sum, in its range. -/
def State.FiguresInRange (s : State) : Prop :=
  s.comp.current.InRange ∧ (∀ t, s.comp.closedTally = some t → t.figures.InRange) ∧ s.credit.sessionForfeit ≤ 4294967295

/-! ## The clock -/

/-- Section 5.1: the clock holds a valid time, and the weekday is that of its date. -/
def StationClock.Lawful (c : StationClock) : Prop := c.time.valid = true ∧ c.weekday = c.time.date.weekday

/-! ## The call -/

/-- The session timer that runs in a session state (section 8.1). -/
def SessionState.timerKind : SessionState → Option TimerKind
  | .dialWait => some .firstSymbol
  | .collecting => some .interSymbol
  | .awaitCredit => some .creditWait
  | .idle | .placing | .ringing | .connected | .ended | .clearing => none

/-- The name of a context's state, with the answer mark left out: EMPTY, PLACED, or answered (RATED or UNRATED). -/
def RatingContext.stage : RatingContext → Nat
  | .empty => 0
  | .placed _ => 1
  | .rated _ _ | .unrated _ _ => 2

/-- The stage of the rating context that a session state goes with (R89, R98, R108). -/
def SessionState.stage : SessionState → Nat
  | .placing | .ringing => 1
  | .connected => 2
  | .idle | .dialWait | .collecting | .awaitCredit | .ended | .clearing => 0

/-- The laws of a call (sections 6.1, 7.1 and 8.1): the session holds a decision exactly in the four states that hold a
call, runs the timer of its state and no other, and has the rating context of its state; a line call stands exactly while
the line is seized; the session owns the line only in PLACING, RINGING or CONNECTED, and asks for it only in PLACING, before
it owns it; and the report unit owns it only while the session is IDLE (R114). -/
def State.CallLaw (s : State) : Prop :=
  s.session.decision.isSome = s.session.state.holdsCall ∧
  s.session.timer.map SessionTimer.kind = s.session.state.timerKind ∧
  s.rating.context.stage = s.session.state.stage ∧
  s.line.call.isSome = s.line.state.seized ∧
  (s.lineOwner = some .session → s.session.state.stage ≠ 0) ∧
  (s.line.sessionRequest.isSome → s.session.state = .placing ∧ s.lineOwner ≠ some .session) ∧
  (s.lineOwner = some .report → s.session.state = .idle)

/-- The laws of the pins (section 4.6): the record pinned is the one the decision held names, and no other; it is never
PENDING; and a default record is staged only while slot 0 is pinned (R57, R67). -/
def State.PinLaw (s : State) : Prop :=
  (∀ r ∈ s.tariff.records, (r.pinned = true ↔ s.session.decision.map Decision.slot = some r.slot) ∧
    (r.pinned = true → r.state ≠ .pending)) ∧
  (s.tariff.basePinned = true ↔ s.session.decision.map Decision.slot = some 0) ∧
  (s.tariff.staging.isSome → s.tariff.basePinned = true) ∧
  (∀ d, s.session.decision = some d → d.slot = 0 ∨ ∃ r ∈ s.tariff.records, r.slot = d.slot)

/-! ## The report unit -/

/-- Section 10.2: at most 5 attempts are counted; a retry timer is held in SCHEDULED alone, a snapshot in SENDING and
AWAIT_REPLY alone, the reply wait in AWAIT_REPLY alone, and an attempt's outcome in RELEASING alone. -/
def ReportUnit.Lawful (r : ReportUnit) : Prop :=
  r.attempts ≤ 5 ∧ r.timer.isSome = decide (r.state = .scheduled) ∧
    r.snapshot.isSome = (r.state = .sending || r.state = .awaitReply : Bool) ∧
    r.replyEnds.isSome = decide (r.state = .awaitReply) ∧ r.outcome.isSome = decide (r.state = .releasing)

end Sys2Proof.Machine

namespace Sys2Proof

open Machine

/-! ## The port requests -/

/-- Section 11.1: the port, kind, tag and body of a command that is a port request; none for every other command. -/
def Instr.request : Instr → Option (Port × Nat × Byte × List Byte)
  | .tariffPut p t b => some (p, 1, t, b)
  | .tariffGet p t b => some (p, 2, t, b)
  | .tariffWithdraw p t b => some (p, 3, t, b)
  | .tariffFind p t b => some (p, 4, t, b)
  | .tariffScan p t b => some (p, 5, t, b)
  | .bandSet p t b => some (p, 6, t, b)
  | .bandGet p t b => some (p, 7, t, b)
  | .holidaySet p t b => some (p, 8, t, b)
  | .holidayGet p t b => some (p, 9, t, b)
  | .coinClassSet p t b => some (p, 10, t, b)
  | .coinClassGet p t b => some (p, 11, t, b)
  | .settingSet p t b => some (p, 12, t, b)
  | .clockSet p t b => some (p, 13, t, b)
  | .clockGet p t b => some (p, 14, t, b)
  | .statusGet p t b => some (p, 15, t, b)
  | .tallyGet p t b => some (p, 16, t, b)
  | .tallyRelease p t b => some (p, 17, t, b)
  | .conditionGet p t b => some (p, 18, t, b)
  | .conditionClear p t b => some (p, 19, t, b)
  | .reportNow p t b => some (p, 20, t, b)
  | .flagsReadClear p t b => some (p, 21, t, b)
  | .attentionGet p t b => some (p, 22, t, b)
  | .attentionAck p t b => some (p, 23, t, b)
  | .attentionMask p t b => some (p, 24, t, b)
  | .stationInit p t b => some (p, 25, t, b)
  | .settingGet p t b => some (p, 26, t, b)
  | .unknownRequest p k t b => some (p, k.toNat, t, b)
  | _ => none

/-- Section 11.8: the body length of the requests whose body has one length, by kind. -/
def fixedLength : Nat → Option Nat
  | 9 | 14 | 15 | 16 | 17 | 20 | 21 | 22 | 25 => some 0
  | 2 | 3 | 7 | 11 | 18 | 19 | 23 | 24 => some 1
  | 5 => some 2
  | 10 => some 4
  | 13 => some 6
  | 1 => some 42
  | _ => none

/-- R186, R187, R43: a request that arrives on a port is taken, and is not refused LOCKED: the main supply is on, the host port
is FREE or ANSWERED (the service port stretches a transfer until it is), and the service port is enabled. -/
def Machine.State.admits (p : Port) (s : State) : Prop :=
  s.supplies.main = true ∧ (p = .host → (s.port p).phase = .free ∨ (s.port p).phase = .answered) ∧
    (p = .service → s.comp.door = .opened ∧ s.comp.key ≠ .locked)

/-! ## The timed commands -/

/-- The instant at which the duration ends whose end a timed command reports, where it runs; none for a command that reports
no such end. -/
def Instr.deadline (s : State) : Instr → Option Nat
  | .transitWindowEnd => s.coin.transit.head?.map TransitEntry.windowEnds
  | .collectWindowTimeout => match s.coin.cycle with
    | .collectStarted _ ends _ _ => some ends
    | _ => none
  | .refundWindowTimeout => match s.coin.cycle with
    | .refund ends _ _ => some ends
    | _ => none
  | .returnCupWatchEnd => s.coin.watches.head?.map CupWatch.watchEnds
  | .clockSecond => some s.clock.nextSecond
  | .stepBoundary => match s.rating.context with
    | .rated _ c => some c.nextBoundary
    | _ => none
  | .warningToneStart => match s.rating.context with
    | .rated _ c => match c.warning with
      | some w => if w.playing then none else some w.toneStart
      | none => none
    | _ => none
  | .seizureTimeout => if s.line.state = .seizing then some s.line.deadline else none
  | .dialToneTimeout => if s.line.state = .awaitDialTone then some s.line.deadline else none
  | .dialSymbolSent => if s.line.state = .dialling ∧ s.line.phase ≠ .sent then some s.line.phaseEnds else none
  | .diallingEnd => if s.line.state = .dialling then some s.line.diallingEnds else none
  | .presumedDelayEnd => if s.line.state = .awaitAnswer then s.line.presumedAnswerAt else none
  | .answerWaitEnd => if s.line.state = .awaitAnswer then s.line.noAnswerAt else none
  | .toneStringSent => if s.line.state = .connected then s.line.sending.map ToneString.sentAt else none
  | .releaseGuardEnd => if s.line.state = .releasing then some s.line.deadline else none
  | .keyStuck key => match s.session.keys[key.idx] with
    | .pressed since => some (since + Config.keyStuckMs)
    | _ => none
  | .firstSymbolTimeout => s.session.timerOf .firstSymbol
  | .interSymbolTimeout => s.session.timerOf .interSymbol
  | .creditWaitTimeout => s.session.timerOf .creditWait
  | .countWindowEnd i => s.sup.inputs[i].windowEnds
  | .holdOffEnd i => s.sup.inputs[i].holdOffEnds
  | .clearDelayEnd i => s.sup.inputs[i].clearFrom.map s.sup.inputs[i].clearEnds
  | .retryTimerExpiry => match s.report.state, s.report.timer with
    | .scheduled, some (.running t) => some t
    | _, _ => none
  | .replyWaitEnd => if s.report.state = .awaitReply then s.report.replyEnds else none
  | _ => none

end Sys2Proof
end

