-- ==== Sys2Proof/Certificates/Slice0/Obligations.lean ====
section
/-! DEFINITION. What is stated of the machine, rule by rule: the queue and the step, the laws that every step keeps, and the
effect of every command with all that it leaves unchanged. -/

open Sys2Proof Sys2Proof.Machine

/-! ## The queue and the step -/

/-- With a command at the front of the queue, a step is that command on the state with the rest of the queue. That waiting
commands form a queue, served first in, first out, is the MODEL'S CHOICE (log entry 1). -/
def Obligations.StepRunsFrontCommand : Prop :=
  ∀ (c : Instr) (rest : List Instr) (s : State), s.pending = c :: rest → step s = exec c { s with pending := rest }

/-- MODEL'S CHOICE (log entries 2 and 3). On an empty queue a step executes the first command due, and where none is due a
millisecond of elapsed time passes; of the commands that report the end of a duration none is due before that end, but for
DIALLING_END, which reports the end of a whole out-dialling and is due once the last symbol is sent (log entry 22). Such a
command, DIALLING_END among them, executed earlier, brings elapsed time to that end and has the effect it has at that instant. -/
def Obligations.IdleStepsAndDeadlines : Prop :=
  ((∀ s : State, s.pending = [] →
    (∀ c, s.due = some c → step s = exec c s) ∧ (s.due = none → step s = .next { s with now := s.now + 1 })) ∧
  ∀ (s : State) (c : Instr) (t : Nat), s.due = some c → c.deadline s = some t → c = .diallingEnd ∨ t ≤ s.now) ∧
  ∀ (c : Instr) (s : State) (t : Nat), s.supplies.main = true → c.deadline s = some t →
    exec c s = exec c { s with now := max s.now t }

/-- Every command of the table answers a next state in every state: none faults or is refused, and none touches the queue.
That some answer the state as it was is the MODEL'S CHOICE: a command whose situation does not stand (log entry 4), and every
command but those of the supplies and of the running clock while the main supply is lost (log entry 6). -/
def Obligations.EveryCommandCompletes : Prop :=
  ∀ (c : Instr) (s : State), ∃ t, exec c s = .next t ∧ t.pending = s.pending

/-! ## The ports' frames -/

/-- Section 11.8 and R187: the bytes of the transfer that brings a well-formed port command decode to that command, with every
tag and every body; and a part of those bytes, a transfer that ends early, to none. The tariff record body is read field by
field as section 11.8 lays it out, and no other body is a tariff record; and the body that TARIFF_GET returns of a content whose
fields are in their ranges is read back as that content.
(The mode bit of that body, and the bytes of an absent clock time, are the MODEL'S CHOICE, log entry 9; so is that bytes after the
last body byte change nothing, log entry 53.) -/
def Obligations.TransferBytesDecodeToTheirCommand : Prop :=
  (∀ (c : Instr) (p : Port) (bytes : List Byte), c.wellFormed = true → encodeTransfer c = some (p, bytes) →
    decodeTransfer p bytes = some c ∧ (∀ more, decodeTransfer p (bytes ++ more) = some c) ∧
      ∀ k, k < bytes.length → decodeTransfer p (bytes.take k) = none) ∧
  (∀ (body : List Byte) (o : TariffOffer), body.length = 42 →
    let b (k : Nat) : Nat := byteAt body k
    let time (k : Nat) : MinuteTime := ⟨⟨2000 + b k, b (k + 1), b (k + 2)⟩, b (k + 3), b (k + 4)⟩
    let half (k : Nat) : Nat := if k % 2 = 0 then b (2 + k / 2) / 16 else b (2 + k / 2) % 16
    (tariffOffer body = some o ↔
      (b 0, o.toDefault, o.replace) ∈ [(0, false, false), (1, false, true), (128, true, false), (129, true, true)] ∧
      o.content.pre.length = b 1 ∧ o.content.pre.length ≤ 12 ∧
      (∀ k, k < 12 → half k = (o.content.pre.map Fin.val).getD k 15) ∧
      o.content.minLength = b 8 ∧ o.content.maxLength = b 9 ∧
      (b 10, o.content.category) ∈ [(0, .charged), (1, .free), (2, .emergency), (3, .blocked)] ∧
      (∀ band : Fin 4, o.content.rates[band] =
        b (11 + 3 * band.val) * 65536 + b (12 + 3 * band.val) * 256 + b (13 + 3 * band.val)) ∧
      o.content.connection = b 23 * 256 + b 24 ∧ o.content.period = b 25 * 256 + b 26 ∧
      (b 27, o.content.rounding) ∈ [(0, .fixed .carry), (1, .fixed .stepUp), (2, .fixed .stepDown), (3, .station)] ∧
      o.content.minCredit = b 28 * 256 + b 29 ∧
      (b 30 = 0 ∧ o.content.effectiveFrom = none ∨ b 30 = 1 ∧ o.content.effectiveFrom = some (time 31)) ∧
      (b 36 = 0 ∧ o.content.retireAt = none ∨ b 36 = 1 ∧ o.content.retireAt = some (time 37)))) ∧
  ∀ (slot : Nat) (c : TariffContent), c.pre.length ≤ 12 → c.minLength ≤ 20 → c.maxLength ≤ 20 →
    (∀ band : Fin 4, c.rates[band] ≤ 999999) → c.connection ≤ 9999 → c.period ≤ 600 → c.minCredit ≤ 9999 →
    (∀ e, c.effectiveFrom = some e → e.valid = true) → (∀ r, c.retireAt = some r → r.valid = true) →
    (targetByte slot :: tariffBytes slot c).length = 42 ∧
    ∃ replace, tariffOffer (targetByte slot :: tariffBytes slot c) = some ⟨slot = 0, replace, c⟩

/-! ## The laws that every step keeps -/

/-- Sections 1.3 and 1.4, R11, R12: held coins and column-bound transit entries are never more than 12, transit entries
never more than 4, the unconfirmed streak never more than 2, and the column holds a coin while a collect cycle is in
flight. -/
def Obligations.EveryStepKeepsTheCoinLaws : Prop :=
  ∀ s t : State, s.coin.FirstLaw → s.coin.CollectHasCoin → step s = .next t → t.coin.FirstLaw ∧ t.coin.CollectHasCoin

/-- R22, R26 and section 2.2: B lies in 0..65535, the owed list holds at most 4 entries of at least 1 MU, and while an
amount is owed B is 0 and a collect cycle is in flight. -/
def Obligations.EveryStepKeepsTheAccountLaw : Prop :=
  ∀ s t : State, s.OwedLaw → step s = .next t → t.OwedLaw

/-- R167, R160 and section 9.5: the service level held is the one the active records give, and every condition record is
lawful: its counts in their ranges, RAISED while an occurrence is unacknowledged, and of a type and severity that its source
raises. -/
def Obligations.EveryStepKeepsTheConditionTable : Prop :=
  (∀ s t : State, s.LevelHeld → step s = .next t → t.LevelHeld) ∧
  (∀ s t : State, s.RecordsLawful → step s = .next t → t.RecordsLawful)

/-- R51: a closed tally is held exactly while a COLLECTION record exists, which is then active, and exactly while COLLECTION
is abnormal. -/
def Obligations.EveryStepKeepsTallyAndCollectionRecordTogether : Prop :=
  ∀ s t : State, s.CollectionLaw → step s = .next t → t.CollectionLaw

/-- Sections 4.3, 4.6, 6.1, 7.1 and 8.1: the tariff table is lawful (a slot to each record, one LIVE record to a prefix,
windows apart, RETIRING only while pinned); the session, the rating context and the line agree on the call there is; and the
record pinned is the one the held decision names. -/
def Obligations.EveryStepKeepsTheCallLaws : Prop :=
  ∀ s t : State, s.tariff.Lawful → s.CallLaw → s.PinLaw → step s = .next t → t.tariff.Lawful ∧ t.CallLaw ∧ t.PinLaw

/-- Section 10.2: at most 5 attempts are counted, and the retry timer, the snapshot, the reply wait and an attempt's outcome
are held in their own states alone. -/
def Obligations.EveryStepKeepsTheReportUnitLawful : Prop :=
  ∀ s t : State, s.report.Lawful → step s = .next t → t.report.Lawful

/-- Sections 3.2, 2.5 and 5.1: every figure of the current and of the closed tally, and the session forfeit sum, stays in its
range: each saturates at its top. The clock holds a valid time of 2000..2099, and the weekday is that of its date. -/
def Obligations.EveryStepKeepsTheFiguresAndTheCalendar : Prop :=
  (∀ s t : State, s.FiguresInRange → step s = .next t → t.FiguresInRange) ∧
  ∀ s t : State, s.clock.Lawful → step s = .next t → t.clock.Lawful

/-- The state after reset has every law above. -/
def Obligations.ResetMeetsEveryLaw : Prop :=
  State.reset.coin.FirstLaw ∧ State.reset.coin.CollectHasCoin ∧ State.reset.OwedLaw ∧ State.reset.LevelHeld ∧
    State.reset.RecordsLawful ∧ State.reset.CollectionLaw ∧ State.reset.FiguresInRange ∧ State.reset.tariff.Lawful ∧ State.reset.CallLaw ∧
    State.reset.PinLaw ∧ State.reset.report.Lawful ∧ State.reset.clock.Lawful

/-! ## The supplies and start-up -/

/-- R191, R192 and, MODEL'S CHOICE, what commands do while a supply is lost (log entry 6) and what the state called reset is
(log entry 5, its empty list of failed regions entry 34). MAIN_SUPPLY_LOSS and BACKUP_SUPPLY_LOSS answer these next states: a
loss of the main supply leaves every record as it stands, and the count of active seconds stops (log entry 20); the backup
supply matters only while the main supply is lost. While that is lost no command but those of the supplies and of the running
clock has an effect. A start-up that found the backup supply lost, with the first readings CLOSED, LOCKED and ABSENT, at elapsed
time 0, leaves the reset state. A main supply that fails during a start-up is lost. While the regions are judged (step 1) the
defaults written stay, every other region is as it was, and a lost backup supply stands as lost. After that the regions have been
judged and the table evaluated, the tally of a removed cashbox is closed, and the retained B is forfeited and then made 0 (which
changes are whole, and that the active seconds stop there too, is the MODEL'S CHOICE, log entries 46 and 20). MODEL'S CHOICE too: a
clock that was kept is set, by R88 against R80 (log entry 14); a closed tally keeps its marks where no closure is made (39), and a
merge drops its withheld release (31); in the reset state a return cup watch is over (51) and the next second falls 1000 ms on
(19). -/
def Obligations.LostSuppliesChangeNothingElse : Prop :=
  (∀ s : State,
    (s.supplies.main = true →
      exec .mainSupplyLoss s = .next { s with
        supplies := { s.supplies with main := false, backupLost := false }
        sup := { s.sup with
          records := s.sup.records.map (fun r => r.map (fun r =>
            { r with activeMs := r.activeMs + r.activeSince.elim 0 (fun t => s.now - t), activeSince := none })) } } ∧
      exec .backupSupplyLoss s = .next s) ∧
    (s.supplies.main = false →
      exec .mainSupplyLoss s = .next s ∧
      exec .backupSupplyLoss s = .next { s with supplies := { s.supplies with backupLost := true } } ∧
      ∀ c : Instr, c ≠ .clockSecond → c ≠ .backupSupplyLoss → (∀ readings, c ≠ .mainSupplyStart readings) →
        exec c s = .next s)) ∧
  (∀ (failed : List Region) (lines : Vector Bool 8) (s : State), s.supplies.backupLost = true → s.now = 0 →
    exec (.mainSupplyStart ⟨failed, .closed, .locked, .absent, lines, none⟩) s = .next { State.reset with pending := s.pending }) ∧
  ∀ (readings : StartReadings) (s : State), ∀ cut, readings.cut = some cut →
    ∃ t, exec (.mainSupplyStart readings) s = .next t ∧ t.pending = s.pending ∧ t.now = s.now ∧
      let fails (r : Region) : Bool := s.supplies.backupLost || r ∈ readings.failed
      (∀ written, cut = .judging written →
        let lost (r : Region) : Bool := fails r && r ∈ written
        t.supplies = { s.supplies with main := false } ∧
        t.tariff = (if lost .tariff then ⟨TariffContent.regionDefault, false, none, []⟩ else s.tariff) ∧
        (∀ day, t.clock.schedule day = if lost .bands then [⟨0, 0⟩] else s.clock.schedule day) ∧
        t.clock.holidays = (if lost .bands then [] else s.clock.holidays) ∧
        t.settings = (if lost .settings then .initial else s.settings) ∧
        (∀ i : Fin 8, t.sup.inputs[i] = if lost .settings then SupervisedInput.unused else s.sup.inputs[i]) ∧
        t.comp.current = (if lost .accounts then Tally.zero else s.comp.current) ∧
        t.comp.closedTally = (if lost .accounts then none else s.comp.closedTally) ∧
        t.comp.presence = (if lost .accounts then .absent else s.comp.presence) ∧
        t.sup.records = (if lost .accounts then Vector.replicate 22 none
          else s.sup.records.map (fun r => r.map (fun r =>
            { r with activeMs := r.activeMs + r.activeSince.elim 0 (fun t => s.now - t), activeSince := none }))) ∧
        t.coin.column = (if lost .escrow then [] else s.coin.column) ∧
        t.credit.banked = (if lost .escrow then 0 else s.credit.banked) ∧
        t.clock.time = (if lost .clock then ⟨⟨2000, 1, 1⟩, 0, 0, 0⟩ else s.clock.time) ∧
        t.clock.weekday = (if lost .clock then .saturday else s.clock.weekday) ∧
        t.clock.unset = (if lost .clock then true else s.clock.unset)) ∧
      ∀ changes, cut = .after changes →
        let regions := if s.supplies.backupLost then 1 else (Region.all.filter (fun r => r ∈ readings.failed)).length
        let removed : Bool :=
          !fails .accounts && s.comp.presence = .present && readings.presence = .absent && 1 ≤ changes
        let banked := if fails .escrow then 0 else s.credit.banked
        let current := if removed || fails .accounts then Tally.zero else s.comp.current
        t.supplies =
          { main := false, backupLost := false, outcomeBackupHeld := !s.supplies.backupLost
            outcomeFailed := if s.supplies.backupLost then [] else Region.all.filter (fun r => r ∈ readings.failed) } ∧
        t.tariff =
          { base := if fails .tariff then .regionDefault else s.tariff.staging.getD s.tariff.base
            basePinned := false, staging := none
            records := if fails .tariff then [] else evaluate t.clock.time.toMinute
              ((s.tariff.records.filter (fun r => r.state ≠ .retiring)).map (fun r => { r with pinned := false })) } ∧
        (∀ day, t.clock.schedule day = if fails .bands then [⟨0, 0⟩] else s.clock.schedule day) ∧
        t.clock.holidays = (if fails .bands then [] else s.clock.holidays) ∧
        t.settings = (if fails .settings then .initial else s.settings) ∧
        (∀ i : Fin 8, (t.sup.inputs[i].assignment, t.sup.inputs[i].staged) =
          (if fails .settings then SupervisedInput.unused.assignment
            else s.sup.inputs[i].staged.getD s.sup.inputs[i].assignment, none)) ∧
        t.comp.current = { current with forfeit :=
          if changes < 30 + regions then current.forfeit else min 4294967295 (current.forfeit + banked) } ∧
        t.comp.closedTally = (if removed then some (match s.comp.closedTally with
          | none => ⟨s.comp.current, readings.key ≠ .collect, false, false, false⟩
          | some x => ⟨x.figures.merge s.comp.current, x.forced || readings.key ≠ .collect, true, true, false⟩)
          else if fails .accounts then none else s.comp.closedTally) ∧
        t.coin.column = (if fails .escrow then [] else s.coin.column) ∧
        t.credit.banked = (if changes < 31 + regions then banked else 0) ∧
        t.clock.time = (if fails .clock then ⟨⟨2000, 1, 1⟩, 0, 0, 0⟩ else s.clock.time) ∧
        t.clock.weekday = (if fails .clock then .saturday else s.clock.weekday) ∧
        t.clock.unset = fails .clock

/-- R191, R192 and the start-up tables of R21, R39, R55, R76, R88, R111, R127, R150, R170, R185 and R187: what a start-up that
runs to its end leaves, from any state. A region whose check failed, and every region when the backup supply was lost, takes its
defaults. The sources have the normality of their owners' start-up states. A retained record loses its snapshot; an unlatched
active one whose source is normal is CLEARED; and one CLEARED with its enable off is retired. The first readings, the thresholds,
each region lost (RETENTION) and a lost time (CLOCK) raise their occurrences. Inputs begin afresh, with a staged assignment in
effect. MODEL'S CHOICE: a return cup watch is over (log entry 51), a time kept is set (14), the generation begins at 0 (15), no
failed regions are named when the backup supply was lost (34), a closed tally keeps its marks (39), an input left UNUSED with an active record has its clear delay
by the default assignment (44), one whose line stands active has none until an inactive change (50), and an ALARM with no
outstanding record leaves the report unit IDLE (45). -/
def Obligations.StartUpLeavesEachBlockAtItsStartUpValues : Prop :=
  ∀ (readings : StartReadings) (s : State), readings.cut = none → ∃ t, exec (.mainSupplyStart readings) s = .next t ∧
    let lost (r : Region) : Bool := s.supplies.backupLost || r ∈ readings.failed
    let regions := if s.supplies.backupLost then 1 else (Region.all.filter (fun r => r ∈ readings.failed)).length
    let removed : Bool := !lost .accounts && s.comp.presence = .present && readings.presence = .absent
    let forcedEntry : Bool := readings.door = .opened && readings.key = .locked
    let forced : Bool := readings.key ≠ .collect
    let alarm : Bool := forcedEntry || removed && forced
    (t.pending = s.pending ∧ t.now = s.now ∧
    t.supplies =
      { main := true, backupLost := false, outcomeBackupHeld := !s.supplies.backupLost,
        outcomeFailed := if s.supplies.backupLost then [] else Region.all.filter (fun r => r ∈ readings.failed) } ∧
    t.coin =
      { transit := [], column := if lost .escrow then [] else s.coin.column, streak := 0, cycle := .idle,
        waiting := some ⟨true, false⟩, sessionRefunded := false, watches := [], rejectedCount := 0, refundedCount := 0 } ∧
    t.credit = { banked := 0, owed := [], account := .notOpen, sessionForfeit := 0 } ∧
    (let current := if removed || lost .accounts then Tally.zero else s.comp.current
     t.comp =
      { door := readings.door, key := readings.key, presence := readings.presence
        generation := (if removed then 1 else 0)
        current := { current with
          forfeit := min 4294967295 (current.forfeit + (if lost .escrow then 0 else s.credit.banked)) }
        closedTally :=
          if removed then some (match s.comp.closedTally with
            | none => { figures := s.comp.current, forced := forced, merged := false, changed := false, withheld := false }
            | some x =>
              { figures := x.figures.merge s.comp.current, forced := x.forced || forced, merged := true, changed := true
                withheld := false })
          else if lost .accounts then none else s.comp.closedTally }) ∧
    t.tariff.base = (if lost .tariff then .regionDefault else s.tariff.staging.getD s.tariff.base) ∧
    (t.tariff.staging = none ∧ t.tariff.basePinned = false ∧
      t.tariff.records = if lost .tariff then [] else evaluate t.clock.time.toMinute
        ((s.tariff.records.filter (fun r => r.state ≠ .retiring)).map (fun r => { r with pinned := false }))) ∧
    t.clock.time = (if lost .clock then ⟨⟨2000, 1, 1⟩, 0, 0, 0⟩ else s.clock.time) ∧ t.clock.unset = lost .clock ∧
    t.clock.weekday = (if lost .clock then .saturday else s.clock.weekday) ∧
    (∀ day, t.clock.schedule day = if lost .bands then [⟨0, 0⟩] else s.clock.schedule day) ∧
    t.clock.holidays = (if lost .bands then [] else s.clock.holidays) ∧ t.clock.formBand = t.clock ∧
    t.rating = { context := .empty, callNumber := 0, summary := none, accrued := .empty } ∧
    t.line = Line.startUp ∧ t.session = Session.startUp ∧
    t.settings = (if lost .settings then .initial else s.settings) ∧
    (t.report.attempts = 0 ∧ t.report.renewal = false ∧
      t.report.state = (if t.anyOutstanding then .scheduled else .idle) ∧
      t.report.timer = if t.anyOutstanding then some (.running (s.now + if alarm then 0 else 120000)) else none) ∧
    t.LevelHeld ∧
    t.attention =
      { flags := ⟨false, false, t.attention.flags.conditionChanged, false, false, removed, false, true⟩, mask := .none } ∧
    t.hostPort = PortUnit.startUp ∧ t.servicePort = PortUnit.startUp) ∧
    let kept (src : Source) : Option ConditionRecord := if lost .accounts then none else s.record src
    let active (src : Source) : Bool := (kept src).any (fun r => r.state ≠ .cleared)
    let abnormal (src : Source) : Bool := match src with
      | .coinPath | .collectGate | .refundGate | .returnCup | .keypad | .retention => false
      | .coinSlot | .line | .dialtone | .input _ => active src
      | .clock => lost .clock
      | .collection => t.comp.closedTally.isSome
      | .compartment => readings.door = .opened
      | .cashboxNear => t.settings.near ≤ t.comp.current.totalCoins
      | .cashboxFull => t.settings.full ≤ t.comp.current.totalCoins
    let raised (src : Source) : Nat := match src with
      | .collection => if removed then 1 else 0
      | .compartment => (if removed && forced then 1 else 0) + if forcedEntry then 1 else 0
      | .cashboxNear | .cashboxFull => if abnormal src && !active src then 1 else 0
      | .retention => regions
      | .clock => if lost .clock then 1 else 0
      | _ => 0
    let latches (src : Source) (r : ConditionRecord) : Prop :=
      r.severity = .alarm ∨ src = .collectGate ∨ src = .refundGate ∨ src = .coinPath
    (∀ src, t.normal src = !abnormal src) ∧
    (∀ src, raised src = 0 →
      (kept src = none → t.record src = none) ∧
      ∀ r, kept src = some r →
        let clears := r.state ≠ .cleared ∧ ¬ latches src r ∧ abnormal src = false
        let retires := (clears ∨ r.state = .cleared) ∧ t.reportEnabled src = false
        (retires → t.record src = none) ∧
        (¬ retires → ∃ r', t.record src = some r' ∧ r'.snapshot = none ∧ r'.type = r.type ∧ r'.severity = r.severity ∧
          r'.count = r.count ∧ r'.acked = r.acked ∧ r'.firstRaised = r.firstRaised ∧
          (clears → r'.state = .cleared ∧ r'.lastChange = t.clock.time) ∧
          (¬ clears → r'.state = r.state ∧ r'.lastChange = r.lastChange))) ∧
    (∀ src, 0 < raised src → (∀ r, kept src = some r → r.count ≤ 255) →
      let gone : Bool := src = .clock && !active src && !t.reportEnabled src
      let before := match kept src with
        | some r => if gone then 0 else r.count
        | none => 0
      (src = .retention → t.reportEnabled src = false → t.record src = none) ∧
      (src ≠ .retention ∨ t.reportEnabled src = true →
        ∃ r', t.record src = some r' ∧ r'.snapshot = none ∧ src.raises r'.type r'.severity = true ∧
          r'.lastChange = t.clock.time ∧ r'.count = min 255 (before + raised src) ∧
          r'.state = if src = .retention then .cleared else .raised)) ∧
    ∀ i : Fin 8,
      let x := s.sup.inputs[i]
      let a : Assignment := if lost .settings then SupervisedInput.unused.assignment else x.staged.getD x.assignment
      let inactive : Bool := match a.polarity with
        | .high => readings.linesHigh[i] = false
        | .low => readings.linesHigh[i] = true
      t.sup.inputs[i] =
        { assignment := a, staged := none, active := false, windowEnds := none, edgeCount := 0, holdOffEnds := none
          clearFrom := if abnormal (.input i) && inactive then some s.now else none }

/-! ## The coin path -/

/-- R4, R8: an ACCEPTED report. With fewer than 4 entries pending it makes a transit entry of the class reported, with the
class's value and a window of 400 ms, for the column while held coins and column-bound entries are fewer than 12 (and the
twelfth closes every class), and for the chute otherwise; with 4 pending it is an unconfirmed coin. At its window end the oldest
entry is removed with no credit, and is an unconfirmed coin: the streak rises by 1, and the third raises COIN_PATH_JAM on
COIN_PATH and makes the streak 0. -/
def Obligations.TransitEntriesAreMadeAndExpire : Prop :=
  (∀ (cls : Fin 16) (s : State), s.supplies.main = true →
    (s.coin.transit.length < 4 →
      exec (.validatorAccepted cls) s = .next { s with coin := { s.coin with
        transit := s.coin.transit ++
          [{ cls := cls, value := s.settings.classes[cls].value,
             dest := if s.coin.column.length + s.coin.columnBound < 12 then .column else .overflow,
             windowEnds := s.now + 400, noted := false }] } } ∧
      ∀ t, exec (.validatorAccepted cls) s = .next t →
        (s.coin.column.length + s.coin.columnBound = 11 → ∀ k, t.classInhibited k = true) ∧
        (12 ≤ s.coin.column.length + s.coin.columnBound →
          t.coin.column.length + t.coin.columnBound = s.coin.column.length + s.coin.columnBound)) ∧
    (4 ≤ s.coin.transit.length →
      (s.coin.streak < 2 →
        exec (.validatorAccepted cls) s = .next { s with coin := { s.coin with streak := s.coin.streak + 1 } }) ∧
      (2 ≤ s.coin.streak →
        exec (.validatorAccepted cls) s =
          .next (State.occurrence .coinPath .coinPathJam .fault { s with coin := { s.coin with streak := 0 } })))) ∧
  ∀ (e : TransitEntry) (rest : List TransitEntry) (s : State), s.supplies.main = true → s.coin.transit = e :: rest →
    e.windowEnds ≤ s.now →
    (s.coin.streak < 2 →
      exec .transitWindowEnd s =
        .next { s with coin := { s.coin with transit := rest, streak := s.coin.streak + 1 } }) ∧
    (2 ≤ s.coin.streak →
      exec .transitWindowEnd s = .next (State.occurrence .coinPath .coinPathJam .fault
        { s with coin := { s.coin with transit := rest, streak := 0 } }))

/-- R2: a REJECTED report adds 1 to the rejected-coin count, which wraps from 65535, and does nothing else. STATUS_GET gives
the count, start-up makes it 0 and STATION_INIT leaves it. -/
def Obligations.RejectedReportCounts : Prop :=
  (∀ s : State, s.supplies.main = true →
    exec .validatorRejected s =
      .next { s with coin := { s.coin with rejectedCount := (s.coin.rejectedCount + 1) % 65536 } }) ∧
  (∀ s : State, s.statusView.rejectedCount = s.coin.rejectedCount) ∧
  (∀ readings s t, exec (.mainSupplyStart readings) s = .next t → t.coin.rejectedCount = 0) ∧
  (∀ p tag body s t, exec (.stationInit p tag body) s = .next t → t.coin.rejectedCount = s.coin.rejectedCount)

/-- R5: a column entry pulse while no refund is in flight. The oldest entry bound for the column becomes a CREDITED coin on top of
the column; without one, a coin with no class and no value does, while the column holds fewer than 12; and with the column full it
is an unconfirmed coin. A coin that comes in IDLE, or in CLEARING after the refund of its session end has completed, brings a refund
request unless one waits. (RefundCyclesStartAndEnd says when that refund counts as completed, the MODEL'S CHOICE where two of
them ended, log entry 18.) -/
def Obligations.ColumnPulseHoldsTheCoin : Prop :=
  ∀ s : State, s.supplies.main = true → s.coin.refundInFlight = false →
    let back (t : State) : State :=
      if (t.session.state = .idle ∨ t.session.state = .clearing ∧ t.coin.sessionRefunded = true) ∧
        t.coin.waiting = none then
        { t with coin := { t.coin with
          waiting := some ⟨false, false⟩, transit := t.coin.transit.map (fun e => { e with noted := true }) } }
      else t
    (∀ older e newer, s.coin.transit = older ++ e :: newer → (∀ x ∈ older, x.dest ≠ .column) → e.dest = .column →
      exec .columnEntryPulse s =
        .next (State.handCredit s.available (back { s with coin := { s.coin with
          transit := older ++ newer
          column := s.coin.column ++ [{ cls := some e.cls, value := e.value, tag := .credited }]
          streak := 0 } }))) ∧
    ((∀ x ∈ s.coin.transit, x.dest ≠ .column) →
      (s.coin.column.length < 12 →
        exec .columnEntryPulse s =
          .next (back { s with coin := { s.coin with
            column := s.coin.column ++ [{ cls := none, value := 0, tag := .unvalued }] } })) ∧
      (12 ≤ s.coin.column.length →
        (s.coin.streak < 2 →
          exec .columnEntryPulse s = .next { s with coin := { s.coin with streak := s.coin.streak + 1 } }) ∧
        (2 ≤ s.coin.streak →
          exec .columnEntryPulse s = .next (State.handCredit s.available
            (State.occurrence .coinPath .coinPathJam .fault { s with coin := { s.coin with streak := 0 } })))))

/-- R6: a column entry pulse while a refund is in flight: the coin falls to the cup. The oldest entry bound for the column,
if any, is confirmed (and holds no refund back any longer); no coin is held, and the coin counts as refunded. -/
def Obligations.ColumnPulseDuringRefundPassesToTheCup : Prop :=
  ∀ s : State, s.supplies.main = true → s.coin.refundInFlight = true →
    (∀ older e newer, s.coin.transit = older ++ e :: newer → (∀ x ∈ older, x.dest ≠ .column) → e.dest = .column →
      exec .columnEntryPulse s = .next { s with coin := { s.coin with
        transit := older ++ newer, streak := 0, refundedCount := (s.coin.refundedCount + 1) % 65536 } }) ∧
    ((∀ x ∈ s.coin.transit, x.dest ≠ .column) →
      exec .columnEntryPulse s =
        .next { s with coin := { s.coin with refundedCount := (s.coin.refundedCount + 1) % 65536 } })

/-- R7, R22, R31, R35, R44: a cashbox entry pulse. The first after a collect cycle's start is the cycle's own. Any other
confirms the oldest OVERFLOW entry: its value reaches B, where what passes 65535 is forfeited (and all of it with no session
open), and settles what is owed; its coin is counted in the current tally as collected, with its class and value, and the
thresholds are judged. The result is written out where a session is open, the value suffices for what is owed and no threshold
is crossed. With no OVERFLOW entry it is an uncredited coin of the current tally, and the thresholds are judged. (That the new
credit is handed on last, after a change of the level that the thresholds bring, is the MODEL'S CHOICE, log entries 11, 47.) -/
def Obligations.CashboxPulseCountsTheCoin : Prop :=
  ∀ s : State, s.supplies.main = true → s.FiguresInRange →
    let quiet := s.thresholdsQuiet (min 65535 (s.comp.current.totalCoins + 1))
    (∀ g ends, s.coin.cycle = .collectStarted g ends false false →
      exec .cashboxEntryPulse s = .next { s with coin := { s.coin with cycle := .collectStarted g ends true false } }) ∧
    ((∀ g ends home, s.coin.cycle ≠ .collectStarted g ends false home) →
      (∀ older e newer, s.coin.transit = older ++ e :: newer → (∀ x ∈ older, x.dest ≠ .overflow) → e.dest = .overflow →
        let taken : State := { s with coin := { s.coin with transit := older ++ newer } }
        let excess := s.credit.banked + e.value - 65535
        let received : State :=
          if s.credit.account = .notOpen then
            { taken with comp := { s.comp with current := { s.comp.current with
                forfeit := min 4294967295 (s.comp.current.forfeit + e.value) } } }
          else
            { taken with
              credit := { s.credit with
                banked := min 65535 (s.credit.banked + e.value)
                sessionForfeit := min 4294967295 (s.credit.sessionForfeit + excess) }
              comp := { s.comp with current := { s.comp.current with
                forfeit := min 4294967295 (s.comp.current.forfeit + excess) } } }
        let counted (f : Tally) : Tally := { f with
          counts := f.counts.set e.cls (min 65535 (f.counts[e.cls] + 1))
          totalCoins := min 65535 (f.totalCoins + 1)
          totalValue := min 4294967295 (f.totalValue + e.value) }
        let paid : State := received.settle
        let judged : State :=
          State.judgeThresholds { paid with comp := { paid.comp with current := counted paid.comp.current } }
        exec .cashboxEntryPulse s =
          .next (State.handCredit s.available { judged with coin := { judged.coin with streak := 0 } }) ∧
        (quiet → s.credit.account ≠ .notOpen → s.credit.banked + e.value ≤ 65535 →
          owedTotal s.credit.owed ≤ s.credit.banked + e.value →
          exec .cashboxEntryPulse s = .next (State.handCredit s.available { s with
            coin := { s.coin with transit := older ++ newer, streak := 0 }
            credit := { s.credit with banked := s.credit.banked + e.value - owedTotal s.credit.owed, owed := [] }
            comp := { s.comp with current := counted s.comp.current } }))) ∧
      ((∀ x ∈ s.coin.transit, x.dest ≠ .overflow) →
        let uncredited : State := { s with comp := { s.comp with current := { s.comp.current with
          uncredited := min 65535 (s.comp.current.uncredited + 1)
          totalCoins := min 65535 (s.comp.current.totalCoins + 1) } } }
        exec .cashboxEntryPulse s = .next (State.handCredit s.available uncredited.judgeThresholds) ∧
        (quiet → exec .cashboxEntryPulse s = .next uncredited)))

/-- R12, R13, R28: an accepted collect cycle starts once no OVERFLOW entry is pending, recording the generation and opening a
window of 600 ms. Its cashbox pulse and its gate's return home complete it, in either order: the bottom coin leaves the column,
a CREDITED one is counted as collected in the tally of the recorded generation, and its value pays what is owed and stays in B
(here: that generation is the current one, a session is open, the value suffices, and no threshold is crossed). -/
def Obligations.CollectCycleStartsAndCompletes : Prop :=
  ∀ s : State, s.supplies.main = true → s.FiguresInRange →
    (s.coin.cycle = .collectHeld →
      ((∀ x ∈ s.coin.transit, x.dest ≠ .overflow) →
        exec .collectCycleStart s = .next { s with coin := { s.coin with
          cycle := .collectStarted s.comp.generation (s.now + 600) false false } }) ∧
      ((∃ x ∈ s.coin.transit, x.dest = .overflow) → exec .collectCycleStart s = .next s)) ∧
    (∀ g ends, s.coin.cycle = .collectStarted g ends false false →
      exec .collectGateHome s = .next { s.setNormality .collectGate false with
        coin := { s.coin with cycle := .collectStarted g ends false true } }) ∧
    (∀ ends c cls rest, s.coin.column = { cls := some cls, value := c, tag := .credited } :: rest →
      s.credit.account ≠ .notOpen → s.credit.banked + c ≤ 65535 → owedTotal s.credit.owed ≤ s.credit.banked + c →
      s.thresholdsQuiet (min 65535 (s.comp.current.totalCoins + 1)) →
      let collected (t : State) : State :=
        { t with
          coin := { s.coin with cycle := .idle, column := rest }
          credit := { s.credit with banked := s.credit.banked + c - owedTotal s.credit.owed, owed := [] }
          comp := { s.comp with current := { s.comp.current with
            counts := s.comp.current.counts.set cls (min 65535 (s.comp.current.counts[cls] + 1))
            totalCoins := min 65535 (s.comp.current.totalCoins + 1)
            totalValue := min 4294967295 (s.comp.current.totalValue + c) } } }
      (s.coin.cycle = .collectStarted s.comp.generation ends false true →
        exec .cashboxEntryPulse s = .next (State.handCredit s.available (collected s))) ∧
      (s.coin.cycle = .collectStarted s.comp.generation ends true false →
        exec .collectGateHome s =
          .next (State.handCredit s.available (collected (s.setNormality .collectGate false)))))

/-- R13, R22, R28, R29, R35, R44, R49: the completion of a collect cycle, by its cashbox pulse or by its gate's return home,
whatever the coin. The bottom coin leaves the column, and is counted, as collected where it is CREDITED and else as uncredited, in
the current tally (and the thresholds are judged) where the cycle recorded its generation, and after a removal in the closed
tally, whose changed mark is set, with one more COLLECTION occurrence (the mark of a withheld release goes with it: log entry 31).
A CREDITED coin's value reaches B, late or not, where what passes 65535 is forfeited (and all of it with no session open);
settlement runs. R14, R30: at the end of a started cycle's window GATE_JAM is raised on COLLECT_GATE, the rest of what is owed is
written off, and the cycle is over with its coin still in the column. R53: a release withheld behind a late cycle then takes
effect where the changed mark is clear, and is dropped otherwise. (That the new credit is handed on last is the MODEL'S CHOICE,
log entries 11, 47.) -/
def Obligations.LateCoinsAndCollectTimeouts : Prop :=
  (∀ (s : State) (g ends : Nat) (c : HeldCoin) (rest : List HeldCoin), s.supplies.main = true →
    s.coin.column = c :: rest →
    let counted (f : Tally) : Tally :=
      if c.tag = .credited then
        { f with
          counts := match c.cls with
            | some k => f.counts.set k (min 65535 (f.counts[k] + 1))
            | none => f.counts
          totalCoins := min 65535 (f.totalCoins + 1)
          totalValue := min 4294967295 (f.totalValue + c.value) }
      else { f with uncredited := min 65535 (f.uncredited + 1), totalCoins := min 65535 (f.totalCoins + 1) }
    let received (t : State) : State :=
      if c.tag ≠ .credited then t
      else if t.credit.account = .notOpen then
        { t with comp := { t.comp with current := { t.comp.current with
            forfeit := min 4294967295 (t.comp.current.forfeit + c.value) } } }
      else
        let excess := t.credit.banked + c.value - 65535
        { t with
          credit := { t.credit with
            banked := min 65535 (t.credit.banked + c.value)
            sessionForfeit := min 4294967295 (t.credit.sessionForfeit + excess) }
          comp := { t.comp with current := { t.comp.current with
            forfeit := min 4294967295 (t.comp.current.forfeit + excess) } } }
    let left (t : State) : State := { t with coin := { t.coin with cycle := .idle, column := rest } }
    let completes (tallied : State → State) : Prop :=
      (s.coin.cycle = .collectStarted g ends false true →
        exec .cashboxEntryPulse s = .next (State.handCredit s.available (State.settle (received (tallied (left s)))))) ∧
      ∀ home, s.coin.cycle = .collectStarted g ends true home →
        exec .collectGateHome s = .next (State.handCredit s.available
          (State.settle (received (tallied (left (s.setNormality .collectGate false))))))
    (g = s.comp.generation →
      completes (fun t => State.judgeThresholds { t with comp := { t.comp with current := counted t.comp.current } })) ∧
    (∀ tally, g ≠ s.comp.generation → s.comp.closedTally = some tally →
      completes (fun t => State.occurrence .collection .cashboxCollected .notice { t with comp := { t.comp with
        closedTally := some { tally with figures := counted tally.figures, changed := true, withheld := false } } }))) ∧
  (∀ (s : State) (g ends : Nat) (pulse home : Bool), s.supplies.main = true →
    s.coin.cycle = .collectStarted g ends pulse home → ends ≤ s.now →
    let jammed := (State.occurrence .collectGate .gateJam .fault s).writeOff
    exec .collectWindowTimeout s = .next (State.handCredit s.available
      (State.resolveWithheld g { jammed with coin := { s.coin with cycle := .idle } })) ∧
    jammed.gateInhibited .collect = true ∧ jammed.credit.owed = [] ∧
    (s.FiguresInRange →
      jammed.comp.current.unrecovered = min 4294967295 (s.comp.current.unrecovered + owedTotal s.credit.owed)) ∧
    jammed.credit.banked = s.credit.banked) ∧
  ∀ (s : State) (g : Nat),
    (s.comp.closedTally = none → s.resolveWithheld g = s) ∧
    ∀ tally, s.comp.closedTally = some tally →
      (g = s.comp.generation ∨ tally.withheld = false → s.resolveWithheld g = s) ∧
      (g ≠ s.comp.generation → tally.withheld = true →
        (tally.changed = false → s.resolveWithheld g = s.releaseClosedTally) ∧
        (tally.changed = true → s.resolveWithheld g =
          { s with comp := { s.comp with closedTally := some { tally with withheld := false } } }))

/-- R10, R15 to R19, R21: the waiting refund starts once no collect cycle is in flight and no entry it noted is pending. With the
gate inhibited every held coin becomes an ORPHAN and the cycle is over; otherwise a window of 1200 ms opens, with a return cup
watch of 1500 ms where the column holds coins. The gate's return home completes the cycle: the column is empty, and each coin that
was not an ORPHAN counts as refunded (and after start-up as refunded at restart). At the end of its window instead, GATE_JAM is
raised on REFUND_GATE, every held coin becomes an ORPHAN, and the cycle's cup watch ends. The gates' sensors give each gate its
normality at every reading, the collect gate's also outside a started collect cycle. A request is merged into a waiting refund, or
waits with the pending entries noted. The refund of a session end has not completed when it is requested; its gate's return home
completes it, an end of its window and an inhibited gate do not. (That the last to end decides, where a second such refund was
requested behind the first, is the MODEL'S CHOICE, log entry 18.) -/
def Obligations.RefundCyclesStartAndEnd : Prop :=
  (∀ (startUp ofSession : Bool) (s : State), s.requestRefund startUp ofSession =
    let kept := s.coin.sessionRefunded && !ofSession
    { s with coin := match s.coin.waiting with
      | some w => { s.coin with
          waiting := some ⟨w.startUp || startUp, w.ofSession || ofSession⟩, sessionRefunded := kept }
      | none => { s.coin with
          waiting := some ⟨startUp, ofSession⟩, sessionRefunded := kept
          transit := s.coin.transit.map (fun e => { e with noted := true }) } }) ∧
  (∀ (s : State) (w : WaitingRefund), s.supplies.main = true → s.coin.waiting = some w →
    (s.coin.cycle = .idle → (∀ e ∈ s.coin.transit, e.noted = false) →
      (s.gateInhibited .refund = true →
        exec .refundCycleStart s = .next (State.handCredit s.available { s with coin := { s.coin with
          waiting := none, sessionRefunded := s.coin.sessionRefunded && !w.ofSession
          column := s.coin.column.map (fun c => { c with tag := .orphan }) } })) ∧
      (s.gateInhibited .refund = false →
        exec .refundCycleStart s = .next { s with coin := { s.coin with
          waiting := none
          cycle := .refund (s.now + 1200) w.startUp w.ofSession
          watches := s.coin.watches ++ if s.coin.column = [] then [] else [⟨s.now + 1500, true⟩] } })) ∧
    (s.coin.cycle ≠ .idle ∨ (∃ e ∈ s.coin.transit, e.noted = true) → exec .refundCycleStart s = .next s)) ∧
  ∀ s : State, s.supplies.main = true →
    (∀ ends startUp ofSession, s.coin.cycle = .refund ends startUp ofSession →
      let k := (s.coin.column.filter (fun c => c.tag ≠ .orphan)).length
      exec .refundGateHome s = .next (State.handCredit s.available { s.setNormality .refundGate false with
        coin := { s.coin with
          column := []
          refundedCount := (s.coin.refundedCount + k) % 65536
          cycle := .idle
          sessionRefunded := s.coin.sessionRefunded || ofSession
          watches := s.coin.watches.map (fun w => { w with ofCycle := false }) }
        comp := if startUp then { s.comp with current := { s.comp.current with
            refundedAtRestart := min 65535 (s.comp.current.refundedAtRestart + k) } }
          else s.comp }) ∧
      (ends ≤ s.now →
        exec .refundWindowTimeout s = .next (State.handCredit s.available
          { State.occurrence .refundGate .gateJam .fault s with coin := { s.coin with
            column := s.coin.column.map (fun c => { c with tag := .orphan })
            cycle := .idle
            sessionRefunded := s.coin.sessionRefunded && !ofSession
            watches := s.coin.watches.filter (fun w => !w.ofCycle) } }))) ∧
    (s.coin.refundInFlight = false → exec .refundGateHome s = .next (s.setNormality .refundGate false)) ∧
    ((∀ g ends pulse home, s.coin.cycle ≠ .collectStarted g ends pulse home) →
      exec .collectGateHome s = .next (s.setNormality .collectGate false)) ∧
    (∀ gate, exec (.gateLeavesHome gate) s =
      .next (s.setNormality (match gate with | .collect => .collectGate | .refund => .refundGate) true))

/-- R18, R20: a pulse of the return cup sensor ends every watch, and a watch that reaches its end raises RETURN_BLOCKED. A
slot obstructed for 10 s raises SLOT_BLOCKED once, with COIN_SLOT abnormal from then on, and 5 s clear make it
normal; its record, an ALARM, stays. (That an obstruction of 10 s changes nothing while COIN_SLOT is already abnormal is the
MODEL'S CHOICE between two sentences of R20, log entry 17.) -/
def Obligations.CupAndSlotAreWatched : Prop :=
  ∀ s : State, s.supplies.main = true →
    exec .returnCupPulse s = .next { s with coin := { s.coin with watches := [] } } ∧
    (∀ w rest, s.coin.watches = w :: rest → w.watchEnds ≤ s.now →
      exec .returnCupWatchEnd s =
        .next (State.occurrence .returnCup .returnBlocked .alarm { s with coin := { s.coin with watches := rest } })) ∧
    (s.normal .coinSlot = true →
      exec .slotObstructed10s s =
        .next (State.occurrence .coinSlot .slotBlocked .alarm (s.setNormality .coinSlot true))) ∧
    (s.normal .coinSlot = false → exec .slotObstructed10s s = .next s) ∧
    ((∀ r, s.record .coinSlot = some r → r.severity = .alarm) →
      exec .slotClear5s s = .next (s.setNormality .coinSlot false))

/-! ## Credit -/

/-- R26, R27, R32, R45: settlement. B pays the owed list, oldest entry first. What it leaves owed waits for the collect cycle in
flight; with none in flight it is written off where no collect can start (escrow credit not collectable, the column empty, a
refund in flight), and otherwise a collect cycle is accepted. A write-off empties the owed list and adds its amounts to the
current tally's unrecovered sum; it takes nothing from B and changes nothing else but the flags of the calls written off. -/
def Obligations.SettlementAndWriteOff : Prop :=
  (∀ s : State,
    (owedTotal s.credit.owed ≤ s.credit.banked →
      s.settle = { s with credit := { s.credit with
        banked := s.credit.banked - owedTotal s.credit.owed, owed := [] } }) ∧
    ∀ paid e later, s.credit.owed = paid ++ e :: later → owedTotal paid ≤ s.credit.banked →
      s.credit.banked < owedTotal paid + e.amount →
      let left : State := { s with credit := { s.credit with
        banked := 0, owed := { e with amount := owedTotal paid + e.amount - s.credit.banked } :: later } }
      (s.coin.collectInFlight = true → s.settle = left) ∧
      (s.coin.collectInFlight = false →
        (s.collectable = false ∨ s.coin.column = [] ∨ s.coin.refundInFlight = true → s.settle = left.writeOff) ∧
        (s.collectable = true → s.coin.column ≠ [] → s.coin.refundInFlight = false →
          s.settle = { left with coin := { s.coin with cycle := .collectHeld } }))) ∧
  ∀ s : State, s.FiguresInRange →
    s.writeOff = { s with
      credit := { s.credit with owed := [] }
      comp := { s.comp with current := { s.comp.current with
        unrecovered := min 4294967295 (s.comp.current.unrecovered + owedTotal s.credit.owed) } }
      rating := s.credit.owed.foldl (fun r e => r.placeUnrecovered e.call) s.rating }

/-- R33: the flag UNRECOVERED of an entry written off is set in the call flags of the rating context while that holds the
entry's call, and reaches the summary and the accrued flags when the call ends; after that it is set in the accrued flags at
once, and in the last call summary only where that describes the entry's call. -/
def Obligations.UnrecoveredFlagGoesToItsOwnCall : Prop :=
  ∀ (n : Nat) (r : Rating),
    (∀ call : CallInfo, call.number = n →
      let flagged : CallInfo := { call with flags := { call.flags with unrecovered := true } }
      (r.context = .placed call → r.placeUnrecovered n = { r with context := .placed flagged }) ∧
      (∀ c, r.context = .rated call c → r.placeUnrecovered n = { r with context := .rated flagged c } ∧
        ∀ now, ((r.placeUnrecovered n).endCall now).accrued.unrecovered = true ∧
          ((r.placeUnrecovered n).endCall now).summary.map (fun m => m.flags.unrecovered) = some true) ∧
      (∀ t, r.context = .unrated call t → r.placeUnrecovered n = { r with context := .unrated flagged t })) ∧
    (r.context = .empty ∨ (∃ call : CallInfo, call.number ≠ n ∧
        (r.context = .placed call ∨ (∃ c, r.context = .rated call c) ∨ ∃ t, r.context = .unrated call t)) →
      r.placeUnrecovered n = { r with
        accrued := { r.accrued with unrecovered := true }
        summary := r.summary.map (fun m =>
          { m with flags := { m.flags with unrecovered := m.flags.unrecovered || m.number = n } }) })

/-- R25: a charge of 0 changes nothing. Any other joins the newest entry of the owed list where that is the same call's, and
is otherwise a new entry, for which the oldest of 4 entries is first written off; and settlement runs. -/
def Obligations.ChargeJoinsTheOwedList : Prop :=
  ∀ (call charge : Nat) (s : State),
    s.takeCharge call 0 = s ∧
    (1 ≤ charge →
      (∀ older e, s.credit.owed = older ++ [e] → e.call = call →
        s.takeCharge call charge =
          State.settle { s with credit := { s.credit with owed := older ++ [{ e with amount := e.amount + charge }] } }) ∧
      (s.credit.owed.length < 4 → (∀ e, s.credit.owed.getLast? = some e → e.call ≠ call) →
        s.takeCharge call charge =
          State.settle { s with credit := { s.credit with owed := s.credit.owed ++ [⟨call, charge⟩] } }) ∧
      (∀ oldest later, s.credit.owed = oldest :: later → 3 ≤ later.length →
        (∀ e, later.getLast? = some e → e.call ≠ call) →
        s.takeCharge call charge =
          State.settle { s.writeOffEntry oldest with credit := { s.credit with owed := later ++ [⟨call, charge⟩] } }))

/-- R36: the close of a session end. Once nothing is owed and no collect is in flight, B is forfeited, to the current tally's
forfeit sum and to the session forfeit sum, and the session is no longer open; until then the closing lasts. (That
SESSION_END_CLOSE changes nothing where no account is closing is the MODEL'S CHOICE, log entry 4.) -/
def Obligations.SessionCloseForfeitsBanked : Prop :=
  ∀ s : State, s.supplies.main = true →
    (s.credit.account = .closing → s.credit.owed = [] → s.coin.collectInFlight = false →
      exec .sessionEndClose s = .next { s with
        credit := { s.credit with
          banked := 0
          account := .notOpen
          sessionForfeit := min 4294967295 (s.credit.sessionForfeit + s.credit.banked) }
        comp := { s.comp with current := { s.comp.current with
          forfeit := min 4294967295 (s.comp.current.forfeit + s.credit.banked) } } }) ∧
    (s.credit.owed ≠ [] ∨ s.coin.collectInFlight = true ∨ s.credit.account ≠ .closing →
      exec .sessionEndClose s = .next s)

/-- R24, R102 to R104, R138: available credit handed on. Where it has not changed nothing happens; where it has, a RATED call's
warning and runway are computed afresh, and in AWAIT_CREDIT the threshold is formed afresh and the call is placed when credit
has reached it. -/
def Obligations.NewCreditIsHandedOn : Prop :=
  ∀ (before : Nat) (s : State),
    (s.available = before → s.handCredit before = s) ∧
    (s.available ≠ before →
      ((∀ call c, s.rating.context ≠ .rated call c) → s.session.state ≠ .awaitCredit → s.handCredit before = s) ∧
      (∀ d, (∀ call c, s.rating.context ≠ .rated call c) → s.session.state = .awaitCredit →
        s.session.decision = some d →
        let t := s.thresholdOf d.slot
        let judged : State := { s with session := { s.session with threshold := some t } }
        (s.available < t → s.handCredit before = judged) ∧ (t ≤ s.available → s.handCredit before = judged.place d)) ∧
      (∀ call c, s.rating.context = .rated call c → s.session.state ≠ .awaitCredit →
        s.handCredit before = s.lookAhead))

/-! ## The cash compartment -/

/-- R41, R42, R43, R50. A door opened on a LOCKED key is a forced entry; with the key elsewhere it raises nothing, and a door
closed makes COMPARTMENT normal, its record, an ALARM, staying active. (A reading that repeats the last one changes nothing:
MODEL'S CHOICE, log entry 16.) The service port is enabled while the door reads OPEN and the key is not LOCKED. An insertion
changes the presence reading alone. R47, R48, R12, R30: a removal. The current tally becomes the closed tally, or is merged into
the one held, figure by figure; it is FORCED unless the key reads COLLECT; a new tally and generation begin; COLLECTION takes an
occurrence, a forced removal COMPARTMENT one as well, and TALLY_CLOSED is set; the thresholds are judged; and a collect cycle held
back ends, with what is owed written off. (That a merge clears the mark of a withheld release is the MODEL'S CHOICE, log entry
31.) -/
def Obligations.CompartmentReadingsAndRemoval : Prop :=
  ((∀ s : State, s.serviceEnabled = true ↔ s.comp.door = .opened ∧ s.comp.key ≠ .locked) ∧
  ∀ s : State, s.supplies.main = true →
    (∀ reading, exec (.keyReading reading) s = .next { s with comp := { s.comp with key := reading } }) ∧
    exec .cashboxInsertion s =
      .next (State.handCredit s.available { s with comp := { s.comp with presence := .present } }) ∧
    exec (.doorReading s.comp.door) s = .next s ∧
    (s.comp.door = .closed →
      let opened : State := State.setNormality .compartment true { s with comp := { s.comp with door := .opened } }
      (s.comp.key = .locked →
        exec (.doorReading .opened) s = .next (State.occurrence .compartment .compartmentForced .alarm opened)) ∧
      (s.comp.key ≠ .locked → exec (.doorReading .opened) s = .next opened)) ∧
    (s.comp.door = .opened → (∀ r, s.record .compartment = some r → r.severity = .alarm) →
      exec (.doorReading .closed) s =
        .next (State.setNormality .compartment false { s with comp := { s.comp with door := .closed } }))) ∧
  (∀ (a b : Tally) (cls : Fin 16),
    (a.merge b).counts[cls] = min 65535 (a.counts[cls] + b.counts[cls]) ∧
    (a.merge b).totalCoins = min 65535 (a.totalCoins + b.totalCoins) ∧
    (a.merge b).totalValue = min 4294967295 (a.totalValue + b.totalValue) ∧
    (a.merge b).uncredited = min 65535 (a.uncredited + b.uncredited) ∧
    (a.merge b).forfeit = min 4294967295 (a.forfeit + b.forfeit) ∧
    (a.merge b).unrecovered = min 4294967295 (a.unrecovered + b.unrecovered) ∧
    (a.merge b).refundedAtRestart = min 65535 (a.refundedAtRestart + b.refundedAtRestart)) ∧
  (closureDigit false false = 1 ∧ closureDigit true false = 2 ∧ closureDigit false true = 3 ∧ closureDigit true true = 4) ∧
  ∀ s : State, s.supplies.main = true → s.comp.presence = .present →
    let forced : Bool := s.comp.key ≠ .collect
    let closed : ClosedTally := match s.comp.closedTally with
      | none => { figures := s.comp.current, forced := forced, merged := false, changed := false, withheld := false }
      | some x =>
        { figures := x.figures.merge s.comp.current, forced := x.forced || forced, merged := true, changed := true,
          withheld := false }
    let t₀ : State := { s with comp := { s.comp with
      presence := .absent
      closedTally := some closed
      current := Tally.zero
      generation := (s.comp.generation + 1) % 65536 } }
    let t₁ : State := State.occurrence .collection .cashboxCollected .notice (t₀.setNormality .collection true)
    let t₂ : State := if forced then State.occurrence .compartment .compartmentForced .alarm t₁ else t₁
    let t : State := State.judgeThresholds { t₂ with
      attention := { t₂.attention with flags := { t₂.attention.flags with tallyClosed := true } } }
    (s.coin.cycle ≠ .collectHeld → exec .cashboxRemoval s = .next (State.handCredit s.available t)) ∧
    (s.coin.cycle = .collectHeld →
      exec .cashboxRemoval s = .next (State.handCredit s.available
        (State.writeOff { t with coin := { t.coin with cycle := .idle } })))

/-- R52: TALLY_RELEASE. It is refused NOT_FOUND where no closed tally is held, and STATE while a late collect cycle is in
flight or a report that includes the COLLECTION record is being sent or awaits its reply; otherwise the closed tally is
discarded, the COLLECTION record retired, and the request answered DONE. A refusal changes nothing, and the current tally is
not touched. -/
def Obligations.TallyReleaseDiscardsTheClosedTally : Prop :=
  ∀ (p : Port) (tag : Byte) (s : State), s.admits p →
    let refuse (r : Reason) : State := s.answer p { kind := 17, tag := tag, status := .refused, reason := some r, body := .empty }
    let late := ∃ g ends pulse home, s.coin.cycle = .collectStarted g ends pulse home ∧ g ≠ s.comp.generation
    let reported := (s.report.state = .sending ∨ s.report.state = .awaitReply) ∧
      ∃ r snap, s.record .collection = some r ∧ r.snapshot = some snap
    (s.comp.closedTally = none → exec (.tallyRelease p tag []) s = .next (refuse .notFound)) ∧
    (s.comp.closedTally ≠ none → late ∨ reported → exec (.tallyRelease p tag []) s = .next (refuse .state)) ∧
    (s.comp.closedTally ≠ none → ¬ late → ¬ reported →
      exec (.tallyRelease p tag []) s = .next (s.releaseClosedTally.answer p
        { kind := 17, tag := tag, status := .done, reason := none, body := .empty }) ∧
      s.releaseClosedTally.comp = { s.comp with closedTally := none } ∧
      s.releaseClosedTally.record .collection = none ∧
      ∀ src, src ≠ .collection → s.releaseClosedTally.record src = s.record src)

/-! ## The tariff table -/

/-- R56, R57, R60, R61, R62: TARIFF_PUT. Content that R56 does not allow is refused INVALID. For slot 0 it replaces the default
record, or waits in the default staging record while slot 0 is pinned. For the table it is refused OVERLAP where a record of
its prefix, PENDING or LIVE, has an intersecting window (mode NEW), or withdraws each such record (mode REPLACE); it is refused
FULL where no slot is then free; and it is installed in the lowest free slot, unpinned, in the state of R62. R58, R63:
TARIFF_WITHDRAW. Slot 0 and a slot above 239 are refused INVALID, an EMPTY slot NOT_FOUND, and a RETIRING record STATE; a PENDING
record and an unpinned LIVE one become EMPTY, and a pinned LIVE one RETIRING. A refusal changes nothing. Section 4.1: two
windows, each of which holds some clock time, intersect where some clock time lies in both. -/
def Obligations.TariffRecordsArePutAndWithdrawn : Prop :=
  (∀ a b : TariffContent,
    let holds (c : TariffContent) (now : MinuteTime) : Prop :=
      (∀ e, c.effectiveFrom = some e → e.key ≤ now.key) ∧ ∀ r, c.retireAt = some r → now.key < r.key
    (∃ now, holds a now) → (∃ now, holds b now) →
      (windowsIntersect a b = true ↔ ∃ now, holds a now ∧ holds b now)) ∧
  (∀ (p : Port) (tag : Byte) (body : List Byte) (s : State), s.admits p → body.length = 42 →
    let now := s.clock.time.toMinute
    let allowed (o : TariffOffer) : Prop :=
      (o.toDefault = true → o.content.pre = [] ∧ o.content.effectiveFrom = none ∧ o.content.retireAt = none) ∧
      (o.toDefault = false → o.content.pre ≠ []) ∧ o.content.pre.length ≤ 12 ∧
      1 ≤ o.content.minLength ∧ o.content.minLength ≤ 20 ∧ 1 ≤ o.content.maxLength ∧ o.content.maxLength ≤ 20 ∧
      o.content.pre.length ≤ o.content.minLength ∧ o.content.minLength ≤ o.content.maxLength ∧
      (∀ band : Fin 4, o.content.rates[band] ≤ 999999) ∧ o.content.connection ≤ 9999 ∧
      1 ≤ o.content.period ∧ o.content.period ≤ 600 ∧ o.content.minCredit ≤ 9999 ∧
      (∀ e, o.content.effectiveFrom = some e → e.valid = true) ∧
      (∀ r, o.content.retireAt = some r → r.valid = true ∧ now.key < r.key) ∧
      (∀ e r, o.content.effectiveFrom = some e → o.content.retireAt = some r → e.key < r.key)
    let answers (t : State) (r : Reply) : Prop := exec (.tariffPut p tag body) s = .next (t.answer p (r.response 1 tag))
    ((∀ o, tariffOffer body = some o → ¬ allowed o) → answers s (.refused .invalid)) ∧
    ∀ o, tariffOffer body = some o → allowed o →
      let c := o.content
      let clash (r : TariffRecord) : Bool := r.content.pre = c.pre && r.state ≠ .retiring && windowsIntersect r.content c
      let kept := s.tariff.records.filterMap (fun r =>
        if clash r then (if r.state = .live && r.pinned then some { r with state := .retiring } else none) else some r)
      let state (records : List TariffRecord) : RecordState :=
        if (∃ e, c.effectiveFrom = some e ∧ now.key < e.key) ∨ (∃ r ∈ records, r.state = .live ∧ r.content.pre = c.pre) then
          .pending
        else .live
      let full (records : List TariffRecord) : Prop := ∀ n, 1 ≤ n → n ≤ 239 → ∃ r ∈ records, r.slot = n
      let places (records : List TariffRecord) (slot : Nat) (after : List TariffRecord) : Prop :=
        1 ≤ slot ∧ slot ≤ 239 ∧ (∀ n, 1 ≤ n → n < slot → ∃ r ∈ records, r.slot = n) ∧
        ∃ lower higher, records = lower ++ higher ∧ (∀ r ∈ lower, r.slot < slot) ∧ (∀ r ∈ higher, slot < r.slot) ∧
          after = lower ++ { slot := slot, content := c, state := state records, pinned := false } :: higher
      (o.toDefault = true →
        (s.tariff.basePinned = false →
          answers { s with tariff := { s.tariff with base := c } } (.done (putBody 0 2 0 0))) ∧
        (s.tariff.basePinned = true →
          answers { s with tariff := { s.tariff with staging := some c } } (.doneDeferred (putBody 0 2 0 0)))) ∧
      (o.toDefault = false → o.replace = false →
        ((∃ r ∈ s.tariff.records, clash r = true) → answers s (.refused .overlap)) ∧
        ((∀ r ∈ s.tariff.records, clash r = false) →
          (full s.tariff.records → answers s (.refused .full)) ∧
          (∀ slot after, places s.tariff.records slot after →
            answers { s with tariff := { s.tariff with records := after } }
              (.done (putBody slot (state s.tariff.records).code 0 0))))) ∧
      (o.toDefault = false → o.replace = true →
        let withdrawn := s.tariff.records.filter clash
        let left := withdrawn.filter (fun r => r.state = .live && r.pinned)
        (full kept → answers s (.refused .full)) ∧
        (∀ slot after, places kept slot after →
          answers { s with tariff := { s.tariff with records := after } }
            ((if left = [] then Reply.done else Reply.doneDeferred)
              (putBody slot (state kept).code withdrawn.length left.length))))) ∧
  ∀ (p : Port) (tag slot : Byte) (s : State), s.admits p →
    let answers (t : State) (r : Reply) : Prop :=
      exec (.tariffWithdraw p tag [slot]) s = .next (t.answer p (r.response 3 tag))
    (slot.toNat = 0 ∨ 239 < slot.toNat → answers s (.refused .invalid)) ∧
    (1 ≤ slot.toNat → slot.toNat ≤ 239 →
      ((∀ r ∈ s.tariff.records, r.slot ≠ slot.toNat) → answers s (.refused .notFound)) ∧
      ∀ lower r higher, s.tariff.records = lower ++ r :: higher → r.slot = slot.toNat →
        (∀ q ∈ lower ++ higher, q.slot ≠ slot.toNat) →
        (r.state = .pending ∨ r.state = .live ∧ r.pinned = false →
          answers { s with tariff := { s.tariff with records := lower ++ higher } } (.done .empty)) ∧
        (r.state = .live → r.pinned = true →
          answers { s with tariff := { s.tariff with records := lower ++ { r with state := .retiring } :: higher } }
            (.doneDeferred .empty)) ∧
        (r.state = .retiring → answers s (.refused .state)))

/-- R64: an evaluation, taken whole. A record, not RETIRING, whose retire-at has come leaves the table, or becomes RETIRING
where it is LIVE and pinned; any other PENDING record whose effective-from has come becomes LIVE, unless a LIVE record of its
prefix that does not leave stands; and every other record stays as it is. It keeps the laws of the table. -/
def Obligations.EvaluationMovesEachRecord : Prop :=
  ∀ (now : MinuteTime) (records : List TariffRecord),
    let leaves (r : TariffRecord) : Prop :=
      r.state ≠ .retiring ∧ ∃ t, r.content.retireAt = some t ∧ t.key ≤ now.key
    let held (r : TariffRecord) : Prop :=
      (∃ e, r.content.effectiveFrom = some e ∧ now.key < e.key) ∨
        ∃ q ∈ records, q.state = .live ∧ ¬ leaves q ∧ q.content.pre = r.content.pre
    (∀ q, q ∈ evaluate now records ↔
      (∃ r ∈ records, leaves r ∧ r.state = .live ∧ r.pinned = true ∧ q = { r with state := .retiring }) ∨
      (∃ r ∈ records, ¬ leaves r ∧ r.state = .pending ∧ ¬ held r ∧ q = { r with state := .live }) ∨
      (q ∈ records ∧ ¬ leaves q ∧ (q.state = .pending → held q))) ∧
    ((evaluate now records).map TariffRecord.slot).Sublist (records.map TariffRecord.slot) ∧
    (∀ t : TariffTable, t.records = records → t.Lawful → ({ t with records := evaluate now records } : TariffTable).Lawful)

/-- R68, R70, R71: the analysis of a string and its two verdicts. The chosen record is the LIVE one of the longest prefix that
begins the string, or the default record; MORE is given while a longer LIVE prefix begins with the string and it has fewer
than 20 symbols. After a symbol the verdict follows the outcome and the chosen record's maximum; at the timeout MORE is taken
with the chosen record, and the length must lie between its minimum and its maximum. -/
def Obligations.AnalysisGivesTheVerdicts : Prop :=
  ∀ (t : TariffTable) (x : List Symbol) (c : Chosen) (matched : Bool), t.Lawful →
    let begins (r : TariffRecord) : Prop := r.state = .live ∧ r.content.pre <+: x
    (if matched then
        ∃ r ∈ t.records, begins r ∧ (∀ q ∈ t.records, begins q → q.content.pre.length ≤ r.content.pre.length) ∧
          c = ⟨r.slot, r.content⟩
      else (∀ r ∈ t.records, ¬ begins r) ∧ c = ⟨0, t.base⟩) →
    let more : Prop :=
      x.length < 20 ∧ ∃ r ∈ t.records, r.state = .live ∧ x <+: r.content.pre ∧ x.length < r.content.pre.length
    let blocked := c.content.category = .blocked
    (more → t.analyse x = .more ∧ t.dialledVerdict x = .continue) ∧
    (¬ more → blocked → t.analyse x = .barred c ∧ t.dialledVerdict x = .refused .barred c) ∧
    (¬ more → ¬ blocked → t.analyse x = (if matched then .decided c else .base c) ∧
      (x.length < c.content.maxLength → t.dialledVerdict x = .continue) ∧
      (x.length = c.content.maxLength → t.dialledVerdict x = .complete c) ∧
      (c.content.maxLength < x.length → t.dialledVerdict x = .refused .overlong c)) ∧
    (blocked → t.timeoutVerdict x = .refused .barred c) ∧
    (¬ blocked →
      (x.length < c.content.minLength → t.timeoutVerdict x = .refused .tooShort c) ∧
      (c.content.minLength ≤ x.length → x.length ≤ c.content.maxLength → t.timeoutVerdict x = .complete c) ∧
      (c.content.minLength ≤ x.length → c.content.maxLength < x.length → t.timeoutVerdict x = .refused .overlong c))

/-! ## The clock and the bands -/

/-- R77, R82, R86: the calendar and the bands. A second advances a valid clock to the valid time one second later by the calendar's
count, with February of 29 days in every year divisible by 4; only past the end of 2099 does it become 2000-01-01 00:00:00, a
SATURDAY, and unset. The band formed is that of the last switch point, of the schedule of the date's day type, whose minute is not
later than the minute of day. -/
def Obligations.CalendarAndBands : Prop :=
  ((∀ year, daysIn year 2 = if year % 4 = 0 then 29 else 28) ∧
  (∀ year, ∀ m ∈ [4, 6, 9, 11], daysIn year m = 30) ∧ (∀ year, ∀ m ∈ [1, 3, 5, 7, 8, 10, 12], daysIn year m = 31) ∧
  ∀ c : StationClock, c.Lawful →
    let seconds (t : ClockTime) : Nat := ((t.date.dayNumber * 24 + t.hour) * 60 + t.minute) * 60 + t.second
    (c.time ≠ ⟨⟨2099, 12, 31⟩, 23, 59, 59⟩ →
      (c.advance).Lawful ∧ seconds c.advance.time = seconds c.time + 1 ∧ c.advance.unset = c.unset ∧
      c.advance = { c with time := c.advance.time, weekday := c.advance.weekday }) ∧
    (c.time = ⟨⟨2099, 12, 31⟩, 23, 59, 59⟩ →
      c.advance = { c with time := ⟨⟨2000, 1, 1⟩, 0, 0, 0⟩, weekday := .saturday, unset := true })) ∧
  (∀ (date : Date) (weekday : Weekday) (holidays : List Date),
    (date ∈ holidays → dayTypeOf date weekday holidays = .holidaySunday) ∧
    (date ∉ holidays →
      dayTypeOf date weekday holidays =
        if weekday = .sunday then .holidaySunday else if weekday = .saturday then .saturday else .weekday)) ∧
  ∀ (c : StationClock) (earlier later : List SwitchPoint) (q : SwitchPoint),
    let day := dayTypeOf c.time.date c.weekday c.holidays
    (c.schedule .weekday = c.weekdaySchedule ∧ c.schedule .saturday = c.saturdaySchedule ∧
      c.schedule .holidaySunday = c.holidaySchedule) ∧
    (c.schedule day = earlier ++ q :: later → q.minute ≤ c.time.hour * 60 + c.time.minute →
      (∀ x ∈ later, c.time.hour * 60 + c.time.minute < x.minute) →
      c.formBand = { c with dayType := day, band := q.band })

/-- R77, R78, R84, R174: a second of the clock. Within a minute it changes the clock alone. At second 0 the holiday list is
pruned (at minute of day 0), the band formed, the tariff table evaluated (TABLE_CHANGED where a record moved) and the daily
report compared; and where the clock has run past 2099 CLOCK_UNSET is raised. With the main supply lost the clock runs alone
while the backup supply holds. The next second falls 1 s after this one was due, so that a run of seconds executed late counts
each of them. (MODEL'S CHOICE: a second executed early brings elapsed time to its instant, log entry 3; one that wraps past 2099
while the main supply is lost raises nothing, log entry 38.) -/
def Obligations.ClockSecondRunsTheMinuteEvent : Prop :=
  ∀ s : State,
    let t := max s.now s.clock.nextSecond
    let ran : State := { s with now := t, clock := { s.clock.advance with nextSecond := s.clock.nextSecond + 1000 } }
    (s.supplies.main = false →
      (s.supplies.backupLost = false → exec .clockSecond s = .next ran) ∧
      (s.supplies.backupLost = true → exec .clockSecond s = .next s)) ∧
    (s.supplies.main = true →
      let time := ran.clock.time
      let pruned := if time.minuteOfDay = 0 then ran.clock.holidays.filter (fun d => time.date.key ≤ d.key)
        else ran.clock.holidays
      let day := dayTypeOf time.date ran.clock.weekday pruned
      let formed : State := { ran with clock := { ran.clock with
        holidays := pruned, dayType := day, band := bandAt time.minuteOfDay (ran.clock.schedule day) } }
      let evaluated : State :=
        if evaluate time.toMinute s.tariff.records = s.tariff.records then formed
        else { formed with
          tariff := { s.tariff with records := evaluate time.toMinute s.tariff.records }
          attention := { s.attention with flags := { s.attention.flags with tableChanged := true } } }
      let minute : State :=
        if time.minuteOfDay = s.settings.dailyReport ∧ (s.report.state = .idle ∨ s.report.state = .deferred) then
          { evaluated with report := { s.report with
            attempts := 0, state := .scheduled
            timer := some (if s.session.state = .idle then .running t else .held 0) } }
        else evaluated
      (time.second ≠ 0 → exec .clockSecond s = .next ran) ∧
      (time.second = 0 → s.clock.time ≠ ⟨⟨2099, 12, 31⟩, 23, 59, 59⟩ → exec .clockSecond s = .next minute) ∧
      (s.clock.time = ⟨⟨2099, 12, 31⟩, 23, 59, 59⟩ →
        exec .clockSecond s =
          .next (State.occurrence .clock .clockUnset .notice (State.setNormality .clock true minute))))

/-- R79, R80, R83, R85: CLOCK_SET, HOLIDAY_SET and BAND_SET. A valid time sets the clock and its weekday, makes CLOCK normal,
evaluates the tariff table and forms the band (and, MODEL'S CHOICE (log entry 19), begins a whole second); a list of at most 24
dates of 2000..2099, strictly increasing, replaces the holiday list; 1 to 6 switch points in their ranges, the first at minute
0, strictly increasing, replace the schedule of the day type named, and the band is formed where that is the current one. Any
other is refused INVALID and changes nothing. -/
def Obligations.ClockHolidaysAndBandsAreSet : Prop :=
  (∀ (p : Port) (tag year month day hour minute second : Byte) (s : State), s.admits p →
    let time : ClockTime :=
      ⟨⟨2000 + year.toNat, month.toNat, day.toNat⟩, hour.toNat, minute.toNat, second.toNat⟩
    let cmd : Instr := .clockSet p tag [year, month, day, hour, minute, second]
    let good := year.toNat ≤ 99 ∧ 1 ≤ month.toNat ∧ month.toNat ≤ 12 ∧ 1 ≤ day.toNat ∧
      day.toNat ≤ daysIn (2000 + year.toNat) month.toNat ∧ hour.toNat ≤ 23 ∧ minute.toNat ≤ 59 ∧ second.toNat ≤ 59
    let set : State := State.makeNormal .clock { s with clock := { s.clock with
      time := time, weekday := time.date.weekday, unset := false, nextSecond := s.now + 1000 } }
    let evaluated : State :=
      if evaluate time.toMinute set.tariff.records = set.tariff.records then set
      else { set with
        tariff := { set.tariff with records := evaluate time.toMinute set.tariff.records }
        attention := { set.attention with flags := { set.attention.flags with tableChanged := true } } }
    (good →
      exec cmd s =
        .next (State.answer p ((Reply.done .empty).response 13 tag) { evaluated with clock := evaluated.clock.formBand })) ∧
    (¬ good → exec cmd s = .next (s.answer p ((Reply.refused .invalid).response 13 tag)))) ∧
  (∀ (p : Port) (tag : Byte) (body : List Byte) (s : State), s.admits p → body.length = 1 + 2 * byteAt body 0 →
    let dates := holidaysAt body 1 (byteAt body 0)
    let good := byteAt body 0 ≤ 24 ∧ (∀ d ∈ dates, d.valid = true) ∧ (dates.map Date.key).Pairwise (· < ·)
    (good → exec (.holidaySet p tag body) s =
      .next (State.answer p ((Reply.done .empty).response 8 tag)
        { s with clock := ({ s.clock with holidays := dates } : StationClock).formBand })) ∧
    (¬ good → body.length ≤ 60 →
      exec (.holidaySet p tag body) s = .next (s.answer p ((Reply.refused .invalid).response 8 tag)))) ∧
  (∀ (p : Port) (tag : Byte) (body : List Byte) (s : State), s.admits p → body.length = 2 + 3 * byteAt body 1 →
    let good (day : DayType) (points : List SwitchPoint) : Prop :=
      dayTypeOfCode (byteAt body 0) = some day ∧
      pointsAt body 2 (byteAt body 1) = points.map (fun q => (q.minute, q.band.val)) ∧
      1 ≤ points.length ∧ points.length ≤ 6 ∧ points.head?.map SwitchPoint.minute = some 0 ∧
      (∀ q ∈ points, q.minute ≤ 1439) ∧ (points.map SwitchPoint.minute).Pairwise (· < ·)
    (∀ day points, good day points →
      exec (.bandSet p tag body) s =
        .next (State.answer p ((Reply.done .empty).response 6 tag) { s with clock :=
          if day = s.clock.dayType then (s.clock.setSchedule points day).formBand else s.clock.setSchedule points day })) ∧
    ((∀ day points, ¬ good day points) → body.length ≤ 60 →
      exec (.bandSet p tag body) s = .next (s.answer p ((Reply.refused .invalid).response 6 tag))))

/-! ## Call rating -/

/-- R91 to R97: the step charge formed under each rounding, limited to 65535 MU, with the accumulator it leaves and the flags it
sets when taken; and the credit threshold, the larger of the minimum credit and C0 with the first step charge. R93: while one
band stands, the unlimited CARRY charges of k steps add up to the exact cost of those steps rounded down. R104: K is the greatest
number of further steps, at the band read, whose charges together available credit pays; the runway is the whole seconds to the
next boundary with K step periods, and where that passes 65535 s, or K has no bound, it is 65535 s and saturated. -/
def Obligations.StepChargesThresholdAndRunway : Prop :=
  ((∀ (acc n : Nat),
    stepCharge .carry acc n =
      { charge := min 65535 ((acc + n) / 6000), acc := (acc + n) % 6000, inexact := n % 6000 ≠ 0,
        limited := 65535 < (acc + n) / 6000 } ∧
    stepCharge .stepUp acc n =
      { charge := min 65535 ((n + 5999) / 6000), acc := acc, inexact := n % 6000 ≠ 0, limited := 65535 < (n + 5999) / 6000 } ∧
    stepCharge .stepDown acc n =
      { charge := min 65535 (n / 6000), acc := acc, inexact := n % 6000 ≠ 0, limited := 65535 < n / 6000 }) ∧
  (∀ (acc n : Nat) (rounding : Rounding), 393210000 ≤ n → (stepCharge rounding acc n).charge = 65535) ∧
  (∀ (rounding : Rounding) (c : StepCharge),
    CallFlags.ofCharge rounding c =
      { CallFlags.empty with
        roundedUp := rounding = .stepUp && c.inexact, roundedDown := rounding = .stepDown && c.inexact,
        clipped := c.limited }) ∧
  ∀ (slot : Nat) (s : State),
    let c := s.tariff.contentOf slot
    let rounding := match c.rounding with
      | .fixed r => r
      | .station => s.settings.rounding
    s.thresholdOf slot =
      max c.minCredit (c.connection + (stepCharge rounding 0 (c.rates[s.clock.band] * c.period)).charge)) ∧
  (∀ (n : Nat), n < 393210000 → ∀ (steps : List Unit),
    let taken := steps.foldl (fun (x : Nat × Nat) _ =>
      (x.1 + (stepCharge .carry x.2 n).charge, (stepCharge .carry x.2 n).acc)) (0, 0)
    taken.1 = steps.length * n / 6000 ∧ taken.2 < 6000) ∧
  (∀ (acc n available : Nat), 0 < n → n < 393210000 → acc < 6000 →
    ∃ k, furtherSteps .carry acc n available = some k ∧ ∀ m, (acc + m * n) / 6000 ≤ available ↔ m ≤ k) ∧
  (∀ (rounding : Rounding) (acc n available : Nat), rounding ≠ .carry → 0 < (stepCharge rounding 0 n).charge →
    ∃ k, furtherSteps rounding acc n available = some k ∧ ∀ m, m * (stepCharge rounding 0 n).charge ≤ available ↔ m ≤ k) ∧
  (∀ (rounding : Rounding) (acc n available : Nat), 393210000 ≤ n →
    furtherSteps rounding acc n available = some (available / 65535)) ∧
  (∀ (rounding : Rounding) (acc n available : Nat), n = 0 ∨ rounding ≠ .carry ∧ (stepCharge rounding 0 n).charge = 0 →
    furtherSteps rounding acc n available = none) ∧
  ∀ (rounding : Rounding) (acc n available period seconds : Nat),
    (furtherSteps rounding acc n available = none → runwayOf rounding acc n available period seconds = (65535, true)) ∧
    ∀ k, furtherSteps rounding acc n available = some k →
      (seconds + k * period ≤ 65535 →
        runwayOf rounding acc n available period seconds = (seconds + k * period, false)) ∧
      (65535 < seconds + k * period → runwayOf rounding acc n available period seconds = (65535, true))

/-- R102, R103: the warning computation of a RATED call, with its runway. Where the next step's charge passes available credit
the warning becomes active for the next boundary, its tone starting the lead before it or at once, with CREDIT_LOW; a warning
already active for that boundary stays as it is; and where the charge can be paid the warning is cancelled. -/
def Obligations.LookAheadWarnsOfTheNextBoundary : Prop :=
  ∀ (call : CallInfo) (c : RatedCall) (s : State), s.rating.context = .rated call c →
    let content := s.tariff.contentOf call.slot
    let n := content.rates[s.clock.band] * content.period
    let runway := runwayOf c.rounding c.acc n s.available content.period ((c.nextBoundary - s.now) / 1000)
    let start := max s.now (c.nextBoundary - s.settings.warningLead * 1000)
    let computed : CallInfo :=
      { call with flags := { call.flags with runwaySaturated := call.flags.runwaySaturated || runway.2 } }
    let leaves (w : Option Warning) : State :=
      { s with rating := { s.rating with context := .rated computed { c with warning := w, runway := runway.1 } } }
    ((stepCharge c.rounding c.acc n).charge ≤ s.available → s.lookAhead = leaves none) ∧
    (s.available < (stepCharge c.rounding c.acc n).charge →
      (∀ w, c.warning = some w → w.boundary = c.nextBoundary → s.lookAhead = leaves (some w)) ∧
      ((∀ w, c.warning = some w → w.boundary ≠ c.nextBoundary) →
        s.lookAhead = { leaves (some ⟨c.nextBoundary, start, start = s.now⟩) with
          attention := { s.attention with flags := { s.attention.flags with creditLow := true } } }))

/-- R98, R99, R121, R141: the answer of a caller's call, by a polarity reversal in SIGNALLED mode or by the end of the presumed
delay, which marks the call. A CHARGED call is charged C0 and then its first step, becomes RATED with its next boundary a step
period on, and looks ahead; where available credit is below the two together it is cut off with nothing charged. A FREE or
EMERGENCY call becomes UNRATED. -/
def Obligations.AnswerRatesTheCall : Prop :=
  ∀ (presumed : Bool) (line : LineCall) (d : Decision) (call : CallInfo) (s : State), s.supplies.main = true →
    s.line.state = .awaitAnswer → s.line.call = some line → line.owner = .session →
    (presumed = false → line.request.answerMode = .signalled) →
    (presumed = true → ∃ t, s.line.presumedEnds = some t ∧ t ≤ s.line.deadline ∧ t ≤ s.now) →
    s.session.state = .ringing → s.session.decision = some d → s.rating.context = .placed call →
    let cmd : Instr := if presumed then .presumedDelayEnd else .polarityReversal
    let marked : CallInfo := { call with flags := { call.flags with presumedAnswer := call.flags.presumedAnswer || presumed } }
    let connected (context : RatingContext) : State := { s with
      line := { s.line with state := .connected, presumedEnds := none, sending := none }
      session := { s.session with state := .connected }
      rating := { s.rating with context := context } }
    let answered (t : State) : State :=
      t.recordEvent .answered (some d.slot) (some d.category) none (some s.rating.callNumber)
    (call.category ≠ .charged → exec cmd s = .next (answered (connected (.unrated marked s.now)))) ∧
    (call.category = .charged →
      let content := s.tariff.contentOf call.slot
      let band := s.clock.band
      let rounding := match content.rounding with
        | .fixed r => r
        | .station => s.settings.rounding
      let step := stepCharge rounding 0 (content.rates[band] * content.period)
      let begun : RatedCall :=
        { rounding := rounding, answeredAt := s.now, nextBoundary := s.now, acc := 0, lastBand := band, steps := 0, total := 0,
          warning := none, runway := 0 }
      (content.connection + step.charge ≤ s.available →
        exec cmd s = .next (answered (State.lookAhead
          (State.takeCharge call.number step.charge (State.takeCharge call.number content.connection (connected
            (.rated { marked with flags := marked.flags.union (CallFlags.ofCharge rounding step) }
              { begun with acc := step.acc, steps := 1, total := min 4294967295 (content.connection + step.charge),
                           nextBoundary := s.now + content.period * 1000 }))))))) ∧
      (s.available < content.connection + step.charge →
        exec cmd s = .next (State.endCallToEnded .cutoff (answered (connected (.rated marked begun))))))

/-- R100, R101, R103: a step boundary, and the start of the warning tone. At the boundary the warning ends; where available
credit is below the step's charge the call is cut off with nothing charged, and otherwise the charge is taken, the step
counted, a change of band marked, the boundary moved on and the look ahead made. (That the steps are counted no further than
4294967295 is the MODEL'S CHOICE, log entry 40.) -/
def Obligations.StepBoundaryChargesOrCutsOff : Prop :=
  ∀ (call : CallInfo) (c : RatedCall) (s : State), s.supplies.main = true → s.rating.context = .rated call c →
    (c.nextBoundary ≤ s.now →
      let content := s.tariff.contentOf call.slot
      let band := s.clock.band
      let step := stepCharge c.rounding c.acc (content.rates[band] * content.period)
      (step.charge ≤ s.available →
        let flags : CallFlags := { call.flags with bandChanged := call.flags.bandChanged || band ≠ c.lastBand }
        let charged : CallInfo := { call with flags := flags.union (CallFlags.ofCharge c.rounding step) }
        let begun : RatedCall :=
          { c with acc := step.acc, lastBand := band, steps := min 4294967295 (c.steps + 1),
                   total := min 4294967295 (c.total + step.charge),
                   nextBoundary := c.nextBoundary + content.period * 1000, warning := none }
        exec .stepBoundary s = .next (State.lookAhead (State.takeCharge call.number step.charge
          { s with rating := { s.rating with context := .rated charged begun } }))) ∧
      (s.available < step.charge → s.session.state = .connected → s.session.decision.isSome = true →
        exec .stepBoundary s = .next (State.endCallToEnded .cutoff s))) ∧
    (∀ w, c.warning = some w → w.playing = false → w.toneStart ≤ s.now →
      exec .warningToneStart s = .next { s with rating := { s.rating with
        context := .rated call { c with warning := some { w with playing := true } } } })

/-- R109: FLAGS_READ_CLEAR returns the accrued rating flags and clears them, and changes nothing else. -/
def Obligations.AccruedFlagsAreReadAndCleared : Prop :=
  ∀ (p : Port) (tag : Byte) (s : State), s.admits p →
    exec (.flagsReadClear p tag []) s =
      .next (State.answer p ((Reply.done (.callFlags s.rating.accrued)).response 21 tag)
        { s with rating := { s.rating with accrued := CallFlags.empty } })

/-- R67, R90, R106, R107, R108, R123, R142, R147: the end of a call the session holds. Its rating context closes: an unanswered
call leaves nothing, an answered one its summary and its flags in the accrued flags. A line the session owns is released and a
request of its withdrawn, the pin is released, the decision and the threshold go, and ENDED is recorded with its cause. (That the
duration is held at 4294967295 is the MODEL'S CHOICE, log entry 40.) -/
def Obligations.CallEndClosesEverythingTheCallHeld : Prop :=
  (∀ (now : Nat) (r : Rating),
    (r.context = .empty → r.endCall now = r) ∧
    (∀ call, r.context = .placed call → r.endCall now = { r with context := .empty }) ∧
    (∀ (call : CallInfo) (answeredAt steps total : Nat),
      (∃ c, r.context = .rated call c ∧ c.answeredAt = answeredAt ∧ c.steps = steps ∧ c.total = total) ∨
        r.context = .unrated call answeredAt ∧ steps = 0 ∧ total = 0 →
      r.endCall now = { r with
        context := .empty
        summary := some { number := call.number, symbols := call.symbols, slot := call.slot, category := call.category,
                          duration := min 4294967295 ((now - answeredAt) / 1000), steps := steps, total := total,
                          flags := call.flags }
        accrued := r.accrued.union call.flags })) ∧
  (∀ (t : TariffTable) (slot : Nat), t.releasePin slot =
    if slot = 0 then { t with base := t.staging.getD t.base, basePinned := false, staging := none }
    else { t with records := t.records.filterMap (fun r =>
      if r.slot = slot then (if r.state = .retiring then none else some { r with pinned := false }) else some r) }) ∧
  ∀ (cause : EndCause) (d : Decision) (s : State), s.session.decision = some d →
    let released : Line :=
      if s.lineOwner = some .session ∧ s.line.state.seized = true then
        { s.line with state := .releasing, call := none, deadline := s.now + 900, presumedEnds := none, phase := .sent,
                      sending := none, sessionRequest := none }
      else { s.line with sessionRequest := none }
    let number := if s.session.state = .awaitCredit then none else some s.rating.callNumber
    let ended : State := { s with
      rating := s.rating.endCall s.now
      line := released
      tariff := s.tariff.releasePin d.slot
      session := { s.session with
        decision := none, threshold := none, eventCount := (s.session.eventCount + 1) % 65536
        event := some { event := .ended cause, symbols := s.session.buffer, slot := some d.slot, category := some d.category,
                        threshold := none, callNumber := number } }
      attention := { s.attention with flags := { s.attention.flags with callEvent := true } } }
    s.endCall cause = ended ∧
    s.endCallToEnded cause = { ended with session := { ended.session with
      state := .ended, timer := none, endTone := if cause = .busy then .busy else .reorder, toneSince := s.now } }

/-! ## The line -/

/-- R112, R113, R115, R116, R117, R176: the line request with what the line controller adds to it; the grant, made while the line
is FREE and LINE normal, to the session's request before the report unit's, and to that only in IDLE; loop current in SEIZING;
dial tone in AWAIT_DIAL_TONE, which makes the streak 0 and DIALTONE normal and begins the dialling; and the two failures, which
end a caller's call as DIAL_TONE_FAILURE and are counted, the third raising NO_DIAL_TONE. (MODEL'S CHOICE: loop current outside
SEIZING and dial tone outside AWAIT_DIAL_TONE change nothing, log entry 4; a failure ends the call before it is counted, log entry
29.) -/
def Obligations.SeizureAndDialTone : Prop :=
  (∀ (st : Settings) (owner : LineOwner) (string : List Symbol), st.lineRequest owner string =
    { dialString := string, method := st.method, answerMode := st.answerMode, presumedDelay := st.presumedDelay,
      answerLimit := if owner = .session then 90 else 45 }) ∧
  (∀ s : State, s.supplies.main = true →
    let granted (owner : LineOwner) (r : LineRequest) : Line :=
      { s.line with
        state := .seizing, call := some { owner := owner, request := r, position := 0 }, deadline := s.now + 300,
        presumedEnds := none, phase := .sent, sending := none,
        sessionRequest := if owner = .session then none else s.line.sessionRequest,
        reportRequest := if owner = .report then none else s.line.reportRequest }
    (s.line.state = .free → s.normal .line = true →
      (∀ r, s.line.sessionRequest = some r → exec .lineGrant s = .next { s with line := granted .session r }) ∧
      (∀ r, s.line.sessionRequest = none → s.line.reportRequest = some r → s.session.state = .idle →
        exec .lineGrant s = .next { s with
          line := granted .report r
          report := if s.report.state = .waitLine then { s.report with state := .calling } else s.report })) ∧
    (s.line.state ≠ .free ∨ s.normal .line = false ∨
        s.line.sessionRequest = none ∧ (s.line.reportRequest = none ∨ s.session.state ≠ .idle) →
      exec .lineGrant s = .next s) ∧
    (s.line.state = .seizing →
      exec .loopCurrentSeen s =
        .next { s with line := { s.line with state := .awaitDialTone, deadline := s.now + 4000 } }) ∧
    (s.line.state ≠ .seizing → exec .loopCurrentSeen s = .next s) ∧
    (s.line.state ≠ .awaitDialTone → exec .dialToneClassified s = .next s)) ∧
  (∀ s : State, s.supplies.main = true → s.line.state = .awaitDialTone →
    let heard : State := State.makeNormal .dialtone { s with line := { s.line with streak := 0 } }
    ∀ call, heard.line.call = some call →
      exec .dialToneClassified s = .next { heard with line := { heard.line with
        state := .dialling
        call := some { call with position := 0 }
        phase := match call.request.method, call.request.dialString with
          | _, [] => .sent
          | .tone, _ :: _ => .tone
          | .pulse, k :: _ => .pulseBreak (if k = 0 then 10 else k.val)
        phaseEnds := heard.now + match call.request.method, call.request.dialString with
          | _, [] => 0
          | .tone, _ :: _ => 70
          | .pulse, _ :: _ => 60 } }) ∧
  ∀ s : State, s.supplies.main = true → s.line.deadline ≤ s.now →
    let counted (t : State) : State :=
      let u : State := { t with line := { t.line with streak := min 3 (t.line.streak + 1) } }
      if 2 ≤ t.line.streak ∧ t.normal .dialtone = true then
        State.occurrence .dialtone .noDialTone .fault (State.setNormality .dialtone true u)
      else u
    let failed : State :=
      if s.lineOwner = some .report then State.reportFail true { s with line := s.line.release s.now }
      else s.endCallToEnded .dialToneFailure
    (s.lineOwner = some .report ∧ s.report.state = .calling ∨
      s.lineOwner = some .session ∧ s.session.state = .placing ∧ s.session.decision.isSome = true) →
    (s.line.state = .seizing → exec .seizureTimeout s = .next (counted failed)) ∧
    (s.line.state = .awaitDialTone → exec .dialToneTimeout s = .next (counted failed))

/-- R118, R119, R121, R141: out-dialling. In TONE each symbol is 70 ms of tone and 70 ms of silence; in PULSE each pulse is a
break of 60 ms and a make of 40 ms, `0` being ten, with 700 ms between digits. The position rises as a symbol ends, and n
symbols take n × 140 ms, or with p pulses p × 100 ms and (n − 1) × 700 ms. At the end of the dialling the line is in
AWAIT_ANSWER with its answer wait and, in PRESUMED mode, the presumed delay, and the session that owns it is RINGING. R122: a tone
string is asked for by the owner in CONNECTED while none is being sent, and refused otherwise. It is sent in the same way: from
the start, symbol k has its tone for 70 ms from k × 140 ms on, then no tone for 70 ms, and the position has then risen by 1. -/
def Obligations.OutDiallingSendsEverySymbol : Prop :=
  (∀ (owner : LineOwner) (string : List Symbol) (s : State),
    (s.line.state = .connected → s.lineOwner = some owner → s.line.sending = none →
      s.sendTones owner string =
        { s with line := { s.line with sending := some ⟨string, s.now + string.length * 140⟩ } }) ∧
    (s.line.state ≠ .connected ∨ s.lineOwner ≠ some owner ∨ s.line.sending ≠ none → s.sendTones owner string = s)) ∧
  (∀ (s : State) (tones : ToneString) (start k r : Nat), s.line.state = .connected → s.line.sending = some tones →
    tones.sentAt = start + tones.symbols.length * 140 → s.now = start + k * 140 + r → r < 140 →
    tones.position s.now = min tones.symbols.length k ∧
      (r < 70 → s.symbolTone = tones.symbols[k]?) ∧ (70 ≤ r → s.symbolTone = none) ∧ s.loopClosed = true) ∧
  (∀ s : State, s.line.state = .dialling → ∀ call, s.line.call = some call →
    (s.line.phase = .tone → s.symbolTone = call.request.dialString[call.position]? ∧ s.loopClosed = true) ∧
    (s.line.phase = .silence → s.symbolTone = none ∧ s.loopClosed = true) ∧
    (∀ left, s.line.phase = .pulseBreak left → s.symbolTone = none ∧ s.loopClosed = false) ∧
    (∀ left, s.line.phase = .pulseMake left → s.symbolTone = none ∧ s.loopClosed = true) ∧
    (s.line.phase = .interDigit → s.symbolTone = none ∧ s.loopClosed = true)) ∧
  (∀ (l : Line) (call : LineCall) (now : Nat), l.call = some call → call.request.dialString ≠ [] →
    let n := call.request.dialString.length
    let pulses := (call.request.dialString.map (fun k => if k = 0 then 10 else k.val)).sum
    (l.startDialling now).diallingEnds =
      now + if call.request.method = .tone then n * 140 else pulses * 100 + (n - 1) * 700) ∧
  ∀ (s : State) (call : LineCall), s.supplies.main = true → s.line.state = .dialling → s.line.call = some call →
    let n := call.request.dialString.length
    let p := call.position
    let point (phase : DialPhase) (position duration : Nat) : Prop :=
      let l : Line :=
        { s.line with call := some { call with position := position }, phase := phase,
                      phaseEnds := s.line.phaseEnds + duration }
      exec .dialSymbolSent s = .next { s with line := l } ∧ l.diallingEnds = s.line.diallingEnds
    (s.line.phase ≠ .sent → s.line.phaseEnds ≤ s.now → p < n →
      (call.request.method = .tone →
        (s.line.phase = .tone → point .silence p 70) ∧
        (s.line.phase = .silence → p + 1 < n → point .tone (p + 1) 70) ∧
        (s.line.phase = .silence → p + 1 = n → point .sent (p + 1) 0)) ∧
      (call.request.method = .pulse →
        (∀ left, 1 ≤ left → s.line.phase = .pulseBreak left → point (.pulseMake left) p 40) ∧
        (∀ left, 2 ≤ left → s.line.phase = .pulseMake left → point (.pulseBreak (left - 1)) p 60) ∧
        (s.line.phase = .pulseMake 1 → p + 1 < n → point .interDigit (p + 1) 700) ∧
        (s.line.phase = .pulseMake 1 → p + 1 = n → point .sent (p + 1) 0) ∧
        (∀ k later, s.line.phase = .interDigit → call.request.dialString.drop p = k :: later →
          point (.pulseBreak (if k = 0 then 10 else k.val)) p 60))) ∧
    (s.line.diallingEnds ≤ s.now →
      exec .diallingEnd s = .next { s with
        line := { s.line with
          state := .awaitAnswer, call := some { call with position := n }, phase := .sent,
          deadline := s.now + call.request.answerLimit * 1000
          presumedEnds :=
            if call.request.answerMode = .presumed then some (s.now + call.request.presumedDelay * 1000) else none }
        session :=
          if call.owner = .session ∧ s.session.state = .placing then { s.session with state := .ringing } else s.session })

/-- R116, R120, R121, R122, R123, R124: the ends that the line controller gives a call itself, and the events that change
nothing. The line is released with its guard of 900 ms, and the owner is handed the end cause: a caller's call ends with it, and
a report attempt fails. A presumed delay longer than the answer limit is never an answer, and the answer wait then ends the call;
one that is shorter keeps the answer wait from ending it. In a pulse's break and make no loss of loop current falls. (That
a classification, a reversal or a loss in a line state where it has no meaning changes nothing is the MODEL'S CHOICE, log entry
4.) -/
def Obligations.LineControllerEndsTheCall : Prop :=
  ∀ s : State, s.supplies.main = true →
    let mode (m : AnswerMode) : Prop := ∃ call, s.line.call = some call ∧ call.request.answerMode = m
    let pulsing := ∃ left, s.line.phase = .pulseBreak left ∨ s.line.phase = .pulseMake left
    let gives (cmd : Instr) (cause : EndCause) : Prop :=
      cmd = .busyClassified ∧ cause = .busy ∧ (s.line.state = .dialling ∨ s.line.state = .awaitAnswer) ∨
      cmd = .busyClassified ∧ cause = .farEndClear ∧ s.line.state = .connected ∧ mode .presumed ∨
      cmd = .polarityReversal ∧ cause = .farEndClear ∧ s.line.state = .connected ∧ mode .signalled ∨
      cmd = .answerWaitEnd ∧ cause = .noAnswer ∧ s.line.state = .awaitAnswer ∧ s.line.deadline ≤ s.now ∧
        (∀ t, s.line.presumedEnds = some t → s.line.deadline ≤ t) ∨
      cmd = .loopCurrentLoss ∧ cause = .lineLost ∧
        (s.line.state = .awaitDialTone ∨ s.line.state = .dialling ∧ ¬ pulsing ∨ s.line.state = .awaitAnswer ∨
          s.line.state = .connected)
    (∀ cmd cause, gives cmd cause →
      (s.lineOwner = some .session → s.session.state.holdsCall = true → s.session.decision.isSome = true →
        exec cmd s = .next (s.endCallToEnded cause)) ∧
      (s.lineOwner = some .report → s.report.state = .calling ∨ s.report.state = .sending ∨ s.report.state = .awaitReply →
        exec cmd s = .next (State.reportFail true { s with line := { s.line with
          state := .releasing, call := none, deadline := s.now + 900, presumedEnds := none, phase := .sent,
          sending := none } }))) ∧
    (s.line.state = .free ∨ s.line.state = .seizing ∨ s.line.state = .releasing →
      exec .busyClassified s = .next s ∧ exec .loopCurrentLoss s = .next s) ∧
    (s.line.state = .dialling ∧ pulsing → exec .loopCurrentLoss s = .next s) ∧
    (∀ t, s.line.presumedEnds = some t →
      (s.line.deadline < t → exec .presumedDelayEnd s = .next s) ∧ (t < s.line.deadline → exec .answerWaitEnd s = .next s)) ∧
    (s.line.state = .awaitDialTone ∨ s.line.state = .connected ∧ mode .signalled → exec .busyClassified s = .next s) ∧
    (mode .presumed ∨ s.line.state ≠ .awaitAnswer ∧ s.line.state ≠ .connected → exec .polarityReversal s = .next s) ∧
    (s.line.state ≠ .connected → exec .acknowledgeClassified s = .next s ∧ exec .refuseClassified s = .next s)

/-- R113, R123, R125, R175, R183: the end of the release guard makes the line FREE, and a report unit that waits for it passes
to its next state. 5 s without line presence raise LINE_DOWN once, and 10 s of presence make LINE normal, whereupon a report
attempt that waited for it begins; with the centre number emptied meanwhile it fails at once (MODEL'S CHOICE between R175 and R190,
log entry 41). (RELEASE_GUARD_END outside RELEASING changes nothing: MODEL'S CHOICE, log entry 4.) -/
def Obligations.GuardEndAndLinePresence : Prop :=
  ∀ s : State, s.supplies.main = true →
    (s.line.state = .releasing → s.line.deadline ≤ s.now →
      let freed : State := { s with line := { s.line with state := .free } }
      (s.report.state ≠ .releasing → exec .releaseGuardEnd s = .next freed) ∧
      (s.report.state = .releasing → exec .releaseGuardEnd s = .next freed.afterAttempt)) ∧
    (s.line.state ≠ .releasing → exec .releaseGuardEnd s = .next s) ∧
    (s.normal .line = true →
      exec .lineAbsent5s s = .next (State.occurrence .line .lineDown .fault (State.setNormality .line true s))) ∧
    (s.normal .line = false → exec .lineAbsent5s s = .next s) ∧
    let present : State := State.makeNormal .line s
    (present.report.state = .scheduled → present.report.timer = some .waitingLine →
      (s.settings.centreNumber ≠ [] → exec .linePresent10s s = .next present.enterWaitLine) ∧
      (s.settings.centreNumber = [] → exec .linePresent10s s =
        .next (State.reportFail false { present with report := { present.report with timer := none } }))) ∧
    (present.report.state ≠ .scheduled → exec .linePresent10s s = .next present) ∧
    (present.report.timer ≠ some .waitingLine → exec .linePresent10s s = .next present)

/-! ## Reports to the centre -/

/-- R172 to R176, R183: the causes that schedule a report, the expiry of the retry timer, and what follows an attempt. An ALARM
and REPORT_NOW give SCHEDULED with delay 0 and attempt count 0, or during an attempt the renewal mark; a FAULT gives a delay of
30 s in IDLE alone; a NOTICE nothing. At the expiry an empty centre number fails the attempt, an abnormal LINE keeps it waiting,
and otherwise the line is asked for. After failures the delays are 2, 4, 8 and 16 min, and the fifth leaves DEFERRED. (MODEL'S
CHOICE: the expiry of a timer that is held, absent or waiting for LINE changes nothing, log entry 4; an ALARM or REPORT_NOW gives a
timer that waits for LINE its delay of 0 afresh, log entry 33.) -/
def Obligations.ReportsAreScheduledAndRetried : Prop :=
  ∀ s : State,
    let timer (delay : Nat) : Option RetryTimer :=
      some (if s.session.state = .idle then .running (s.now + delay) else .held delay)
    let scheduled (r : ReportUnit) (delay : Nat) : State :=
      { s with report := { r with state := .scheduled, timer := timer delay } }
    let afresh : State := scheduled { s.report with attempts := 0 } 0
    let resting := s.report.state = .idle ∨ s.report.state = .scheduled ∨ s.report.state = .deferred
    let renewed : State := { s with report := { s.report with renewal := true } }
    (∀ (p : Port) (tag : Byte), s.admits p →
      (resting → exec (.reportNow p tag []) s = .next (afresh.answer p ((Reply.done .empty).response 20 tag))) ∧
      (¬ resting → exec (.reportNow p tag []) s = .next (renewed.answer p ((Reply.done .empty).response 20 tag)))) ∧
    ((resting → s.reportTrigger .alarm = afresh) ∧ (¬ resting → s.reportTrigger .alarm = renewed) ∧
      (s.report.state = .idle → s.reportTrigger .fault = scheduled s.report 30000) ∧
      (s.report.state ≠ .idle → s.reportTrigger .fault = s) ∧ s.reportTrigger .notice = s) ∧
    (s.supplies.main = true → s.report.state = .scheduled →
      (∀ t, s.report.timer = some (.running t) → t ≤ s.now →
        let asked (r : Option LineRequest) : State := { s with
          report := { s.report with state := .waitLine, timer := none, renewal := false }
          line := { s.line with reportRequest := r } }
        (s.settings.centreNumber = [] →
          exec .retryTimerExpiry s =
            .next (State.reportFail false { s with report := { s.report with timer := none } })) ∧
        (s.settings.centreNumber ≠ [] → s.normal .line = false →
          exec .retryTimerExpiry s = .next { s with report := { s.report with timer := some .waitingLine } }) ∧
        (s.settings.centreNumber ≠ [] → s.normal .line = true →
          (s.settings.method = .pulse → (∃ k ∈ s.settings.centreNumber, 10 ≤ k.val) →
            exec .retryTimerExpiry s = .next (State.reportFail false (asked s.line.reportRequest))) ∧
          (s.settings.method = .tone ∨ (∀ k ∈ s.settings.centreNumber, k.val < 10) →
            s.line.reportRequest = none → s.lineOwner ≠ some .report →
            exec .retryTimerExpiry s =
              .next (asked (some (s.settings.lineRequest .report s.settings.centreNumber)))))) ∧
      ((∀ t, s.report.timer ≠ some (.running t)) → exec .retryTimerExpiry s = .next s)) ∧
    let passed : ReportUnit :=
      { s.report with renewal := false, outcome := none, replyEnds := none, snapshot := none, repeated := false,
                      timer := none }
    (s.report.outcome = some .acknowledged →
      s.afterAttempt =
        if s.anyOutstanding then scheduled passed 0 else { s with report := { passed with state := .idle } }) ∧
    (s.report.outcome = some .failed →
      (s.report.renewal = true → s.afterAttempt = scheduled { passed with attempts := 0 } 0) ∧
      (s.report.renewal = false →
        (∀ k delay, (k, delay) ∈ [(1, 120000), (2, 240000), (3, 480000), (4, 960000)] → s.report.attempts = k →
          s.afterAttempt = scheduled passed delay) ∧
        (s.report.attempts = 5 → s.afterAttempt = { s with report := { passed with state := .deferred } })))

/-- R171, R177, R178: the report snapshot and its string, taken when the centre answers a report call. Up to 8 outstanding
records are included, by severity, then age, then source code; each takes the snapshot's count and state digit; the tally part
is present where COLLECTION is included, and taking it clears the changed mark; and the string is sent as tones. Its check digit
makes the sum of its digits a multiple of 10. -/
def Obligations.ReportSnapshotAndString : Prop :=
  (∀ s : State,
    let before (a b : Source × ConditionRecord) : Prop :=
      a.2.severity.rank < b.2.severity.rank ∨ a.2.severity = b.2.severity ∧
        (a.2.firstRaised.key < b.2.firstRaised.key ∨
          a.2.firstRaised.key = b.2.firstRaised.key ∧ a.1.code < b.1.code)
    let due (x : Source × ConditionRecord) : Prop :=
      s.record x.1 = some x.2 ∧ s.reportEnabled x.1 = true ∧ (x.2.acked < x.2.count ∨ x.2.state = .cleared)
    (∀ x ∈ s.includedRecords, due x) ∧ s.includedRecords.Pairwise before ∧
    (∀ x, due x → x ∉ s.includedRecords → s.includedRecords.length = 8 ∧ ∀ y ∈ s.includedRecords, before y x) ∧
    s.includedRecords.length ≤ 8 ∧
    s.reportSnapshot =
      { clock := s.clock.time.toMinute, station := s.settings.stationNumber
        records := s.includedRecords.map (fun x => ⟨x.1, x.2.state = .cleared, x.2.count⟩)
        tally :=
          if s.includedRecords.any (fun x => x.1 = .collection) then
            s.comp.closedTally.map (fun t =>
              ⟨closureDigit t.forced t.merged, t.figures.totalValue, t.figures.totalCoins⟩)
          else none }) ∧
  (∀ r : ReportSnapshot,
    r.opening = [Symbol.star] ++ r.station ++ [Symbol.star] ++
      decimalDigits 2 (r.clock.date.year - 2000) ++ decimalDigits 2 r.clock.date.month ++
      decimalDigits 2 r.clock.date.day ++ decimalDigits 2 r.clock.hour ++ decimalDigits 2 r.clock.minute ++
      (r.records.map (fun i => [Symbol.star] ++ decimalDigits 2 i.source.code ++
        decimalDigits 1 (if i.clearedDigit then 2 else 1) ++ decimalDigits 3 i.count)).flatten ++
      (match r.tally with
        | some t => [Symbol.star, 9, 9] ++ decimalDigits 1 t.closureDigit ++ decimalDigits 10 t.totalValue ++
            decimalDigits 5 t.totalCoins
        | none => []) ∧
    ∃ check : Fin 10, r.string = r.opening ++ [Symbol.hash, check.castLE (by decide), Symbol.hash] ∧
      (((r.opening.filter (fun k => k.val < 10)).map Fin.val).sum + check.val) % 10 = 0) ∧
  (∀ (width n : Nat), n < 10 ^ width →
    (decimalDigits width n).length = width ∧ (decimalDigits width n).foldl (fun x k => 10 * x + k.val) 0 = n ∧
      ∀ k ∈ decimalDigits width n, k.val < 10) ∧
  ∀ (presumed : Bool) (line : LineCall) (s : State), s.supplies.main = true →
    s.line.state = .awaitAnswer → s.line.call = some line → line.owner = .report → s.report.state = .calling →
    (presumed = false → line.request.answerMode = .signalled) →
    (presumed = true → ∃ t, s.line.presumedEnds = some t ∧ t ≤ s.line.deadline ∧ t ≤ s.now) →
    let snap := s.reportSnapshot
    ∃ records : Vector (Option ConditionRecord) 22,
      (∀ src, records[src.idx] = (s.record src).map (fun r =>
        if s.includedRecords.any (fun x => x.1 = src) then { r with snapshot := some ⟨r.count, r.state = .cleared⟩ }
        else r)) ∧
      exec (if presumed then .presumedDelayEnd else .polarityReversal) s = .next { s with
        line := { s.line with
          state := .connected, presumedEnds := none
          sending := some ⟨snap.string, s.now + snap.string.length * 140⟩ }
        sup := { s.sup with records := records }
        comp := { s.comp with closedTally :=
          if snap.tally.isSome then s.comp.closedTally.map (fun t => { t with changed := false }) else s.comp.closedTally }
        report := { s.report with state := .sending, snapshot := some snap, repeated := false, replyEnds := none } }

/-- R122, R177, R179, R180, R181: the centre's reply. The end of the sending begins a reply wait of 8 s; an ACK is applied to
the snapshot, with REPORT_DONE; the first NAK has the string sent again; a second NAK, and the end of the wait, fail the attempt,
which takes the snapshot off every record in report, counts the failure and releases the line. R53, R164: an acknowledgement
applied to a record in report. A record CLEARED with the state digit 2 and an unchanged count is retired; any other takes the
snapshot's count as acknowledged, and is STANDING when nothing new remains. For COLLECTION the closed tally is judged: released
with its record where count and tally are unchanged, its release withheld behind a late collect cycle, and otherwise kept with
its record still outstanding. (That a record saturated at 255 that took an occurrence after a snapshot of 255 becomes STANDING is
the MODEL'S CHOICE between two sentences of R164, log entry 49.) -/
def Obligations.CentreReplyDecidesTheAttempt : Prop :=
  ((∀ s : State, s.supplies.main = true → s.line.state = .connected →
    (∀ tones, s.line.sending = some tones → tones.sentAt ≤ s.now →
      let sent : State := { s with line := { s.line with sending := none } }
      (s.lineOwner = some .report → s.report.state = .sending →
        exec .toneStringSent s =
          .next { sent with report := { s.report with state := .awaitReply, replyEnds := some (s.now + 8000) } }) ∧
      (s.lineOwner ≠ some .report ∨ s.report.state ≠ .sending → exec .toneStringSent s = .next sent)) ∧
    (s.lineOwner = some .report → s.report.state = .awaitReply → ∀ snap, s.report.snapshot = some snap →
      let t : State := State.raise .reportDone (snap.records.foldl (fun t i => t.ackIncluded i) s)
      (t.lineOwner = some .report → t.line.state = .connected →
        exec .acknowledgeClassified s = .next { t with
          line := t.line.release t.now
          report := { t.report with state := .releasing, attempts := 0, snapshot := none, repeated := false,
                                    replyEnds := none, outcome := some .acknowledged } }) ∧
      (s.report.repeated = false → s.line.sending = none →
        exec .refuseClassified s = .next { s with
          line := { s.line with sending := some ⟨snap.string, s.now + snap.string.length * 140⟩ }
          report := { s.report with state := .sending, repeated := true, replyEnds := none } }) ∧
      (s.report.repeated = true → exec .refuseClassified s = .next (s.reportFail true))) ∧
    (s.lineOwner ≠ some .report ∨ s.report.state ≠ .awaitReply →
      exec .acknowledgeClassified s = .next s ∧ exec .refuseClassified s = .next s)) ∧
  (∀ (s : State) (t : Nat), s.supplies.main = true → s.report.state = .awaitReply → s.report.replyEnds = some t →
    t ≤ s.now → exec .replyWaitEnd s = .next (s.reportFail true)) ∧
  ∀ s : State,
    let t := s.removeSnapshots
    let failed : ReportUnit :=
      { t.report with attempts := min 5 (t.report.attempts + 1), snapshot := none, repeated := false, replyEnds := none,
                      outcome := some .failed }
    s.reportFail false = State.afterAttempt { t with report := failed } ∧
    s.reportFail true = { t with
      report := { failed with state := .releasing }
      line := if t.lineOwner = some .report ∧ t.line.state.seized = true then t.line.release t.now else t.line } ∧
    ∀ src, t.record src = match s.record src with
      | none => none
      | some r =>
        if r.snapshot = none then some r
        else if r.state = .cleared ∧ s.reportEnabled src = false then none
        else some { r with snapshot := none }) ∧
  ∀ (i : IncludedRecord) (r : ConditionRecord) (snap : RecordSnapshot) (s : State),
    s.record i.source = some r → r.snapshot = some snap → s.reportEnabled i.source = true →
    let put (r' : ConditionRecord) : State := s.putRecord i.source (some r')
    let changed (t : State) : State :=
      { t with attention := { t.attention with flags := { t.attention.flags with conditionChanged := true } } }
    let acked := max r.acked (min snap.count r.count)
    let taken : State :=
      if r.state ≠ .cleared ∧ acked = r.count then
        if r.acked = r.count ∧ r.state = .standing then put { r with snapshot := none }
        else changed (put { r with acked := acked, state := .standing, lastChange := s.clock.time, snapshot := none })
      else if acked = r.acked then put { r with snapshot := none }
      else changed (put { r with acked := acked, lastChange := s.clock.time, snapshot := none })
    (i.source ≠ .collection →
      (snap.clearedDigit = true → r.state = .cleared → r.count = snap.count → s.ackIncluded i = s.retire i.source) ∧
      (snap.clearedDigit = false ∨ r.state ≠ .cleared ∨ r.count ≠ snap.count → s.ackIncluded i = taken)) ∧
    (i.source = .collection → r.state ≠ .cleared → ∀ tally, s.comp.closedTally = some tally →
      (r.count = snap.count → tally.changed = false →
        (s.lateCycle = false → s.ackIncluded i = s.releaseClosedTally) ∧
        (s.lateCycle = true →
          s.ackIncluded i = { taken with comp := { s.comp with closedTally := some { tally with withheld := true } } })) ∧
      (r.count ≠ snap.count ∨ tally.changed = true →
        let kept := max r.acked (min snap.count (r.count - 1))
        s.ackIncluded i =
          if kept = r.acked then put { r with snapshot := none }
          else changed (put { r with acked := kept, lastChange := s.clock.time, snapshot := none })))

/-! ## The user session -/

/-- R34, R36, R114, R129, R130, R131, R133, R172, R182: the hook, the end of clearing and the local tone. Off-hook in IDLE
opens the session: DIAL_WAIT with an empty buffer and its 20 s, the account open, the retry timer held, OPENED recorded, and a
report call that owns the line preempted, uncounted. On-hook ends the call held and the session: CLEARING, the account
closing, a refund requested. Once the account is closed and that refund has ended the session is IDLE, the retry timer runs on
and CLOSED is recorded; with the handset lifted meanwhile a new session opens at once. The local tone of a state is sounded by
its cadence, from the entry of the state (in DIAL_WAIT from a later change of level, in CONNECTED from the tone start of the
warning), beginning at its "on" part. (OFF_HOOK off hook, ON_HOOK on hook and an end of clearing that does not stand change
nothing: MODEL'S CHOICE, log entry 4. So is that the new session opens before a report request that waits is granted (R113), and
before a retry timer held at zero expires (R172), where the rules allow either order: log entry 52.) -/
def Obligations.HookOpensAndEndsTheSession : Prop :=
  ∀ s : State, s.supplies.main = true →
    let recorded (event : CallEvent) (t : State) : State := { t with
      session := { t.session with
        event := some { event := event, symbols := t.session.buffer, slot := none, category := none, threshold := none,
                        callNumber := none }
        eventCount := (t.session.eventCount + 1) % 65536 }
      attention := { t.attention with flags := { t.attention.flags with callEvent := true } } }
    let opens (t : State) : State :=
      let u : State := { t with
        credit := { t.credit with account := .inSession, sessionForfeit := 0 }
        session := { t.session with
          state := .dialWait, buffer := [], decision := none, threshold := none, toneSince := t.now
          timer := some ⟨.firstSymbol, t.now + 20000⟩ } }
      let freed : State := State.removeSnapshots { u with line := u.line.release t.now }
      let preempted : State := { freed with report := { freed.report with
        state := .scheduled, timer := some (.held 0), snapshot := none, repeated := false, replyEnds := none,
        renewal := false } }
      let left : State := { u with report := { u.report with timer := match u.report.timer with
        | some (.running x) => some (.held (x - t.now))
        | other => other } }
      recorded .opened (if t.lineOwner = some .report then preempted else left)
    (s.toneSounding = true ↔ ∃ tone, s.localTone = some tone ∧
      let since := s.now - match s.session.state, s.rating.context with
        | .dialWait, _ => max s.session.toneSince s.sup.levelSince
        | .connected, .rated _ c => match c.warning with
          | some w => w.toneStart
          | none => s.session.toneSince
        | _, _ => s.session.toneSince
      tone = .dial ∨ tone = .creditPrompt ∧ since % 1000 < 200 ∨ tone = .reorder ∧ since % 500 < 250 ∨
        tone = .busy ∧ since % 1000 < 500 ∨ tone = .warning ∧ since % 1000 < 100) ∧
    (s.session.hook = .off → exec .offHook s = .next s) ∧
    (s.session.hook = .on →
      let lifted : State := { s with session := { s.session with hook := .off } }
      (s.session.state ≠ .idle → exec .offHook s = .next lifted) ∧
      (s.session.state = .idle →
        (s.lineOwner = some .report → s.line.state.seized = true ∧
          (s.report.state = .calling ∨ s.report.state = .sending ∨ s.report.state = .awaitReply)) →
        exec .offHook s = .next (opens lifted))) ∧
    (s.session.hook = .on → exec .onHook s = .next s) ∧
    (s.session.hook = .off →
      let down : State := { s with session := { s.session with hook := .on } }
      (s.session.state = .idle ∨ s.session.state = .clearing → exec .onHook s = .next down) ∧
      (s.session.state ≠ .idle → s.session.state ≠ .clearing →
        let t : State := if s.session.decision.isSome then down.endCall .onHook else down
        exec .onHook s = .next { t with
          session := { t.session with state := .clearing, timer := none }
          credit := { s.credit with account := if s.credit.account = .inSession then .closing else s.credit.account }
          coin := match s.coin.waiting with
            | some w => { s.coin with waiting := some ⟨w.startUp, true⟩, sessionRefunded := false }
            | none =>
              { s.coin with
                waiting := some ⟨false, true⟩, sessionRefunded := false
                transit := s.coin.transit.map (fun e => { e with noted := true }) } })) ∧
    (let refundStands := (∃ w, s.coin.waiting = some w ∧ w.ofSession = true) ∨
        ∃ ends startUp, s.coin.cycle = .refund ends startUp true
     let resumed : State := recorded .closed { s with
       session := { s.session with state := .idle }
       report := { s.report with timer := match s.report.timer with
         | some (.held left) => some (.running (s.now + left))
         | other => other } }
     (s.session.state = .clearing → s.credit.account = .notOpen → ¬ refundStands →
       (s.session.hook = .on → exec .clearingEnd s = .next resumed) ∧
       (s.session.hook = .off → s.lineOwner ≠ some .report → exec .clearingEnd s = .next (opens resumed))) ∧
     (s.session.state ≠ .clearing ∨ s.credit.account ≠ .notOpen ∨ refundStands → exec .clearingEnd s = .next s))

/-- R132, R134, R144, R145: the keys. A press is taken from a released key alone. A symbol is appended in DIAL_WAIT and ENDED to an
empty buffer and in COLLECTING to one of fewer than 20, with the 6 s and the analyser's verdict; it is sent as a tone in
CONNECTED; it is ignored in the other states and while the level is CLOSED. FOLLOW_ON ends any call and goes to DIAL_WAIT. A key
pressed for 30 s is stuck; the first makes KEYPAD abnormal, with KEYPAD_STUCK, and the release of the last makes it normal.
(MODEL'S CHOICE: a press of a key not yet released changes nothing, log entry 36, nor does KEY_STUCK of a key not pressed, log
entry 4.) -/
def Obligations.KeysAreTakenByTheSessionState : Prop :=
  ∀ s : State, s.supplies.main = true →
    let keyed (k : Key) (x : KeyState) : State := { s with session := { s.session with keys := s.session.keys.set k.idx x } }
    (∀ sym : Symbol,
      let pressed : State := keyed (.symbol sym) (.pressed s.now)
      let appended (buffer : List Symbol) : State := { pressed with session := { pressed.session with
        state := .collecting, buffer := buffer, timer := some ⟨.interSymbol, s.now + 6000⟩ } }
      let taken (buffer : List Symbol) : State :=
        (appended buffer).takeVerdict ((s.tariff.dialledVerdict buffer).forMethod s.settings.method buffer)
      let state := s.session.state
      (s.session.keys[(Key.symbol sym).idx] ≠ .released → exec (.symbolKeyPress sym) s = .next s) ∧
      (s.session.keys[(Key.symbol sym).idx] = .released →
        (s.sup.level = .closed → exec (.symbolKeyPress sym) s = .next pressed) ∧
        (s.sup.level ≠ .closed →
          (state = .dialWait ∨ state = .ended → exec (.symbolKeyPress sym) s = .next (taken [sym])) ∧
          (state = .collecting → s.session.buffer.length < 20 →
            exec (.symbolKeyPress sym) s = .next (taken (s.session.buffer ++ [sym]))) ∧
          (state = .collecting → 20 ≤ s.session.buffer.length → exec (.symbolKeyPress sym) s = .next pressed) ∧
          (state = .connected → s.line.state = .connected → s.lineOwner = some .session →
            exec (.symbolKeyPress sym) s = .next { pressed with line :=
              if s.line.sending = none then { s.line with sending := some ⟨[sym], s.now + 140⟩ } else s.line }) ∧
          (state = .idle ∨ state = .awaitCredit ∨ state = .placing ∨ state = .ringing ∨ state = .clearing →
            exec (.symbolKeyPress sym) s = .next pressed)))) ∧
    (let pressed : State := keyed .followOn (.pressed s.now)
     let dialWait (t : State) : State := { t with session := { t.session with
       state := .dialWait, buffer := [], toneSince := s.now, timer := some ⟨.firstSymbol, s.now + 20000⟩ } }
     (s.session.keys[Key.followOn.idx] ≠ .released → exec .followOnPress s = .next s) ∧
     (s.session.keys[Key.followOn.idx] = .released →
       (s.session.state.holdsCall = true → exec .followOnPress s = .next (dialWait (pressed.endCall .followOn))) ∧
       (s.session.state = .dialWait ∨ s.session.state = .collecting ∨ s.session.state = .ended →
         exec .followOnPress s = .next (dialWait pressed)) ∧
       (s.session.state = .idle ∨ s.session.state = .clearing → exec .followOnPress s = .next pressed))) ∧
    ∀ key : Key,
      (∀ since, s.session.keys[key.idx] = .pressed since → since + 30000 ≤ s.now →
        (s.normal .keypad = true →
          exec (.keyStuck key) s =
            .next (State.occurrence .keypad .keypadStuck .fault (State.setNormality .keypad true (keyed key .stuck)))) ∧
        (s.normal .keypad = false → exec (.keyStuck key) s = .next (keyed key .stuck))) ∧
      ((∀ since, s.session.keys[key.idx] ≠ .pressed since) → exec (.keyStuck key) s = .next s) ∧
      (s.normal .keypad = true ∨ (∃ other : Key, other ≠ key ∧ s.session.keys[other.idx] = .stuck) →
        exec (.keyRelease key) s = .next (keyed key .released)) ∧
      (s.normal .keypad = false → (∀ other : Key, other ≠ key → s.session.keys[other.idx] ≠ .stuck) →
        exec (.keyRelease key) s = .next (State.makeNormal .keypad (keyed key .released)))

/-- R66, R72, R89, R135, R136, R137, R138, R139, R140: the verdict and the session timers. A refused number goes to ENDED with
REFUSED; a complete one whose category the level allows pins its record and is placed, or waits for credit below its threshold.
Placing opens the rating context and asks for the line, and a string that the method cannot send ends the call as UNDIALLABLE.
The expiries refuse the number with no symbol, take the timeout verdict, or end the call as CREDIT_TIMEOUT. (The expiry of a timer
that is not the one running changes nothing: MODEL'S CHOICE, log entry 4.) -/
def Obligations.VerdictsAndTimersMoveTheSession : Prop :=
  ∀ s : State,
    let recorded (event : CallEvent) (slot : Option Nat) (category : Option Category) (threshold number : Option Nat)
        (t : State) : State := { t with
      session := { t.session with
        event := some { event := event, symbols := t.session.buffer, slot := slot, category := category,
                        threshold := threshold, callNumber := number }
        eventCount := (t.session.eventCount + 1) % 65536 }
      attention := { t.attention with flags := { t.attention.flags with callEvent := true } } }
    let refused (cause : RefusalCause) (slot : Option Nat) (category : Option Category) (t : State) : State :=
      recorded (.refused cause) slot category none none
        { t with session := { t.session with state := .ended, endTone := .reorder, toneSince := t.now, timer := none } }
    (∀ (r : Chosen) (method : DialMethod) (x : List Symbol) (cause : RefusalCause),
      Verdict.forMethod method x .continue = .continue ∧
      Verdict.forMethod method x (.refused cause r) = .refused cause r ∧
      (method = .pulse ∧ (∃ k ∈ x, 10 ≤ k.val) → Verdict.forMethod method x (.complete r) = .refused .barred r) ∧
      (¬ (method = .pulse ∧ ∃ k ∈ x, 10 ≤ k.val) → Verdict.forMethod method x (.complete r) = .complete r)) ∧
    s.takeVerdict .continue = s ∧
    (∀ cause r, s.takeVerdict (.refused cause r) = refused cause (some r.slot) (some r.content.category) s) ∧
    (∀ r : Chosen,
      let category := r.content.category
      let d : Decision := ⟨s.session.buffer, r.slot, category, r.content.minCredit, r.content.connection⟩
      let allowed := category ≠ .blocked ∧ (s.sup.level = .full ∨ s.sup.level = .freeOnly ∧ category ≠ .charged ∨
        s.sup.level = .emergencyOnly ∧ category = .emergency)
      let pinned : TariffTable :=
        if r.slot = 0 then { s.tariff with basePinned := true }
        else { s.tariff with records := s.tariff.records.map (fun q =>
          if q.slot = r.slot then { q with pinned := true } else q) }
      let held : State := { s with
        tariff := pinned, session := { s.session with decision := some d, timer := none } }
      let t := held.thresholdOf r.slot
      (¬ allowed → s.takeVerdict (.complete r) = refused .notAllowed (some r.slot) (some category) s) ∧
      (allowed → category ≠ .charged ∨ t ≤ s.available → s.takeVerdict (.complete r) = held.place d) ∧
      (allowed → category = .charged → s.available < t →
        s.takeVerdict (.complete r) = recorded .awaitingCredit (some r.slot) (some category) (some t) none
          { held with session := { held.session with
            state := .awaitCredit, threshold := some t, toneSince := s.now
            timer := some ⟨.creditWait, s.now + 30000⟩ } })) ∧
    (∀ d : Decision,
      let number := (s.rating.callNumber + 1) % 65536
      let context : CallInfo :=
        { number := number, symbols := d.symbols, slot := d.slot, category := d.category,
          flags := { CallFlags.empty with defaultTariff := d.slot = 0 } }
      let placed (l : Line) : State := recorded .placed (some d.slot) (some d.category) none (some number) { s with
        session := { s.session with state := .placing, timer := none }
        rating := { s.rating with callNumber := number, context := .placed context }
        line := l }
      let sendable := s.settings.method = .tone ∨ ∀ k ∈ d.symbols, k.val < 10
      (sendable → s.line.sessionRequest = none → s.lineOwner ≠ some .session →
        s.place d = placed { s.line with sessionRequest := some (s.settings.lineRequest .session d.symbols) }) ∧
      (¬ sendable → s.place d = State.endCallToEnded .undiallable (placed s.line))) ∧
    (s.supplies.main = true →
      (∀ kind t, s.session.timer = some ⟨kind, t⟩ → t ≤ s.now →
        (kind = .firstSymbol → exec .firstSymbolTimeout s = .next (refused .noSymbol none none s)) ∧
        (kind = .interSymbol → exec .interSymbolTimeout s =
          .next (State.takeVerdict ((s.tariff.timeoutVerdict s.session.buffer).forMethod s.settings.method s.session.buffer)
            { s with session := { s.session with timer := none } })) ∧
        (kind = .creditWait → exec .creditWaitTimeout s = .next (s.endCallToEnded .creditTimeout)) ∧
        (kind ≠ .firstSymbol → exec .firstSymbolTimeout s = .next s) ∧
        (kind ≠ .interSymbol → exec .interSymbolTimeout s = .next s) ∧
        (kind ≠ .creditWait → exec .creditWaitTimeout s = .next s)) ∧
      (s.session.timer = none → exec .firstSymbolTimeout s = .next s ∧ exec .interSymbolTimeout s = .next s ∧
        exec .creditWaitTimeout s = .next s))

/-! ## Supervised inputs and the condition table -/

/-- R151 to R156, R158: the events of a supervised input. An active edge ends a clear delay, is dropped while the hold-off runs,
and is otherwise taken by the mode: EDGE occurs, LEVEL occurs while the source is normal, COUNT opens its window or counts in it
and occurs at the assignment's count. An occurrence closes the window, begins the hold-off afresh and makes the source abnormal.
An inactive change begins the clear delay, whose end makes the source normal; a staged assignment takes effect at the first
instant at rest. An UNUSED input is not read. (MODEL'S CHOICE: an edge on an active reading, an inactive change on an inactive one,
and the end of a window, hold-off or clear delay that does not run change nothing, log entry 4; the clear delay begins at the
inactive change, log entry 23.) -/
def Obligations.InputEventsFollowTheAssignment : Prop :=
  ∀ (i : Fin 8) (s : State), s.supplies.main = true →
    let x := s.sup.inputs[i]
    let a := x.assignment
    let put (y : SupervisedInput) : State := { s with sup := { s.sup with inputs := s.sup.inputs.set i y } }
    let resting (y : SupervisedInput) (t : State) : State := match y.staged with
      | none => t
      | some b =>
        let assigned : SupervisedInput := { y with assignment := b, staged := none, edgeCount := 0 }
        if y.active = false ∧ y.windowEnds = none ∧ y.holdOffEnds = none then
          State.deriveLevel { t with sup := { t.sup with inputs := t.sup.inputs.set i assigned } }
        else t
    let up : SupervisedInput := { x with active := true, clearFrom := none }
    let edged (y : SupervisedInput) : State := State.recount (.input i) (put y)
    let edge (y : SupervisedInput) : State :=
      let t := edged up
      { t with sup := { t.sup with inputs := t.sup.inputs.set i y } }
    let held : SupervisedInput :=
      { up with windowEnds := none, edgeCount := 0,
                holdOffEnds := if a.holdOff = 0 then none else some (s.now + a.holdOff * 1000) }
    let occurs : State :=
      State.occurrence (.input i) (.ofInput a.type) a.type.severity (State.setNormality (.input i) true (edge held))
    let counted (ends edges : Nat) : State := edge { up with windowEnds := some ends, edgeCount := edges }
    (a.type = .unused ∨ x.active = true → exec (.inputActiveEdge i) s = .next s) ∧
    (a.type ≠ .unused → x.active = false →
      (x.holdOffEnds ≠ none → exec (.inputActiveEdge i) s = .next (edged up)) ∧
      (x.holdOffEnds = none →
        (a.mode = .edge → exec (.inputActiveEdge i) s = .next occurs) ∧
        (a.mode = .level → s.normal (.input i) = true → exec (.inputActiveEdge i) s = .next occurs) ∧
        (a.mode = .level → s.normal (.input i) = false → exec (.inputActiveEdge i) s = .next (edged up)) ∧
        (a.mode = .count → 2 ≤ a.count →
          (x.windowEnds = none →
            exec (.inputActiveEdge i) s = .next (counted (s.now + a.window * 1000) 1)) ∧
          (∀ ends, x.windowEnds = some ends →
            (x.edgeCount + 1 < a.count → exec (.inputActiveEdge i) s = .next (counted ends (x.edgeCount + 1))) ∧
            (a.count ≤ x.edgeCount + 1 → exec (.inputActiveEdge i) s = .next occurs))))) ∧
    (a.type = .unused ∨ x.active = false → exec (.inputInactiveChange i) s = .next s) ∧
    (a.type ≠ .unused → x.active = true →
      let down : SupervisedInput := { x with active := false, clearFrom := some s.now }
      exec (.inputInactiveChange i) s = .next (resting down (edged down))) ∧
    (x.windowEnds = none → exec (.countWindowEnd i) s = .next s) ∧
    (∀ t, x.windowEnds = some t → t ≤ s.now → a.type ≠ .unused →
      let y : SupervisedInput := { x with windowEnds := none, edgeCount := 0 }
      exec (.countWindowEnd i) s = .next (resting y (put y))) ∧
    (x.holdOffEnds = none → exec (.holdOffEnd i) s = .next s) ∧
    (∀ t, x.holdOffEnds = some t → t ≤ s.now → a.type ≠ .unused →
      let y : SupervisedInput := { x with holdOffEnds := none }
      exec (.holdOffEnd i) s = .next (resting y (put y))) ∧
    (x.clearFrom = none → exec (.clearDelayEnd i) s = .next s) ∧
    (∀ t, x.clearFrom = some t → t + a.clearDelay * 1000 ≤ s.now →
      exec (.clearDelayEnd i) s = .next (State.makeNormal (.input i) (put { x with clearFrom := none })))

/-- R159 to R163, R165, R166, R19: occurrences, clearings and CONDITION_CLEAR. An occurrence makes the record of its source or is
taken by it, the count held at 255; it is handed to the report unit, the level is derived, and an unlatched record whose source
is normal is cleared at once. A record cleared keeps its counts, and with its enable off it is retired, unless it is in report.
CONDITION_CLEAR clears a latched, active record whose source is normal; the clearing of REFUND_GATE requests a refund. -/
def Obligations.OccurrencesAndClearings : Prop :=
  ∀ (src : Source) (s : State),
    let changed (r : Option ConditionRecord) (t : State) : State := { t with
      sup := { t.sup with records := t.sup.records.set src.idx r }
      attention := { t.attention with flags := { t.attention.flags with conditionChanged := true } } }
    let latches (r : ConditionRecord) : Prop :=
      r.severity = .alarm ∨ src = .collectGate ∨ src = .refundGate ∨ src = .coinPath
    let counted (abnormal : Bool) (r : ConditionRecord) : ConditionRecord :=
      let counts : Bool := match src with
        | .input i => s.sup.inputs[i].active
        | _ => abnormal
      match r.activeSince, counts with
      | none, true => { r with activeSince := some s.now }
      | some t, false => { r with activeMs := r.activeMs + (s.now - t), activeSince := none }
      | _, _ => r
    let clear (r : ConditionRecord) (t : State) : State :=
      let u : State := State.deriveLevel (changed (some { r with state := .cleared, lastChange := t.clock.time }) t)
      if t.reportEnabled src = false ∧ r.snapshot = none then State.deriveLevel (changed none u) else u
    (∀ (type : ConditionType) (severity : Severity),
      let r : ConditionRecord := counted (!s.normal src) (match s.record src with
        | none =>
          { type := type, severity := severity, state := .raised, firstRaised := s.clock.time, lastChange := s.clock.time,
            count := 1, acked := 0, activeMs := 0, activeSince := none, snapshot := none }
        | some r =>
          { r with
            type := type, severity := severity, state := .raised, lastChange := s.clock.time
            count := if r.count < 255 then r.count + 1 else 255
            acked := if r.count < 255 then r.acked else min r.acked 254 })
      let t : State := State.deriveLevel (State.reportTrigger severity (changed (some r) s))
      (latches r ∨ s.normal src = false → State.occurrence src type severity s = t) ∧
      (¬ latches r → s.normal src = true → State.occurrence src type severity s = clear r t)) ∧
    (∀ r, s.record src = some r → s.clearRecord src = clear r s) ∧
    (∀ abnormal : Bool,
      let t := s.setNormality src abnormal
      t = { s with sup := { s.sup with records := t.sup.records, abnormal := t.sup.abnormal } } ∧
      t.normal src = !abnormal ∧ t.record src = (s.record src).map (counted abnormal) ∧
      ∀ other, other ≠ src → t.normal other = s.normal other ∧ t.record other = s.record other) ∧
    (let u : State := s.setNormality src false
     (∀ r, u.record src = some r → r.state ≠ .cleared → ¬ latches r → s.makeNormal src = u.clearRecord src) ∧
     ((∀ r, u.record src = some r → r.state = .cleared ∨ latches r) → s.makeNormal src = u)) ∧
    ∀ (p : Port) (tag code : Byte), s.admits p →
      let answers (t : State) (r : Reply) : Prop :=
        exec (.conditionClear p tag [code]) s = .next (State.handCredit s.available (t.answer p (r.response 19 tag)))
      (code.toNat = 0 ∨ 22 < code.toNat → answers s (.refused .invalid)) ∧
      (code.toNat = src.code →
        (s.record src = none → answers s (.refused .notFound)) ∧
        (∀ r, s.record src = some r →
          (¬ latches r → answers s (.refused .state)) ∧
          (latches r → r.state = .cleared → answers s (.done .empty)) ∧
          (latches r → r.state ≠ .cleared → s.normal src = false → answers s (.refused .state)) ∧
          (latches r → r.state ≠ .cleared → s.normal src = true →
            (src ≠ .refundGate → answers (s.clearRecord src) (.done .empty)) ∧
            (src = .refundGate → answers (State.requestRefund false false (s.clearRecord src)) (.done .empty)))))

/-- R139, R146, R167, R168: the service level is the most restrictive of the restrictions of the active records. A derivation that
changes it sets LEVEL_CHANGED and has the session judge its call: one that the new level does not let continue ends with
LEVEL_DROP. The lamp is lit while the level is not FULL. R1: a coin class is inhibited in IDLE and CLEARING, while the level is not
FULL, a refund is in flight, the cashbox is absent or the column with its entries has reached 12, and while its own record is
disabled or of value 0; and it is open otherwise. -/
def Obligations.ServiceLevelFollowsTheActiveRecords : Prop :=
  let rank : ServiceLevel → Nat := fun l => match l with
    | .full => 0
    | .freeOnly => 1
    | .emergencyOnly => 2
    | .closed => 3
  (∀ (v : Supervision) (src : Source) (r : ConditionRecord),
    (v.records[src.idx] = none → v.sourceLevel src = .full) ∧
    (v.records[src.idx] = some r → r.state = .cleared → v.sourceLevel src = .full) ∧
    (v.records[src.idx] = some r → r.state ≠ .cleared →
      (r.type ∈ [.coinPathJam, .gateJam, .slotBlocked, .returnBlocked, .cashboxFull, .compartmentForced] →
        v.sourceLevel src = .freeOnly) ∧
      (r.type = .lineDown → v.sourceLevel src = .closed) ∧
      (∀ i type, src = .input i → r.type = .ofInput type → v.sourceLevel src = v.inputs[i].assignment.restriction) ∧
      (r.type ∈ [.cashboxNearFull, .keypadStuck, .noDialTone, .retentionLost, .clockUnset, .cashboxCollected] →
        v.sourceLevel src = .full))) ∧
  (∀ v : Supervision, (∀ src, rank (v.sourceLevel src) ≤ rank v.derivedLevel) ∧
    (v.derivedLevel = .full ∨ ∃ src, v.sourceLevel src = v.derivedLevel)) ∧
  ∀ s : State,
    let level := s.sup.derivedLevel
    let lowered : State := { s with
      sup := { s.sup with level := level, levelSince := s.now }
      attention := { s.attention with flags := { s.attention.flags with levelChanged := true } } }
    (level = s.sup.level → s.deriveLevel = s) ∧
    (level ≠ s.sup.level → s.session.decision = none → s.deriveLevel = lowered) ∧
    (∀ d, level ≠ s.sup.level → s.session.decision = some d →
      let ends := s.session.state = .awaitCredit ∧ level ≠ .full ∨
        (s.session.state = .placing ∨ s.session.state = .ringing ∨ s.session.state = .connected) ∧
          (level = .closed ∨ level = .emergencyOnly ∧ d.category ≠ .emergency)
      (ends → s.deriveLevel = lowered.endCallToEnded .levelDrop) ∧ (¬ ends → s.deriveLevel = lowered)) ∧
    (s.lampLit = true ↔ s.sup.level ≠ .full) ∧
    ∀ cls : Fin 16, s.classInhibited cls = true ↔
      s.session.state = .idle ∨ s.session.state = .clearing ∨ s.sup.level ≠ .full ∨
      (∃ ends startUp ofSession, s.coin.cycle = .refund ends startUp ofSession) ∨ s.comp.presence = .absent ∨
      12 ≤ s.coin.column.length + (s.coin.transit.filter (fun e => e.dest = .column)).length ∨
      s.settings.classes[cls].enabled = false ∨ s.settings.classes[cls].value = 0

/-! ## Ports, settings and attention -/

/-- R43, R186, R187: what every request meets on its port. A response echoes kind and tag and makes the port ANSWERED, an unread one
discarded; a refusal has an empty body and changes nothing. On a service port that is not enabled every request is refused LOCKED,
whatever its kind and body; otherwise an unknown kind, a body over 60 bytes and a length that the kind does not allow are refused
FORMAT. A read returns the response held and frees the port, or kind 0 where none is held. The host port's ready line is active in
FREE and ANSWERED, and inactive until start-up has finished; a transfer begun while it is inactive is ignored. A transfer that meets
the service port HELD or SERVING is stretched, and taken when the response is ready. (That a request is served in one step, so that
no command leaves a port HELD or SERVING, and that a transfer stretched is executed as it is taken, is the MODEL'S CHOICE, log entry
10; how long a body of an unknown setting code may be is log entry 27.) -/
def Obligations.RequestsAreTakenLockedOrRefusedFormat : Prop :=
  (∀ (p : Port) (r : Response) (s : State),
    s.answer p r = match p with
      | .host => { s with hostPort := { s.hostPort with phase := .answered, response := some r } }
      | .service => { s with servicePort := { s.servicePort with phase := .answered, response := some r } }) ∧
  (∀ (kind : Nat) (tag : Byte) (body : ResponseBody) (reason : Reason),
    (Reply.done body).response kind tag = ⟨kind, tag, .done, none, body⟩ ∧
    Reply.doneClamped.response kind tag = ⟨kind, tag, .doneClamped, none, .empty⟩ ∧
    (Reply.doneDeferred body).response kind tag = ⟨kind, tag, .doneDeferred, none, body⟩ ∧
    (Reply.refused reason).response kind tag = ⟨kind, tag, .refused, some reason, .empty⟩) ∧
  (∀ (c : Instr) (p : Port) (kind : Nat) (tag : Byte) (body : List Byte) (s : State),
    c.request = some (p, kind, tag, body) → c.wellFormed = true → s.supplies.main = true →
    let refused (reason : Reason) : State :=
      s.answer p { kind := kind, tag := tag, status := .refused, reason := some reason, body := .empty }
    let string (b : List Byte) : Prop := ∃ n rest, b = n :: rest ∧ rest.length = (n.toNat + 1) / 2
    let wrongLength : Prop :=
      (∃ n, fixedLength kind = some n ∧ body.length ≠ n) ∨
      kind = 4 ∧ ¬ string body ∨ kind = 6 ∧ body.length ≠ 2 + 3 * byteAt body 1 ∨
      kind = 8 ∧ body.length ≠ 1 + 2 * byteAt body 0 ∨ (kind = 12 ∨ kind = 26) ∧ body = [] ∨
      kind = 12 ∧ (∃ code value, body = code :: value ∧
        (code.toNat ∈ [1, 2] ∧ ¬ string value ∨ code.toNat ∈ [3, 4, 7] ∧ value.length ≠ 1 ∨
          code.toNat ∈ [5, 6, 9, 10] ∧ value.length ≠ 2 ∨ code.toNat = 8 ∧ value.length ≠ 4 ∨
          code.toNat = 11 ∧ value.length ≠ 13)) ∨
      kind = 26 ∧ (∃ code value, body = code :: value ∧
        value.length ≠ if code.toNat = 10 ∨ code.toNat = 11 then 1 else 0)
    (p = .host → (s.port p).phase = .held ∨ (s.port p).phase = .serving → exec c s = .next s) ∧
    (p = .service ∨ (s.port p).phase = .free ∨ (s.port p).phase = .answered →
      (p = .service → s.comp.door = .closed ∨ s.comp.key = .locked → exec c s = .next (refused .locked)) ∧
      (s.admits p → kind = 0 ∨ 26 < kind ∨ 60 < body.length ∨ wrongLength → exec c s = .next (refused .format)))) ∧
  (∀ s : State, s.hostReady = true ↔
    s.supplies.main = true ∧ (s.hostPort.phase = .free ∨ s.hostPort.phase = .answered)) ∧
  ∀ (p : Port) (s : State), s.supplies.main = true →
    let port (x : PortUnit) : State := match p with
      | .host => { s with hostPort := x }
      | .service => { s with servicePort := x }
    (p = .host → (s.port p).phase = .held ∨ (s.port p).phase = .serving → exec (.responseRead p) s = .next s) ∧
    (∀ r, (s.port p).phase = .answered ∨ p = .service ∧ (s.port p).phase ≠ .free → (s.port p).response = some r →
      exec (.responseRead p) s = .next (port { phase := .free, response := none, lastRead := some (.response r) })) ∧
    ((s.port p).phase = .free →
      exec (.responseRead p) s = .next (port { s.port p with lastRead := some .kindZero })) ∧
    ∀ tag body, exec (.unknownRequest .host 0 tag body) s = exec (.responseRead .host) s

/-- R3, R40, R54, R73, R74, R75, R81, R83, R85, R110, R126, R133, R148, R169, R184, R189, R190, R191: the requests that read.
Each is answered with what it reads, as it stands, and changes nothing else: STATUS_GET with the views of the credit unit, the
rating unit, the line, the session, the report unit and the retention outcome; a slot, class, source, setting, input, day type
or filter that does not exist, and a string that is none of 1 to 20 symbols, is refused INVALID, and an EMPTY slot NOT_FOUND.
(MODEL'S CHOICE: free bytes of TARIFF_GET, log entry 9; the next slot of TARIFF_SCAN, log entry 21; a string whose unused
half-byte is not 15 is refused, log entry 26; seconds remaining and seconds since the answer drop parts of a second, log entry
43.) -/
def Obligations.ReadRequestsAnswerAndChangeNothing : Prop :=
  ∀ (p : Port) (tag : Byte) (s : State), s.admits p →
    let gives (cmd : Instr) (kind : Nat) (r : Reply) : Prop := exec cmd s = .next (s.answer p (r.response kind tag))
    let secondsTo (t : Nat) : Nat := (t - s.now) / 1000
    gives (.tallyGet p tag []) 16 (.done (.tally s.comp.current
      (s.comp.closedTally.map (fun t => ⟨t.figures, t.forced, t.merged, closureDigit t.forced t.merged⟩)) s.comp.door
      s.comp.key s.comp.presence (s.comp.door = .opened && s.comp.key ≠ .locked))) ∧
    gives (.clockGet p tag []) 14
      (.done (.clock s.clock.time s.clock.weekday s.clock.dayType s.clock.band s.clock.unset)) ∧
    gives (.holidayGet p tag []) 9 (.done (.holidays s.clock.holidays.length s.clock.holidays)) ∧
    gives (.attentionGet p tag []) 22 (.done (.attention s.attention.flags s.attention.mask)) ∧
    (let view := s.statusView
     gives (.statusGet p tag []) 15 (.done (.status view)) ∧
      view.rejectedCount = s.coin.rejectedCount ∧ view.refundedCount = s.coin.refundedCount ∧
      view.credit =
        { banked := s.credit.banked, escrow := s.escrow, collectable := s.collectable, owed := owedTotal s.credit.owed
          available := s.credit.banked + (if s.collectable then s.escrow else 0) - owedTotal s.credit.owed
          sessionForfeit := s.credit.sessionForfeit, sessionOpen := s.credit.account ≠ .notOpen } ∧
      view.rating = (match s.rating.context with
        | .empty => ⟨.empty, none, none, none, s.rating.summary⟩
        | .placed call => ⟨.placed, some call, none, none, s.rating.summary⟩
        | .rated call c =>
          ⟨.rated, some call, some ((s.now - c.answeredAt) / 1000),
            some { rounding := c.rounding, steps := c.steps, total := c.total, lastBand := c.lastBand, acc := c.acc
                   secondsToBoundary := secondsTo c.nextBoundary
                   warning := c.warning.map (fun w => ⟨if w.playing then 0 else secondsTo w.toneStart⟩)
                   runway := c.runway },
            s.rating.summary⟩
        | .unrated call answeredAt =>
          ⟨.unrated, some call, some ((s.now - answeredAt) / 1000), none, s.rating.summary⟩) ∧
      view.line =
        { state := s.line.state, owner := s.line.call.map LineCall.owner
          sessionWaiting := s.line.sessionRequest.isSome, reportWaiting := s.line.reportRequest.isSome
          position := if s.line.state = .dialling then s.line.call.map LineCall.position else none
          method := s.line.call.map (fun c => c.request.method)
          answerMode := s.line.call.map (fun c => c.request.answerMode)
          streak := s.line.streak, lineNormal := s.normal .line, dialtoneNormal := s.normal .dialtone } ∧
      view.session =
        { state := s.session.state, hook := s.session.hook, buffer := s.session.buffer
          timer := s.session.timer.map (fun t => (t.kind, secondsTo t.expiresAt)), decision := s.session.decision
          threshold := if s.session.state = .awaitCredit then s.session.threshold else none
          tone := match s.session.state with
            | .dialWait => some (if s.sup.level = .closed then .reorder else .dial)
            | .awaitCredit => some .creditPrompt
            | .connected => if s.rating.warningPlaying then some .warning else none
            | .ended => some (if s.session.endTone = .busy then .busy else .reorder)
            | .idle | .collecting | .placing | .ringing | .clearing => none
          stuckKeys := view.session.stuckKeys, event := s.session.event, eventCount := s.session.eventCount } ∧
      (∀ key : Key, key ∈ view.session.stuckKeys ↔ s.session.keys[key.idx] = .stuck) ∧
      (s.rating.warningPlaying = true ↔ ∃ call c w, s.rating.context = .rated call c ∧ c.warning = some w ∧ w.playing = true) ∧
      (let given : Bool := s.report.state = .sending || s.report.state = .awaitReply
       view.report =
        { state := s.report.state, attempts := s.report.attempts
          retry :=
            if s.report.state = .scheduled then s.report.timer.map (fun t => match t with
              | .running t => .running (secondsTo t)
              | .held left => .held (left / 1000)
              | .waitingLine => .waitingLine)
            else none
          renewal := s.report.renewal
          included := if given then s.report.snapshot.map (fun r => r.records.length) else none
          tallyPart := if given then s.report.snapshot.map (fun r => r.tally.isSome) else none
          repeated := if given then some s.report.repeated else none }) ∧
      view.backupHeld = s.supplies.outcomeBackupHeld ∧ view.failedRegions = s.supplies.outcomeFailed) ∧
    (∀ slot : Byte,
      (239 < slot.toNat → gives (.tariffGet p tag [slot]) 2 (.refused .invalid)) ∧
      (slot.toNat = 0 → ∀ staged : List Byte,
        (s.tariff.staging = none → staged = [0]) → (∀ c, s.tariff.staging = some c → staged = 1 :: tariffBytes 0 c) →
        gives (.tariffGet p tag [slot]) 2 (.done (.bytes (slot :: targetByte 0 :: tariffBytes 0 s.tariff.base ++
          [2, if s.tariff.basePinned then 1 else 0] ++ staged)))) ∧
      (1 ≤ slot.toNat → slot.toNat ≤ 239 →
        ((∀ r ∈ s.tariff.records, r.slot ≠ slot.toNat) → gives (.tariffGet p tag [slot]) 2 (.refused .notFound)) ∧
        (∀ r, s.tariff.Lawful → r ∈ s.tariff.records → r.slot = slot.toNat →
          gives (.tariffGet p tag [slot]) 2 (.done (.bytes (slot :: targetByte slot.toNat ::
            tariffBytes slot.toNat r.content ++ [BitVec.ofNat 8 r.state.code, if r.pinned then 1 else 0])))))) ∧
    (∀ body x, symbolStringFits body = true → body.length ≤ 60 →
      (symbolString body = none ∨ symbolString body = some [] ∨ (symbolString body = some x ∧ 20 < x.length) →
        gives (.tariffFind p tag body) 4 (.refused .invalid)) ∧
      (symbolString body = some x → 1 ≤ x.length → x.length ≤ 20 →
        let verdict (v : Verdict) : VerdictView := match v with
          | .continue => .continue
          | .refused cause r => .refused cause r.slot
          | .complete r => .complete r.slot
        let found (outcome : AnalysisName) (r : Option Chosen) : Prop :=
          gives (.tariffFind p tag body) 4 (.done (.find outcome
            (r.map (fun r => ⟨r.slot, r.content.category, r.content.minLength, r.content.maxLength⟩))
            (verdict (s.tariff.dialledVerdict x)) (verdict (s.tariff.timeoutVerdict x))))
        (s.tariff.analyse x = .more → found .more none) ∧
        (∀ r, s.tariff.analyse x = .barred r → found .barred (some r)) ∧
        (∀ r, s.tariff.analyse x = .decided r → found .decided (some r)) ∧
        (∀ r, s.tariff.analyse x = .base r → found .base (some r)))) ∧
    (∀ start code : Byte,
      let entries : List ScanEntry :=
        ⟨0, .live, s.tariff.basePinned, []⟩ :: s.tariff.records.map (fun r => ⟨r.slot, r.state, r.pinned, r.content.pre⟩)
      let number (state : RecordState) : Nat := (entries.filter (fun e => e.state = state)).length
      (239 < start.toNat ∨ 3 < code.toNat → gives (.tariffScan p tag [start, code]) 5 (.refused .invalid)) ∧
      (start.toNat ≤ 239 → code.toNat ≤ 3 →
        let passing := entries.filter (fun e => start.toNat ≤ e.slot ∧ (code.toNat = 0 ∨ e.state.code = code.toNat))
        let next : Option Nat := match passing.drop 5 with
          | [] => none
          | sixth :: _ => if sixth.slot < 239 then some (sixth.slot + 1) else none
        gives (.tariffScan p tag [start, code]) 5
          (.done (.scan (passing.take 6) next (240 - entries.length) (number .pending) (number .live) (number .retiring))))) ∧
    (∀ code : Byte,
      (2 < code.toNat → gives (.bandGet p tag [code]) 7 (.refused .invalid)) ∧
      (∀ day, dayTypeOfCode code.toNat = some day →
        gives (.bandGet p tag [code]) 7 (.done (.schedule (s.clock.schedule day).length (s.clock.schedule day)
          s.clock.dayType s.clock.band))) ∧
      (∀ h : code.toNat < 16, gives (.coinClassGet p tag [code]) 11 (.done (.coinClass s.settings.classes[code.toNat]))) ∧
      (16 ≤ code.toNat → gives (.coinClassGet p tag [code]) 11 (.refused .invalid)) ∧
      (22 < code.toNat → gives (.conditionGet p tag [code]) 18 (.refused .invalid)) ∧
      (code.toNat = 0 → gives (.conditionGet p tag [code]) 18 (.done (.conditionSummary s.sup.level (s.sup.level ≠ .full)
        (Source.all.map (fun src => ⟨src, (s.record src).map ConditionRecord.state, s.normal src,
          (s.record src).any (fun r => r.snapshot.isSome)⟩))))) ∧
      (∀ src : Source, code.toNat = src.code →
        gives (.conditionGet p tag [code]) 18 (.done (.condition
          ((s.record src).map (fun r =>
            { source := src, type := r.type, severity := r.severity, state := r.state, firstRaised := r.firstRaised
              lastChange := r.lastChange, count := r.count, acked := r.acked, activeSeconds := r.activeSeconds s.now
              reportEnable := s.reportEnabled src, snapshot := r.snapshot }))
          (s.normal src)
          (match src with
            | .input i =>
              let x := s.sup.inputs[i]
              some
                { assignment := x.assignment, staged := x.staged, active := x.active, windowOpen := x.windowEnds.isSome
                  edgeCount := x.edgeCount
                  holdOffSeconds := match x.holdOffEnds with
                    | some t => secondsTo t
                    | none => 0
                  clearDelaySeconds := match x.clearFrom with
                    | some t => secondsTo (t + x.assignment.clearDelay * 1000)
                    | none => 0
                  atRest := x.assignment.type = .unused || !x.active && x.windowEnds = none && x.holdOffEnds = none }
            | _ => none))))) ∧
    ∀ (code value : Byte) (v : SettingValue),
      (code.toNat ∉ [10, 11] →
        (code.toNat = 1 ∧ v = .symbols s.settings.stationNumber ∨ code.toNat = 2 ∧ v = .symbols s.settings.centreNumber ∨
          code.toNat = 3 ∧ v = .method s.settings.method ∨ code.toNat = 4 ∧ v = .answerMode s.settings.answerMode ∨
          code.toNat = 5 ∧ v = .number s.settings.presumedDelay ∨ code.toNat = 6 ∧ v = .number s.settings.warningLead ∨
          code.toNat = 7 ∧ v = .rounding s.settings.rounding ∨
          code.toNat = 8 ∧ v = .thresholds s.settings.near s.settings.full ∨
          code.toNat = 9 ∧ v = .number s.settings.dailyReport →
            gives (.settingGet p tag [code]) 26 (.done (.setting v))) ∧
        (code.toNat = 0 ∨ 11 < code.toNat → gives (.settingGet p tag [code]) 26 (.refused .invalid))) ∧
      (code.toNat = 10 →
        (∀ src : Source, value.toNat = src.code →
          gives (.settingGet p tag [code, value]) 26 (.done (.setting (.enable (s.reportEnabled src))))) ∧
        (value.toNat = 0 ∨ 22 < value.toNat → gives (.settingGet p tag [code, value]) 26 (.refused .invalid))) ∧
      (code.toNat = 11 →
        (∀ h : value.toNat < 8, gives (.settingGet p tag [code, value]) 26
          (.done (.setting (.assignment s.sup.inputs[value.toNat].assignment s.sup.inputs[value.toNat].staged)))) ∧
        (8 ≤ value.toNat → gives (.settingGet p tag [code, value]) 26 (.refused .invalid)))

/-- R3, R46, R157, R158, R165, R174, R189, R190: COIN_CLASS_SET, SETTING_SET, ATTENTION_ACK and ATTENTION_MASK. A value in its range
replaces the one held and nothing else; presumed delay, warning lead and an input's times are clamped; any other out of range is
refused INVALID. Thresholds are judged at once. A report enable turned off retires a CLEARED record, and turned on hands an
outstanding one to the report unit. An assignment takes effect at once on an input at rest, is staged on any other, and as UNUSED
ends all its input had in progress. The attention line is driven while an unmasked flag is set. (MODEL'S CHOICE: an enable set on
while on changes nothing, log entry 28; a string whose unused half-byte is not 15 is no string, log entry 26.) -/
def Obligations.SettingsAndAttentionAreSet : Prop :=
  ∀ (p : Port) (tag : Byte) (s : State), s.admits p →
    let does (cmd : Instr) (kind : Nat) (t : State) (r : Reply) : Prop := exec cmd s = .next (t.answer p (r.response kind tag))
    let sets (body : List Byte) (t : State) (r : Reply) : Prop := does (.settingSet p tag body) 12 t r
    let with_ (st : Settings) : State := { s with settings := st }
    (∀ cls hi lo on : Byte,
      let value := hi.toNat * 256 + lo.toNat
      (∀ h : cls.toNat < 16, value ≤ 5000 → on.toNat ≤ 1 →
        does (.coinClassSet p tag [cls, hi, lo, on]) 10 (with_
          { s.settings with classes := s.settings.classes.set cls.toNat ⟨value, on.toNat = 1⟩ }) (.done .empty)) ∧
      (16 ≤ cls.toNat ∨ 5000 < value ∨ 1 < on.toNat →
        does (.coinClassSet p tag [cls, hi, lo, on]) 10 s (.refused .invalid))) ∧
    (∀ value : List Byte, symbolStringFits value = true → value.length ≤ 59 →
      (∀ x, symbolString value = some x → 1 ≤ x.length → x.length ≤ 12 → (∀ k ∈ x, k.val < 10) →
        sets (1 :: value) (with_ { s.settings with stationNumber := x }) (.done .empty)) ∧
      ((∀ x, symbolString value = some x → x = [] ∨ 12 < x.length ∨ ∃ k ∈ x, 10 ≤ k.val) →
        sets (1 :: value) s (.refused .invalid)) ∧
      (∀ x, symbolString value = some x → x.length ≤ 20 →
        sets (2 :: value) (with_ { s.settings with centreNumber := x }) (.done .empty)) ∧
      ((∀ x, symbolString value = some x → 20 < x.length) → sets (2 :: value) s (.refused .invalid))) ∧
    (∀ v : Byte,
      (v.toNat = 0 → sets [3, v] (with_ { s.settings with method := .tone }) (.done .empty) ∧
        sets [4, v] (with_ { s.settings with answerMode := .signalled }) (.done .empty) ∧
        sets [7, v] (with_ { s.settings with rounding := .carry }) (.done .empty)) ∧
      (v.toNat = 1 → sets [3, v] (with_ { s.settings with method := .pulse }) (.done .empty) ∧
        sets [4, v] (with_ { s.settings with answerMode := .presumed }) (.done .empty) ∧
        sets [7, v] (with_ { s.settings with rounding := .stepUp }) (.done .empty)) ∧
      (v.toNat = 2 → sets [7, v] (with_ { s.settings with rounding := .stepDown }) (.done .empty)) ∧
      (1 < v.toNat → sets [3, v] s (.refused .invalid) ∧ sets [4, v] s (.refused .invalid)) ∧
      (2 < v.toNat → sets [7, v] s (.refused .invalid))) ∧
    (∀ hi lo : Byte,
      let v := hi.toNat * 256 + lo.toNat
      sets [5, hi, lo] (with_ { s.settings with presumedDelay := max 1 (min 60 v) })
        (if 1 ≤ v ∧ v ≤ 60 then .done .empty else .doneClamped) ∧
      sets [6, hi, lo] (with_ { s.settings with warningLead := max 5 (min 60 v) })
        (if 5 ≤ v ∧ v ≤ 60 then .done .empty else .doneClamped) ∧
      (v ≤ 1439 → sets [9, hi, lo] (with_ { s.settings with dailyReport := v }) (.done .empty)) ∧
      (1439 < v → sets [9, hi, lo] s (.refused .invalid))) ∧
    (∀ nh nl fh fl : Byte,
      let near := nh.toNat * 256 + nl.toNat
      let full := fh.toNat * 256 + fl.toNat
      (1 ≤ near → near < full →
        sets [8, nh, nl, fh, fl] (State.judgeThresholds (with_ { s.settings with near := near, full := full }))
          (.done .empty)) ∧
      (near = 0 ∨ full ≤ near → sets [8, nh, nl, fh, fl] s (.refused .invalid))) ∧
    (∀ (code v : Byte),
      (code.toNat = 0 ∨ 22 < code.toNat ∨ 1 < v.toNat → sets [10, code, v] s (.refused .invalid)) ∧
      (∀ src : Source, code.toNat = src.code →
        let set : State := with_ { s.settings with reportEnable := s.settings.reportEnable.set src.idx (v.toNat = 1) }
        (v.toNat = 0 →
          ((∃ r, s.record src = some r ∧ r.state = .cleared ∧ r.snapshot = none) →
            sets [10, code, v] (set.retire src) (.done .empty)) ∧
          ((∀ r, s.record src = some r → r.state ≠ .cleared ∨ r.snapshot ≠ none) → sets [10, code, v] set (.done .empty))) ∧
        (v.toNat = 1 →
          (∀ r, s.record src = some r → s.reportEnabled src = false → r.acked < r.count ∨ r.state = .cleared →
            sets [10, code, v] (set.reportTrigger r.severity) (.done .empty)) ∧
          (s.reportEnabled src = true ∨ (∀ r, s.record src = some r → r.count ≤ r.acked ∧ r.state ≠ .cleared) →
            sets [10, code, v] set (.done .empty))))) ∧
    (∀ (input type polarity mode qh ql count window hh hl ch cl restriction : Byte),
      let body := [11, input, type, polarity, mode, qh, ql, count, window, hh, hl, ch, cl, restriction]
      (8 ≤ input.toNat ∨ 5 < type.toNat ∨ 1 < polarity.toNat ∨ 2 < mode.toNat ∨
          3 < restriction.toNat ∧ restriction.toNat ≠ 15 → sets body s (.refused .invalid)) ∧
      ∀ (i : Fin 8) (ty : InputType) (pol : Polarity) (m : InputMode) (res : ServiceLevel), input.toNat = i.val →
        inputTypeOfCode type.toNat = some ty → polarityOfCode polarity.toNat = some pol →
        inputModeOfCode mode.toNat = some m →
        (restriction.toNat = 0 ∧ res = .full ∨ restriction.toNat = 1 ∧ res = .freeOnly ∨
          restriction.toNat = 2 ∧ res = .emergencyOnly ∨ restriction.toNat = 3 ∧ res = .closed ∨
          restriction.toNat = 15 ∧ res = (if ty = .handsetCord then .closed else .full)) →
        let q := qh.toNat * 256 + ql.toNat
        let hold := hh.toNat * 256 + hl.toNat
        let delay := ch.toNat * 256 + cl.toNat
        let a : Assignment :=
          { type := ty, polarity := pol, mode := m, qualifyMs := max 10 (min 10000 q), count := max 2 (min 15 count.toNat)
            window := max 1 (min 60 window.toNat), holdOff := min 600 hold, clearDelay := max 1 (min 600 delay)
            restriction := res }
        let inRange := 10 ≤ q ∧ q ≤ 10000 ∧ 2 ≤ count.toNat ∧ count.toNat ≤ 15 ∧ 1 ≤ window.toNat ∧ window.toNat ≤ 60 ∧
          hold ≤ 600 ∧ 1 ≤ delay ∧ delay ≤ 600
        let x := s.sup.inputs[i]
        let put (y : SupervisedInput) : State := { s with sup := { s.sup with inputs := s.sup.inputs.set i y } }
        let answer : Reply := if inRange then .done .empty else .doneClamped
        let rests := x.assignment.type = .unused ∨ x.active = false ∧ x.windowEnds = none ∧ x.holdOffEnds = none
        (ty = .unused →
          let ended : State := State.setNormality (.input i) false (put
            { assignment := a, staged := none, active := false, windowEnds := none, edgeCount := 0, holdOffEnds := none
              clearFrom := none })
          (s.recordActive (.input i) = true → sets body (ended.clearRecord (.input i)) answer) ∧
          (s.recordActive (.input i) = false → sets body ended answer)) ∧
        (ty ≠ .unused → rests →
          sets body (State.deriveLevel (put
            { x with assignment := a, staged := none, active := false, windowEnds := none, edgeCount := 0
                     holdOffEnds := none })) answer) ∧
        (ty ≠ .unused → ¬ rests → sets body (put { x with staged := some a }) (.doneDeferred .empty))) ∧
    (∀ b : Byte,
      let named := AttentionFlags.ofByte b
      let f := s.attention.flags
      named = ⟨b.getLsbD 0, b.getLsbD 1, b.getLsbD 2, b.getLsbD 3, b.getLsbD 4, b.getLsbD 5, b.getLsbD 6, b.getLsbD 7⟩ ∧
      does (.attentionAck p tag [b]) 23 { s with attention := { s.attention with flags :=
        { callEvent := f.callEvent && !named.callEvent, creditLow := f.creditLow && !named.creditLow
          conditionChanged := f.conditionChanged && !named.conditionChanged
          levelChanged := f.levelChanged && !named.levelChanged, reportDone := f.reportDone && !named.reportDone
          tallyClosed := f.tallyClosed && !named.tallyClosed, tableChanged := f.tableChanged && !named.tableChanged
          restarted := f.restarted && !named.restarted } } } (.done .empty) ∧
      does (.attentionMask p tag [b]) 24 { s with attention := { s.attention with mask := named } } (.done .empty)) ∧
    (s.attentionDriven = true ↔
      let f := s.attention.flags
      let m := s.attention.mask
      f.callEvent = true ∧ m.callEvent = false ∨ f.creditLow = true ∧ m.creditLow = false ∨
        f.conditionChanged = true ∧ m.conditionChanged = false ∨ f.levelChanged = true ∧ m.levelChanged = false ∨
        f.reportDone = true ∧ m.reportDone = false ∨ f.tallyClosed = true ∧ m.tallyClosed = false ∨
        f.tableChanged = true ∧ m.tableChanged = false ∨ f.restarted = true ∧ m.restarted = false)

/-- R111, R127, R149, R185, R193: STATION_INIT, in its order: the report unit reset and its line released, the session end of
the session's state with a refund requested, the accrued flags cleared, both streaks 0, the buffer and session timer empty,
and every attention flag cleared. The tariff table but for the pin released, the clock, the tallies, the settings and the
column are not changed, a record in report loses its snapshot, and the request is answered DONE in every state. (That the
ENDED of a call it ends counts as an event is the MODEL'S CHOICE between R147 and R149, log entry 42.) -/
def Obligations.StationInitResetsSessionAndReports : Prop :=
  ∀ (p : Port) (tag : Byte) (s : State), s.admits p → s.LevelHeld → s.CallLaw →
    let ended : Bool := s.session.state ≠ .idle && s.session.state ≠ .clearing
    let owned : Bool := s.lineOwner.isSome
    let line : Line :=
      if owned then
        { s.line with state := .releasing, call := none, deadline := s.now + 900, presumedEnds := none, phase := .sent,
                      sending := none, sessionRequest := none, reportRequest := none, streak := 0 }
      else
        { s.line with sessionRequest := if ended then none else s.line.sessionRequest, reportRequest := none, streak := 0 }
    let event : CallEventRecord → Prop := fun e =>
      e.event = .ended .stationInit ∧ e.symbols = s.session.buffer ∧ e.threshold = none ∧
        e.slot = s.session.decision.map Decision.slot ∧ e.category = s.session.decision.map Decision.category ∧
        e.callNumber = if s.session.state = .awaitCredit then none else some s.rating.callNumber
    ∃ (record : Option CallEventRecord) (records : Vector (Option ConditionRecord) 22),
      (∀ src, records[src.idx] = match s.record src with
        | none => none
        | some r =>
          if r.snapshot = none then some r
          else if r.state = .cleared ∧ s.reportEnabled src = false then none
          else some { r with snapshot := none }) ∧
      (s.session.decision = none → record = s.session.event) ∧
      (s.session.decision.isSome = true → ∃ e, record = some e ∧ event e) ∧
      exec (.stationInit p tag []) s = .next (State.answer p ((Reply.done .empty).response 25 tag) { s with
        coin := { s.coin with
          streak := 0
          waiting := some ⟨s.coin.waiting.any WaitingRefund.startUp, true⟩
          sessionRefunded := false
          transit := if s.coin.waiting.isSome then s.coin.transit
            else s.coin.transit.map (fun e => { e with noted := true }) }
        credit := { s.credit with account := if s.credit.account = .inSession ∧ s.session.state ≠ .clearing then .closing
          else s.credit.account }
        tariff := match s.session.decision with
          | some d => s.tariff.releasePin d.slot
          | none => s.tariff
        rating := { s.rating.endCall s.now with accrued := CallFlags.empty }
        line := line
        sup := { s.sup with records := records }
        session := { s.session with
          state := .clearing, buffer := [], decision := none, timer := none, event := record
          threshold := if s.session.decision.isSome then none else s.session.threshold
          eventCount := if s.session.decision.isSome then (s.session.eventCount + 1) % 65536 else s.session.eventCount }
        report :=
          { state := if s.anyOutstanding then .scheduled else .idle, attempts := 0
            timer := if s.anyOutstanding then some (.held 120000) else none
            renewal := false, snapshot := none, repeated := false, replyEnds := none, outcome := none }
        attention := { s.attention with flags := AttentionFlags.none } })

/-! ## The thresholds -/

/-- R46, R55: the judgement of the thresholds. A source whose threshold the current tally's total coins has reached is abnormal,
and raises its occurrence at the instant it becomes so (CASHBOX_NEAR_FULL, NOTICE; CASHBOX_FULL, FAULT); below its threshold it is
normal, and an unlatched record of it clears; and where neither changes nothing does. At start-up a source whose threshold is
reached becomes abnormal, and raises its occurrence only where it has no active record. Near is judged before full. -/
def Obligations.ThresholdsAreJudged : Prop :=
  (∀ s : State,
    let n := s.comp.current.totalCoins
    let judged (src : Source) (type : ConditionType) (severity : Severity) (reached : Bool) (t : State) : State :=
      if reached = true ∧ t.normal src = true then State.occurrence src type severity (t.setNormality src true)
      else if reached = false ∧ t.normal src = false then State.makeNormal src t
      else t
    let near : State := judged .cashboxNear .cashboxNearFull .notice (s.settings.near ≤ n) s
    let t : State := s.judgeThresholds
    t = judged .cashboxFull .cashboxFull .fault (s.settings.full ≤ n) near ∧
    t.normal .cashboxNear = decide (n < s.settings.near) ∧ t.normal .cashboxFull = decide (n < s.settings.full) ∧
    t.comp = s.comp ∧ t.settings = s.settings ∧
    (∀ src type severity limit, (src, type, severity, limit) ∈
        [(Source.cashboxNear, ConditionType.cashboxNearFull, Severity.notice, s.settings.near),
          (.cashboxFull, .cashboxFull, .fault, s.settings.full)] →
      (limit ≤ n → s.normal src = true → ∃ r, t.record src = some r ∧ r.type = type ∧ r.severity = severity ∧
        r.state = .raised ∧ r.lastChange = s.clock.time ∧
        r.count = match s.record src with
          | none => 1
          | some old => if old.count < 255 then old.count + 1 else 255) ∧
      (n < limit → s.normal src = false → ∀ r, t.record src = some r → r.severity ≠ .alarm → r.state = .cleared) ∧
      (s.normal src = decide (n < limit) → t.record src = s.record src)) ∧
    ∀ src, src ≠ .cashboxNear → src ≠ .cashboxFull → t.record src = s.record src ∧ t.normal src = s.normal src) ∧
  ∀ (src : Source) (type : ConditionType) (severity : Severity) (reached : Bool) (s : State),
    let t : State := s.startThreshold src type severity reached
    (reached = false → t = s) ∧
    (reached = true → t.normal src = false ∧
      (∀ other, other ≠ src → t.record other = s.record other ∧ t.normal other = s.normal other) ∧
      (s.recordActive src = true → ∀ r, s.record src = some r →
        ∃ r', t.record src = some r' ∧ r'.state = r.state ∧ r'.count = r.count) ∧
      (s.recordActive src = false → ∃ r', t.record src = some r' ∧ r'.type = type ∧ r'.severity = severity ∧
        r'.state = .raised ∧ r'.count = match s.record src with
          | none => 1
          | some old => if old.count < 255 then old.count + 1 else 255))
end

