-- ==== Sys2Proof/Laws/State.lean ====
section
/-! SUPPORT. Setting one block of the state leaves every other block as it was, and the block set is the value given. -/

namespace Sys2Proof.Machine

@[simp] theorem State.setPending_pending (s : State) (x : List Instr) : (s.setPending x).pending = x := rfl
@[simp] theorem State.setPending_now (s : State) (x : List Instr) : (s.setPending x).now = s.now := rfl
@[simp] theorem State.setPending_supplies (s : State) (x : List Instr) : (s.setPending x).supplies = s.supplies := rfl
@[simp] theorem State.setPending_coin (s : State) (x : List Instr) : (s.setPending x).coin = s.coin := rfl
@[simp] theorem State.setPending_credit (s : State) (x : List Instr) : (s.setPending x).credit = s.credit := rfl
@[simp] theorem State.setPending_comp (s : State) (x : List Instr) : (s.setPending x).comp = s.comp := rfl
@[simp] theorem State.setPending_tariff (s : State) (x : List Instr) : (s.setPending x).tariff = s.tariff := rfl
@[simp] theorem State.setPending_clock (s : State) (x : List Instr) : (s.setPending x).clock = s.clock := rfl
@[simp] theorem State.setPending_rating (s : State) (x : List Instr) : (s.setPending x).rating = s.rating := rfl
@[simp] theorem State.setPending_line (s : State) (x : List Instr) : (s.setPending x).line = s.line := rfl
@[simp] theorem State.setPending_session (s : State) (x : List Instr) : (s.setPending x).session = s.session := rfl
@[simp] theorem State.setPending_sup (s : State) (x : List Instr) : (s.setPending x).sup = s.sup := rfl
@[simp] theorem State.setPending_report (s : State) (x : List Instr) : (s.setPending x).report = s.report := rfl
@[simp] theorem State.setPending_settings (s : State) (x : List Instr) : (s.setPending x).settings = s.settings := rfl
@[simp] theorem State.setPending_attention (s : State) (x : List Instr) : (s.setPending x).attention = s.attention := rfl
@[simp] theorem State.setPending_hostPort (s : State) (x : List Instr) : (s.setPending x).hostPort = s.hostPort := rfl
@[simp] theorem State.setPending_servicePort (s : State) (x : List Instr) : (s.setPending x).servicePort = s.servicePort := rfl

@[simp] theorem State.setNow_pending (s : State) (x : Nat) : (s.setNow x).pending = s.pending := rfl
@[simp] theorem State.setNow_now (s : State) (x : Nat) : (s.setNow x).now = x := rfl
@[simp] theorem State.setNow_supplies (s : State) (x : Nat) : (s.setNow x).supplies = s.supplies := rfl
@[simp] theorem State.setNow_coin (s : State) (x : Nat) : (s.setNow x).coin = s.coin := rfl
@[simp] theorem State.setNow_credit (s : State) (x : Nat) : (s.setNow x).credit = s.credit := rfl
@[simp] theorem State.setNow_comp (s : State) (x : Nat) : (s.setNow x).comp = s.comp := rfl
@[simp] theorem State.setNow_tariff (s : State) (x : Nat) : (s.setNow x).tariff = s.tariff := rfl
@[simp] theorem State.setNow_clock (s : State) (x : Nat) : (s.setNow x).clock = s.clock := rfl
@[simp] theorem State.setNow_rating (s : State) (x : Nat) : (s.setNow x).rating = s.rating := rfl
@[simp] theorem State.setNow_line (s : State) (x : Nat) : (s.setNow x).line = s.line := rfl
@[simp] theorem State.setNow_session (s : State) (x : Nat) : (s.setNow x).session = s.session := rfl
@[simp] theorem State.setNow_sup (s : State) (x : Nat) : (s.setNow x).sup = s.sup := rfl
@[simp] theorem State.setNow_report (s : State) (x : Nat) : (s.setNow x).report = s.report := rfl
@[simp] theorem State.setNow_settings (s : State) (x : Nat) : (s.setNow x).settings = s.settings := rfl
@[simp] theorem State.setNow_attention (s : State) (x : Nat) : (s.setNow x).attention = s.attention := rfl
@[simp] theorem State.setNow_hostPort (s : State) (x : Nat) : (s.setNow x).hostPort = s.hostPort := rfl
@[simp] theorem State.setNow_servicePort (s : State) (x : Nat) : (s.setNow x).servicePort = s.servicePort := rfl

@[simp] theorem State.setSupplies_pending (s : State) (x : Supplies) : (s.setSupplies x).pending = s.pending := rfl
@[simp] theorem State.setSupplies_now (s : State) (x : Supplies) : (s.setSupplies x).now = s.now := rfl
@[simp] theorem State.setSupplies_supplies (s : State) (x : Supplies) : (s.setSupplies x).supplies = x := rfl
@[simp] theorem State.setSupplies_coin (s : State) (x : Supplies) : (s.setSupplies x).coin = s.coin := rfl
@[simp] theorem State.setSupplies_credit (s : State) (x : Supplies) : (s.setSupplies x).credit = s.credit := rfl
@[simp] theorem State.setSupplies_comp (s : State) (x : Supplies) : (s.setSupplies x).comp = s.comp := rfl
@[simp] theorem State.setSupplies_tariff (s : State) (x : Supplies) : (s.setSupplies x).tariff = s.tariff := rfl
@[simp] theorem State.setSupplies_clock (s : State) (x : Supplies) : (s.setSupplies x).clock = s.clock := rfl
@[simp] theorem State.setSupplies_rating (s : State) (x : Supplies) : (s.setSupplies x).rating = s.rating := rfl
@[simp] theorem State.setSupplies_line (s : State) (x : Supplies) : (s.setSupplies x).line = s.line := rfl
@[simp] theorem State.setSupplies_session (s : State) (x : Supplies) : (s.setSupplies x).session = s.session := rfl
@[simp] theorem State.setSupplies_sup (s : State) (x : Supplies) : (s.setSupplies x).sup = s.sup := rfl
@[simp] theorem State.setSupplies_report (s : State) (x : Supplies) : (s.setSupplies x).report = s.report := rfl
@[simp] theorem State.setSupplies_settings (s : State) (x : Supplies) : (s.setSupplies x).settings = s.settings := rfl
@[simp] theorem State.setSupplies_attention (s : State) (x : Supplies) : (s.setSupplies x).attention = s.attention := rfl
@[simp] theorem State.setSupplies_hostPort (s : State) (x : Supplies) : (s.setSupplies x).hostPort = s.hostPort := rfl
@[simp] theorem State.setSupplies_servicePort (s : State) (x : Supplies) : (s.setSupplies x).servicePort = s.servicePort := rfl

@[simp] theorem State.setCoin_pending (s : State) (x : CoinPath) : (s.setCoin x).pending = s.pending := rfl
@[simp] theorem State.setCoin_now (s : State) (x : CoinPath) : (s.setCoin x).now = s.now := rfl
@[simp] theorem State.setCoin_supplies (s : State) (x : CoinPath) : (s.setCoin x).supplies = s.supplies := rfl
@[simp] theorem State.setCoin_coin (s : State) (x : CoinPath) : (s.setCoin x).coin = x := rfl
@[simp] theorem State.setCoin_credit (s : State) (x : CoinPath) : (s.setCoin x).credit = s.credit := rfl
@[simp] theorem State.setCoin_comp (s : State) (x : CoinPath) : (s.setCoin x).comp = s.comp := rfl
@[simp] theorem State.setCoin_tariff (s : State) (x : CoinPath) : (s.setCoin x).tariff = s.tariff := rfl
@[simp] theorem State.setCoin_clock (s : State) (x : CoinPath) : (s.setCoin x).clock = s.clock := rfl
@[simp] theorem State.setCoin_rating (s : State) (x : CoinPath) : (s.setCoin x).rating = s.rating := rfl
@[simp] theorem State.setCoin_line (s : State) (x : CoinPath) : (s.setCoin x).line = s.line := rfl
@[simp] theorem State.setCoin_session (s : State) (x : CoinPath) : (s.setCoin x).session = s.session := rfl
@[simp] theorem State.setCoin_sup (s : State) (x : CoinPath) : (s.setCoin x).sup = s.sup := rfl
@[simp] theorem State.setCoin_report (s : State) (x : CoinPath) : (s.setCoin x).report = s.report := rfl
@[simp] theorem State.setCoin_settings (s : State) (x : CoinPath) : (s.setCoin x).settings = s.settings := rfl
@[simp] theorem State.setCoin_attention (s : State) (x : CoinPath) : (s.setCoin x).attention = s.attention := rfl
@[simp] theorem State.setCoin_hostPort (s : State) (x : CoinPath) : (s.setCoin x).hostPort = s.hostPort := rfl
@[simp] theorem State.setCoin_servicePort (s : State) (x : CoinPath) : (s.setCoin x).servicePort = s.servicePort := rfl

@[simp] theorem State.setCredit_pending (s : State) (x : Credit) : (s.setCredit x).pending = s.pending := rfl
@[simp] theorem State.setCredit_now (s : State) (x : Credit) : (s.setCredit x).now = s.now := rfl
@[simp] theorem State.setCredit_supplies (s : State) (x : Credit) : (s.setCredit x).supplies = s.supplies := rfl
@[simp] theorem State.setCredit_coin (s : State) (x : Credit) : (s.setCredit x).coin = s.coin := rfl
@[simp] theorem State.setCredit_credit (s : State) (x : Credit) : (s.setCredit x).credit = x := rfl
@[simp] theorem State.setCredit_comp (s : State) (x : Credit) : (s.setCredit x).comp = s.comp := rfl
@[simp] theorem State.setCredit_tariff (s : State) (x : Credit) : (s.setCredit x).tariff = s.tariff := rfl
@[simp] theorem State.setCredit_clock (s : State) (x : Credit) : (s.setCredit x).clock = s.clock := rfl
@[simp] theorem State.setCredit_rating (s : State) (x : Credit) : (s.setCredit x).rating = s.rating := rfl
@[simp] theorem State.setCredit_line (s : State) (x : Credit) : (s.setCredit x).line = s.line := rfl
@[simp] theorem State.setCredit_session (s : State) (x : Credit) : (s.setCredit x).session = s.session := rfl
@[simp] theorem State.setCredit_sup (s : State) (x : Credit) : (s.setCredit x).sup = s.sup := rfl
@[simp] theorem State.setCredit_report (s : State) (x : Credit) : (s.setCredit x).report = s.report := rfl
@[simp] theorem State.setCredit_settings (s : State) (x : Credit) : (s.setCredit x).settings = s.settings := rfl
@[simp] theorem State.setCredit_attention (s : State) (x : Credit) : (s.setCredit x).attention = s.attention := rfl
@[simp] theorem State.setCredit_hostPort (s : State) (x : Credit) : (s.setCredit x).hostPort = s.hostPort := rfl
@[simp] theorem State.setCredit_servicePort (s : State) (x : Credit) : (s.setCredit x).servicePort = s.servicePort := rfl

@[simp] theorem State.setComp_pending (s : State) (x : Compartment) : (s.setComp x).pending = s.pending := rfl
@[simp] theorem State.setComp_now (s : State) (x : Compartment) : (s.setComp x).now = s.now := rfl
@[simp] theorem State.setComp_supplies (s : State) (x : Compartment) : (s.setComp x).supplies = s.supplies := rfl
@[simp] theorem State.setComp_coin (s : State) (x : Compartment) : (s.setComp x).coin = s.coin := rfl
@[simp] theorem State.setComp_credit (s : State) (x : Compartment) : (s.setComp x).credit = s.credit := rfl
@[simp] theorem State.setComp_comp (s : State) (x : Compartment) : (s.setComp x).comp = x := rfl
@[simp] theorem State.setComp_tariff (s : State) (x : Compartment) : (s.setComp x).tariff = s.tariff := rfl
@[simp] theorem State.setComp_clock (s : State) (x : Compartment) : (s.setComp x).clock = s.clock := rfl
@[simp] theorem State.setComp_rating (s : State) (x : Compartment) : (s.setComp x).rating = s.rating := rfl
@[simp] theorem State.setComp_line (s : State) (x : Compartment) : (s.setComp x).line = s.line := rfl
@[simp] theorem State.setComp_session (s : State) (x : Compartment) : (s.setComp x).session = s.session := rfl
@[simp] theorem State.setComp_sup (s : State) (x : Compartment) : (s.setComp x).sup = s.sup := rfl
@[simp] theorem State.setComp_report (s : State) (x : Compartment) : (s.setComp x).report = s.report := rfl
@[simp] theorem State.setComp_settings (s : State) (x : Compartment) : (s.setComp x).settings = s.settings := rfl
@[simp] theorem State.setComp_attention (s : State) (x : Compartment) : (s.setComp x).attention = s.attention := rfl
@[simp] theorem State.setComp_hostPort (s : State) (x : Compartment) : (s.setComp x).hostPort = s.hostPort := rfl
@[simp] theorem State.setComp_servicePort (s : State) (x : Compartment) : (s.setComp x).servicePort = s.servicePort := rfl

@[simp] theorem State.setTariff_pending (s : State) (x : TariffTable) : (s.setTariff x).pending = s.pending := rfl
@[simp] theorem State.setTariff_now (s : State) (x : TariffTable) : (s.setTariff x).now = s.now := rfl
@[simp] theorem State.setTariff_supplies (s : State) (x : TariffTable) : (s.setTariff x).supplies = s.supplies := rfl
@[simp] theorem State.setTariff_coin (s : State) (x : TariffTable) : (s.setTariff x).coin = s.coin := rfl
@[simp] theorem State.setTariff_credit (s : State) (x : TariffTable) : (s.setTariff x).credit = s.credit := rfl
@[simp] theorem State.setTariff_comp (s : State) (x : TariffTable) : (s.setTariff x).comp = s.comp := rfl
@[simp] theorem State.setTariff_tariff (s : State) (x : TariffTable) : (s.setTariff x).tariff = x := rfl
@[simp] theorem State.setTariff_clock (s : State) (x : TariffTable) : (s.setTariff x).clock = s.clock := rfl
@[simp] theorem State.setTariff_rating (s : State) (x : TariffTable) : (s.setTariff x).rating = s.rating := rfl
@[simp] theorem State.setTariff_line (s : State) (x : TariffTable) : (s.setTariff x).line = s.line := rfl
@[simp] theorem State.setTariff_session (s : State) (x : TariffTable) : (s.setTariff x).session = s.session := rfl
@[simp] theorem State.setTariff_sup (s : State) (x : TariffTable) : (s.setTariff x).sup = s.sup := rfl
@[simp] theorem State.setTariff_report (s : State) (x : TariffTable) : (s.setTariff x).report = s.report := rfl
@[simp] theorem State.setTariff_settings (s : State) (x : TariffTable) : (s.setTariff x).settings = s.settings := rfl
@[simp] theorem State.setTariff_attention (s : State) (x : TariffTable) : (s.setTariff x).attention = s.attention := rfl
@[simp] theorem State.setTariff_hostPort (s : State) (x : TariffTable) : (s.setTariff x).hostPort = s.hostPort := rfl
@[simp] theorem State.setTariff_servicePort (s : State) (x : TariffTable) : (s.setTariff x).servicePort = s.servicePort := rfl

@[simp] theorem State.setClock_pending (s : State) (x : StationClock) : (s.setClock x).pending = s.pending := rfl
@[simp] theorem State.setClock_now (s : State) (x : StationClock) : (s.setClock x).now = s.now := rfl
@[simp] theorem State.setClock_supplies (s : State) (x : StationClock) : (s.setClock x).supplies = s.supplies := rfl
@[simp] theorem State.setClock_coin (s : State) (x : StationClock) : (s.setClock x).coin = s.coin := rfl
@[simp] theorem State.setClock_credit (s : State) (x : StationClock) : (s.setClock x).credit = s.credit := rfl
@[simp] theorem State.setClock_comp (s : State) (x : StationClock) : (s.setClock x).comp = s.comp := rfl
@[simp] theorem State.setClock_tariff (s : State) (x : StationClock) : (s.setClock x).tariff = s.tariff := rfl
@[simp] theorem State.setClock_clock (s : State) (x : StationClock) : (s.setClock x).clock = x := rfl
@[simp] theorem State.setClock_rating (s : State) (x : StationClock) : (s.setClock x).rating = s.rating := rfl
@[simp] theorem State.setClock_line (s : State) (x : StationClock) : (s.setClock x).line = s.line := rfl
@[simp] theorem State.setClock_session (s : State) (x : StationClock) : (s.setClock x).session = s.session := rfl
@[simp] theorem State.setClock_sup (s : State) (x : StationClock) : (s.setClock x).sup = s.sup := rfl
@[simp] theorem State.setClock_report (s : State) (x : StationClock) : (s.setClock x).report = s.report := rfl
@[simp] theorem State.setClock_settings (s : State) (x : StationClock) : (s.setClock x).settings = s.settings := rfl
@[simp] theorem State.setClock_attention (s : State) (x : StationClock) : (s.setClock x).attention = s.attention := rfl
@[simp] theorem State.setClock_hostPort (s : State) (x : StationClock) : (s.setClock x).hostPort = s.hostPort := rfl
@[simp] theorem State.setClock_servicePort (s : State) (x : StationClock) : (s.setClock x).servicePort = s.servicePort := rfl

@[simp] theorem State.setRating_pending (s : State) (x : Rating) : (s.setRating x).pending = s.pending := rfl
@[simp] theorem State.setRating_now (s : State) (x : Rating) : (s.setRating x).now = s.now := rfl
@[simp] theorem State.setRating_supplies (s : State) (x : Rating) : (s.setRating x).supplies = s.supplies := rfl
@[simp] theorem State.setRating_coin (s : State) (x : Rating) : (s.setRating x).coin = s.coin := rfl
@[simp] theorem State.setRating_credit (s : State) (x : Rating) : (s.setRating x).credit = s.credit := rfl
@[simp] theorem State.setRating_comp (s : State) (x : Rating) : (s.setRating x).comp = s.comp := rfl
@[simp] theorem State.setRating_tariff (s : State) (x : Rating) : (s.setRating x).tariff = s.tariff := rfl
@[simp] theorem State.setRating_clock (s : State) (x : Rating) : (s.setRating x).clock = s.clock := rfl
@[simp] theorem State.setRating_rating (s : State) (x : Rating) : (s.setRating x).rating = x := rfl
@[simp] theorem State.setRating_line (s : State) (x : Rating) : (s.setRating x).line = s.line := rfl
@[simp] theorem State.setRating_session (s : State) (x : Rating) : (s.setRating x).session = s.session := rfl
@[simp] theorem State.setRating_sup (s : State) (x : Rating) : (s.setRating x).sup = s.sup := rfl
@[simp] theorem State.setRating_report (s : State) (x : Rating) : (s.setRating x).report = s.report := rfl
@[simp] theorem State.setRating_settings (s : State) (x : Rating) : (s.setRating x).settings = s.settings := rfl
@[simp] theorem State.setRating_attention (s : State) (x : Rating) : (s.setRating x).attention = s.attention := rfl
@[simp] theorem State.setRating_hostPort (s : State) (x : Rating) : (s.setRating x).hostPort = s.hostPort := rfl
@[simp] theorem State.setRating_servicePort (s : State) (x : Rating) : (s.setRating x).servicePort = s.servicePort := rfl

@[simp] theorem State.setLine_pending (s : State) (x : Line) : (s.setLine x).pending = s.pending := rfl
@[simp] theorem State.setLine_now (s : State) (x : Line) : (s.setLine x).now = s.now := rfl
@[simp] theorem State.setLine_supplies (s : State) (x : Line) : (s.setLine x).supplies = s.supplies := rfl
@[simp] theorem State.setLine_coin (s : State) (x : Line) : (s.setLine x).coin = s.coin := rfl
@[simp] theorem State.setLine_credit (s : State) (x : Line) : (s.setLine x).credit = s.credit := rfl
@[simp] theorem State.setLine_comp (s : State) (x : Line) : (s.setLine x).comp = s.comp := rfl
@[simp] theorem State.setLine_tariff (s : State) (x : Line) : (s.setLine x).tariff = s.tariff := rfl
@[simp] theorem State.setLine_clock (s : State) (x : Line) : (s.setLine x).clock = s.clock := rfl
@[simp] theorem State.setLine_rating (s : State) (x : Line) : (s.setLine x).rating = s.rating := rfl
@[simp] theorem State.setLine_line (s : State) (x : Line) : (s.setLine x).line = x := rfl
@[simp] theorem State.setLine_session (s : State) (x : Line) : (s.setLine x).session = s.session := rfl
@[simp] theorem State.setLine_sup (s : State) (x : Line) : (s.setLine x).sup = s.sup := rfl
@[simp] theorem State.setLine_report (s : State) (x : Line) : (s.setLine x).report = s.report := rfl
@[simp] theorem State.setLine_settings (s : State) (x : Line) : (s.setLine x).settings = s.settings := rfl
@[simp] theorem State.setLine_attention (s : State) (x : Line) : (s.setLine x).attention = s.attention := rfl
@[simp] theorem State.setLine_hostPort (s : State) (x : Line) : (s.setLine x).hostPort = s.hostPort := rfl
@[simp] theorem State.setLine_servicePort (s : State) (x : Line) : (s.setLine x).servicePort = s.servicePort := rfl

@[simp] theorem State.setSession_pending (s : State) (x : Session) : (s.setSession x).pending = s.pending := rfl
@[simp] theorem State.setSession_now (s : State) (x : Session) : (s.setSession x).now = s.now := rfl
@[simp] theorem State.setSession_supplies (s : State) (x : Session) : (s.setSession x).supplies = s.supplies := rfl
@[simp] theorem State.setSession_coin (s : State) (x : Session) : (s.setSession x).coin = s.coin := rfl
@[simp] theorem State.setSession_credit (s : State) (x : Session) : (s.setSession x).credit = s.credit := rfl
@[simp] theorem State.setSession_comp (s : State) (x : Session) : (s.setSession x).comp = s.comp := rfl
@[simp] theorem State.setSession_tariff (s : State) (x : Session) : (s.setSession x).tariff = s.tariff := rfl
@[simp] theorem State.setSession_clock (s : State) (x : Session) : (s.setSession x).clock = s.clock := rfl
@[simp] theorem State.setSession_rating (s : State) (x : Session) : (s.setSession x).rating = s.rating := rfl
@[simp] theorem State.setSession_line (s : State) (x : Session) : (s.setSession x).line = s.line := rfl
@[simp] theorem State.setSession_session (s : State) (x : Session) : (s.setSession x).session = x := rfl
@[simp] theorem State.setSession_sup (s : State) (x : Session) : (s.setSession x).sup = s.sup := rfl
@[simp] theorem State.setSession_report (s : State) (x : Session) : (s.setSession x).report = s.report := rfl
@[simp] theorem State.setSession_settings (s : State) (x : Session) : (s.setSession x).settings = s.settings := rfl
@[simp] theorem State.setSession_attention (s : State) (x : Session) : (s.setSession x).attention = s.attention := rfl
@[simp] theorem State.setSession_hostPort (s : State) (x : Session) : (s.setSession x).hostPort = s.hostPort := rfl
@[simp] theorem State.setSession_servicePort (s : State) (x : Session) : (s.setSession x).servicePort = s.servicePort := rfl

@[simp] theorem State.setSup_pending (s : State) (x : Supervision) : (s.setSup x).pending = s.pending := rfl
@[simp] theorem State.setSup_now (s : State) (x : Supervision) : (s.setSup x).now = s.now := rfl
@[simp] theorem State.setSup_supplies (s : State) (x : Supervision) : (s.setSup x).supplies = s.supplies := rfl
@[simp] theorem State.setSup_coin (s : State) (x : Supervision) : (s.setSup x).coin = s.coin := rfl
@[simp] theorem State.setSup_credit (s : State) (x : Supervision) : (s.setSup x).credit = s.credit := rfl
@[simp] theorem State.setSup_comp (s : State) (x : Supervision) : (s.setSup x).comp = s.comp := rfl
@[simp] theorem State.setSup_tariff (s : State) (x : Supervision) : (s.setSup x).tariff = s.tariff := rfl
@[simp] theorem State.setSup_clock (s : State) (x : Supervision) : (s.setSup x).clock = s.clock := rfl
@[simp] theorem State.setSup_rating (s : State) (x : Supervision) : (s.setSup x).rating = s.rating := rfl
@[simp] theorem State.setSup_line (s : State) (x : Supervision) : (s.setSup x).line = s.line := rfl
@[simp] theorem State.setSup_session (s : State) (x : Supervision) : (s.setSup x).session = s.session := rfl
@[simp] theorem State.setSup_sup (s : State) (x : Supervision) : (s.setSup x).sup = x := rfl
@[simp] theorem State.setSup_report (s : State) (x : Supervision) : (s.setSup x).report = s.report := rfl
@[simp] theorem State.setSup_settings (s : State) (x : Supervision) : (s.setSup x).settings = s.settings := rfl
@[simp] theorem State.setSup_attention (s : State) (x : Supervision) : (s.setSup x).attention = s.attention := rfl
@[simp] theorem State.setSup_hostPort (s : State) (x : Supervision) : (s.setSup x).hostPort = s.hostPort := rfl
@[simp] theorem State.setSup_servicePort (s : State) (x : Supervision) : (s.setSup x).servicePort = s.servicePort := rfl

@[simp] theorem State.setReport_pending (s : State) (x : ReportUnit) : (s.setReport x).pending = s.pending := rfl
@[simp] theorem State.setReport_now (s : State) (x : ReportUnit) : (s.setReport x).now = s.now := rfl
@[simp] theorem State.setReport_supplies (s : State) (x : ReportUnit) : (s.setReport x).supplies = s.supplies := rfl
@[simp] theorem State.setReport_coin (s : State) (x : ReportUnit) : (s.setReport x).coin = s.coin := rfl
@[simp] theorem State.setReport_credit (s : State) (x : ReportUnit) : (s.setReport x).credit = s.credit := rfl
@[simp] theorem State.setReport_comp (s : State) (x : ReportUnit) : (s.setReport x).comp = s.comp := rfl
@[simp] theorem State.setReport_tariff (s : State) (x : ReportUnit) : (s.setReport x).tariff = s.tariff := rfl
@[simp] theorem State.setReport_clock (s : State) (x : ReportUnit) : (s.setReport x).clock = s.clock := rfl
@[simp] theorem State.setReport_rating (s : State) (x : ReportUnit) : (s.setReport x).rating = s.rating := rfl
@[simp] theorem State.setReport_line (s : State) (x : ReportUnit) : (s.setReport x).line = s.line := rfl
@[simp] theorem State.setReport_session (s : State) (x : ReportUnit) : (s.setReport x).session = s.session := rfl
@[simp] theorem State.setReport_sup (s : State) (x : ReportUnit) : (s.setReport x).sup = s.sup := rfl
@[simp] theorem State.setReport_report (s : State) (x : ReportUnit) : (s.setReport x).report = x := rfl
@[simp] theorem State.setReport_settings (s : State) (x : ReportUnit) : (s.setReport x).settings = s.settings := rfl
@[simp] theorem State.setReport_attention (s : State) (x : ReportUnit) : (s.setReport x).attention = s.attention := rfl
@[simp] theorem State.setReport_hostPort (s : State) (x : ReportUnit) : (s.setReport x).hostPort = s.hostPort := rfl
@[simp] theorem State.setReport_servicePort (s : State) (x : ReportUnit) : (s.setReport x).servicePort = s.servicePort := rfl

@[simp] theorem State.setSettings_pending (s : State) (x : Settings) : (s.setSettings x).pending = s.pending := rfl
@[simp] theorem State.setSettings_now (s : State) (x : Settings) : (s.setSettings x).now = s.now := rfl
@[simp] theorem State.setSettings_supplies (s : State) (x : Settings) : (s.setSettings x).supplies = s.supplies := rfl
@[simp] theorem State.setSettings_coin (s : State) (x : Settings) : (s.setSettings x).coin = s.coin := rfl
@[simp] theorem State.setSettings_credit (s : State) (x : Settings) : (s.setSettings x).credit = s.credit := rfl
@[simp] theorem State.setSettings_comp (s : State) (x : Settings) : (s.setSettings x).comp = s.comp := rfl
@[simp] theorem State.setSettings_tariff (s : State) (x : Settings) : (s.setSettings x).tariff = s.tariff := rfl
@[simp] theorem State.setSettings_clock (s : State) (x : Settings) : (s.setSettings x).clock = s.clock := rfl
@[simp] theorem State.setSettings_rating (s : State) (x : Settings) : (s.setSettings x).rating = s.rating := rfl
@[simp] theorem State.setSettings_line (s : State) (x : Settings) : (s.setSettings x).line = s.line := rfl
@[simp] theorem State.setSettings_session (s : State) (x : Settings) : (s.setSettings x).session = s.session := rfl
@[simp] theorem State.setSettings_sup (s : State) (x : Settings) : (s.setSettings x).sup = s.sup := rfl
@[simp] theorem State.setSettings_report (s : State) (x : Settings) : (s.setSettings x).report = s.report := rfl
@[simp] theorem State.setSettings_settings (s : State) (x : Settings) : (s.setSettings x).settings = x := rfl
@[simp] theorem State.setSettings_attention (s : State) (x : Settings) : (s.setSettings x).attention = s.attention := rfl
@[simp] theorem State.setSettings_hostPort (s : State) (x : Settings) : (s.setSettings x).hostPort = s.hostPort := rfl
@[simp] theorem State.setSettings_servicePort (s : State) (x : Settings) : (s.setSettings x).servicePort = s.servicePort := rfl

@[simp] theorem State.setAttention_pending (s : State) (x : Attention) : (s.setAttention x).pending = s.pending := rfl
@[simp] theorem State.setAttention_now (s : State) (x : Attention) : (s.setAttention x).now = s.now := rfl
@[simp] theorem State.setAttention_supplies (s : State) (x : Attention) : (s.setAttention x).supplies = s.supplies := rfl
@[simp] theorem State.setAttention_coin (s : State) (x : Attention) : (s.setAttention x).coin = s.coin := rfl
@[simp] theorem State.setAttention_credit (s : State) (x : Attention) : (s.setAttention x).credit = s.credit := rfl
@[simp] theorem State.setAttention_comp (s : State) (x : Attention) : (s.setAttention x).comp = s.comp := rfl
@[simp] theorem State.setAttention_tariff (s : State) (x : Attention) : (s.setAttention x).tariff = s.tariff := rfl
@[simp] theorem State.setAttention_clock (s : State) (x : Attention) : (s.setAttention x).clock = s.clock := rfl
@[simp] theorem State.setAttention_rating (s : State) (x : Attention) : (s.setAttention x).rating = s.rating := rfl
@[simp] theorem State.setAttention_line (s : State) (x : Attention) : (s.setAttention x).line = s.line := rfl
@[simp] theorem State.setAttention_session (s : State) (x : Attention) : (s.setAttention x).session = s.session := rfl
@[simp] theorem State.setAttention_sup (s : State) (x : Attention) : (s.setAttention x).sup = s.sup := rfl
@[simp] theorem State.setAttention_report (s : State) (x : Attention) : (s.setAttention x).report = s.report := rfl
@[simp] theorem State.setAttention_settings (s : State) (x : Attention) : (s.setAttention x).settings = s.settings := rfl
@[simp] theorem State.setAttention_attention (s : State) (x : Attention) : (s.setAttention x).attention = x := rfl
@[simp] theorem State.setAttention_hostPort (s : State) (x : Attention) : (s.setAttention x).hostPort = s.hostPort := rfl
@[simp] theorem State.setAttention_servicePort (s : State) (x : Attention) : (s.setAttention x).servicePort = s.servicePort := rfl

@[simp] theorem State.setHostPort_pending (s : State) (x : PortUnit) : (s.setHostPort x).pending = s.pending := rfl
@[simp] theorem State.setHostPort_now (s : State) (x : PortUnit) : (s.setHostPort x).now = s.now := rfl
@[simp] theorem State.setHostPort_supplies (s : State) (x : PortUnit) : (s.setHostPort x).supplies = s.supplies := rfl
@[simp] theorem State.setHostPort_coin (s : State) (x : PortUnit) : (s.setHostPort x).coin = s.coin := rfl
@[simp] theorem State.setHostPort_credit (s : State) (x : PortUnit) : (s.setHostPort x).credit = s.credit := rfl
@[simp] theorem State.setHostPort_comp (s : State) (x : PortUnit) : (s.setHostPort x).comp = s.comp := rfl
@[simp] theorem State.setHostPort_tariff (s : State) (x : PortUnit) : (s.setHostPort x).tariff = s.tariff := rfl
@[simp] theorem State.setHostPort_clock (s : State) (x : PortUnit) : (s.setHostPort x).clock = s.clock := rfl
@[simp] theorem State.setHostPort_rating (s : State) (x : PortUnit) : (s.setHostPort x).rating = s.rating := rfl
@[simp] theorem State.setHostPort_line (s : State) (x : PortUnit) : (s.setHostPort x).line = s.line := rfl
@[simp] theorem State.setHostPort_session (s : State) (x : PortUnit) : (s.setHostPort x).session = s.session := rfl
@[simp] theorem State.setHostPort_sup (s : State) (x : PortUnit) : (s.setHostPort x).sup = s.sup := rfl
@[simp] theorem State.setHostPort_report (s : State) (x : PortUnit) : (s.setHostPort x).report = s.report := rfl
@[simp] theorem State.setHostPort_settings (s : State) (x : PortUnit) : (s.setHostPort x).settings = s.settings := rfl
@[simp] theorem State.setHostPort_attention (s : State) (x : PortUnit) : (s.setHostPort x).attention = s.attention := rfl
@[simp] theorem State.setHostPort_hostPort (s : State) (x : PortUnit) : (s.setHostPort x).hostPort = x := rfl
@[simp] theorem State.setHostPort_servicePort (s : State) (x : PortUnit) : (s.setHostPort x).servicePort = s.servicePort := rfl

@[simp] theorem State.setServicePort_pending (s : State) (x : PortUnit) : (s.setServicePort x).pending = s.pending := rfl
@[simp] theorem State.setServicePort_now (s : State) (x : PortUnit) : (s.setServicePort x).now = s.now := rfl
@[simp] theorem State.setServicePort_supplies (s : State) (x : PortUnit) : (s.setServicePort x).supplies = s.supplies := rfl
@[simp] theorem State.setServicePort_coin (s : State) (x : PortUnit) : (s.setServicePort x).coin = s.coin := rfl
@[simp] theorem State.setServicePort_credit (s : State) (x : PortUnit) : (s.setServicePort x).credit = s.credit := rfl
@[simp] theorem State.setServicePort_comp (s : State) (x : PortUnit) : (s.setServicePort x).comp = s.comp := rfl
@[simp] theorem State.setServicePort_tariff (s : State) (x : PortUnit) : (s.setServicePort x).tariff = s.tariff := rfl
@[simp] theorem State.setServicePort_clock (s : State) (x : PortUnit) : (s.setServicePort x).clock = s.clock := rfl
@[simp] theorem State.setServicePort_rating (s : State) (x : PortUnit) : (s.setServicePort x).rating = s.rating := rfl
@[simp] theorem State.setServicePort_line (s : State) (x : PortUnit) : (s.setServicePort x).line = s.line := rfl
@[simp] theorem State.setServicePort_session (s : State) (x : PortUnit) : (s.setServicePort x).session = s.session := rfl
@[simp] theorem State.setServicePort_sup (s : State) (x : PortUnit) : (s.setServicePort x).sup = s.sup := rfl
@[simp] theorem State.setServicePort_report (s : State) (x : PortUnit) : (s.setServicePort x).report = s.report := rfl
@[simp] theorem State.setServicePort_settings (s : State) (x : PortUnit) : (s.setServicePort x).settings = s.settings := rfl
@[simp] theorem State.setServicePort_attention (s : State) (x : PortUnit) : (s.setServicePort x).attention = s.attention := rfl
@[simp] theorem State.setServicePort_hostPort (s : State) (x : PortUnit) : (s.setServicePort x).hostPort = s.hostPort := rfl
@[simp] theorem State.setServicePort_servicePort (s : State) (x : PortUnit) : (s.setServicePort x).servicePort = x := rfl

end Sys2Proof.Machine
end

