-- ==== Sys2Proof/Laws/Frames.lean ====
section
/-! SUPPORT. Frames: for each operation on the state, the blocks it leaves as they were. -/

namespace Sys2Proof.Machine

/-- A fold of a step that keeps a view of the state keeps it. -/
theorem foldl_keeps {β γ : Type} (view : State → γ) (f : State → β → State) (h : ∀ s b, view (f s b) = view s) (l : List β)
    (s : State) : view (l.foldl f s) = view s := by
  induction l generalizing s with
  | nil => rfl
  | cons b rest ih => simp [ih, h]

@[simp] theorem State.raise_frame (f : AttentionFlag) (s : State) :
    (State.raise f s).pending = s.pending ∧
    (State.raise f s).now = s.now ∧
    (State.raise f s).supplies = s.supplies ∧
    (State.raise f s).coin = s.coin ∧
    (State.raise f s).credit = s.credit ∧
    (State.raise f s).comp = s.comp ∧
    (State.raise f s).tariff = s.tariff ∧
    (State.raise f s).clock = s.clock ∧
    (State.raise f s).rating = s.rating ∧
    (State.raise f s).line = s.line ∧
    (State.raise f s).session = s.session ∧
    (State.raise f s).sup = s.sup ∧
    (State.raise f s).report = s.report ∧
    (State.raise f s).settings = s.settings ∧
    (State.raise f s).hostPort = s.hostPort ∧
    (State.raise f s).servicePort = s.servicePort := by
  dsimp only [State.raise]
  (repeat' split) <;> simp

@[simp] theorem State.reach_frame (t : Nat) (s : State) :
    (State.reach t s).pending = s.pending ∧
    (State.reach t s).supplies = s.supplies ∧
    (State.reach t s).coin = s.coin ∧
    (State.reach t s).credit = s.credit ∧
    (State.reach t s).comp = s.comp ∧
    (State.reach t s).tariff = s.tariff ∧
    (State.reach t s).clock = s.clock ∧
    (State.reach t s).rating = s.rating ∧
    (State.reach t s).line = s.line ∧
    (State.reach t s).session = s.session ∧
    (State.reach t s).sup = s.sup ∧
    (State.reach t s).report = s.report ∧
    (State.reach t s).settings = s.settings ∧
    (State.reach t s).attention = s.attention ∧
    (State.reach t s).hostPort = s.hostPort ∧
    (State.reach t s).servicePort = s.servicePort := by
  dsimp only [State.reach]
  (repeat' split) <;> simp

@[simp] theorem State.askRelease_frame (owner : LineOwner) (s : State) :
    (State.askRelease owner s).pending = s.pending ∧
    (State.askRelease owner s).now = s.now ∧
    (State.askRelease owner s).supplies = s.supplies ∧
    (State.askRelease owner s).coin = s.coin ∧
    (State.askRelease owner s).credit = s.credit ∧
    (State.askRelease owner s).comp = s.comp ∧
    (State.askRelease owner s).tariff = s.tariff ∧
    (State.askRelease owner s).clock = s.clock ∧
    (State.askRelease owner s).rating = s.rating ∧
    (State.askRelease owner s).session = s.session ∧
    (State.askRelease owner s).sup = s.sup ∧
    (State.askRelease owner s).report = s.report ∧
    (State.askRelease owner s).settings = s.settings ∧
    (State.askRelease owner s).attention = s.attention ∧
    (State.askRelease owner s).hostPort = s.hostPort ∧
    (State.askRelease owner s).servicePort = s.servicePort := by
  dsimp only [State.askRelease]
  (repeat' split) <;> simp

@[simp] theorem State.withdrawRequest_frame (owner : LineOwner) (s : State) :
    (State.withdrawRequest owner s).pending = s.pending ∧
    (State.withdrawRequest owner s).now = s.now ∧
    (State.withdrawRequest owner s).supplies = s.supplies ∧
    (State.withdrawRequest owner s).coin = s.coin ∧
    (State.withdrawRequest owner s).credit = s.credit ∧
    (State.withdrawRequest owner s).comp = s.comp ∧
    (State.withdrawRequest owner s).tariff = s.tariff ∧
    (State.withdrawRequest owner s).clock = s.clock ∧
    (State.withdrawRequest owner s).rating = s.rating ∧
    (State.withdrawRequest owner s).session = s.session ∧
    (State.withdrawRequest owner s).sup = s.sup ∧
    (State.withdrawRequest owner s).report = s.report ∧
    (State.withdrawRequest owner s).settings = s.settings ∧
    (State.withdrawRequest owner s).attention = s.attention ∧
    (State.withdrawRequest owner s).hostPort = s.hostPort ∧
    (State.withdrawRequest owner s).servicePort = s.servicePort := by
  dsimp only [State.withdrawRequest]
  (repeat' split) <;> simp

@[simp] theorem State.recordEvent_frame (event : CallEvent) (slot : Option Nat) (category : Option Category) (threshold callNumber : Option Nat) (s : State) :
    (State.recordEvent event slot category threshold callNumber s).pending = s.pending ∧
    (State.recordEvent event slot category threshold callNumber s).now = s.now ∧
    (State.recordEvent event slot category threshold callNumber s).supplies = s.supplies ∧
    (State.recordEvent event slot category threshold callNumber s).coin = s.coin ∧
    (State.recordEvent event slot category threshold callNumber s).credit = s.credit ∧
    (State.recordEvent event slot category threshold callNumber s).comp = s.comp ∧
    (State.recordEvent event slot category threshold callNumber s).tariff = s.tariff ∧
    (State.recordEvent event slot category threshold callNumber s).clock = s.clock ∧
    (State.recordEvent event slot category threshold callNumber s).rating = s.rating ∧
    (State.recordEvent event slot category threshold callNumber s).line = s.line ∧
    (State.recordEvent event slot category threshold callNumber s).sup = s.sup ∧
    (State.recordEvent event slot category threshold callNumber s).report = s.report ∧
    (State.recordEvent event slot category threshold callNumber s).settings = s.settings ∧
    (State.recordEvent event slot category threshold callNumber s).hostPort = s.hostPort ∧
    (State.recordEvent event slot category threshold callNumber s).servicePort = s.servicePort := by
  dsimp only [State.recordEvent]
  (repeat' split) <;> simp

@[simp] theorem State.endCall_frame (cause : EndCause) (s : State) :
    (State.endCall cause s).pending = s.pending ∧
    (State.endCall cause s).now = s.now ∧
    (State.endCall cause s).supplies = s.supplies ∧
    (State.endCall cause s).coin = s.coin ∧
    (State.endCall cause s).credit = s.credit ∧
    (State.endCall cause s).comp = s.comp ∧
    (State.endCall cause s).clock = s.clock ∧
    (State.endCall cause s).sup = s.sup ∧
    (State.endCall cause s).report = s.report ∧
    (State.endCall cause s).settings = s.settings ∧
    (State.endCall cause s).hostPort = s.hostPort ∧
    (State.endCall cause s).servicePort = s.servicePort := by
  dsimp only [State.endCall]
  (repeat' split) <;> simp

@[simp] theorem State.enterEnded_frame (tone : EndTone) (s : State) :
    (State.enterEnded tone s).pending = s.pending ∧
    (State.enterEnded tone s).now = s.now ∧
    (State.enterEnded tone s).supplies = s.supplies ∧
    (State.enterEnded tone s).coin = s.coin ∧
    (State.enterEnded tone s).credit = s.credit ∧
    (State.enterEnded tone s).comp = s.comp ∧
    (State.enterEnded tone s).tariff = s.tariff ∧
    (State.enterEnded tone s).clock = s.clock ∧
    (State.enterEnded tone s).rating = s.rating ∧
    (State.enterEnded tone s).line = s.line ∧
    (State.enterEnded tone s).sup = s.sup ∧
    (State.enterEnded tone s).report = s.report ∧
    (State.enterEnded tone s).settings = s.settings ∧
    (State.enterEnded tone s).attention = s.attention ∧
    (State.enterEnded tone s).hostPort = s.hostPort ∧
    (State.enterEnded tone s).servicePort = s.servicePort := by
  dsimp only [State.enterEnded]
  (repeat' split) <;> simp

@[simp] theorem State.endCallToEnded_frame (cause : EndCause) (s : State) :
    (State.endCallToEnded cause s).pending = s.pending ∧
    (State.endCallToEnded cause s).now = s.now ∧
    (State.endCallToEnded cause s).supplies = s.supplies ∧
    (State.endCallToEnded cause s).coin = s.coin ∧
    (State.endCallToEnded cause s).credit = s.credit ∧
    (State.endCallToEnded cause s).comp = s.comp ∧
    (State.endCallToEnded cause s).clock = s.clock ∧
    (State.endCallToEnded cause s).sup = s.sup ∧
    (State.endCallToEnded cause s).report = s.report ∧
    (State.endCallToEnded cause s).settings = s.settings ∧
    (State.endCallToEnded cause s).hostPort = s.hostPort ∧
    (State.endCallToEnded cause s).servicePort = s.servicePort := by
  dsimp only [State.endCallToEnded]
  (repeat' split) <;> simp

@[simp] theorem State.judgeLevel_frame (level : ServiceLevel) (s : State) :
    (State.judgeLevel level s).pending = s.pending ∧
    (State.judgeLevel level s).now = s.now ∧
    (State.judgeLevel level s).supplies = s.supplies ∧
    (State.judgeLevel level s).coin = s.coin ∧
    (State.judgeLevel level s).credit = s.credit ∧
    (State.judgeLevel level s).comp = s.comp ∧
    (State.judgeLevel level s).clock = s.clock ∧
    (State.judgeLevel level s).sup = s.sup ∧
    (State.judgeLevel level s).report = s.report ∧
    (State.judgeLevel level s).settings = s.settings ∧
    (State.judgeLevel level s).hostPort = s.hostPort ∧
    (State.judgeLevel level s).servicePort = s.servicePort := by
  dsimp only [State.judgeLevel]
  (repeat' split) <;> simp

@[simp] theorem State.deriveLevel_frame (s : State) :
    (State.deriveLevel s).pending = s.pending ∧
    (State.deriveLevel s).now = s.now ∧
    (State.deriveLevel s).supplies = s.supplies ∧
    (State.deriveLevel s).coin = s.coin ∧
    (State.deriveLevel s).credit = s.credit ∧
    (State.deriveLevel s).comp = s.comp ∧
    (State.deriveLevel s).clock = s.clock ∧
    (State.deriveLevel s).report = s.report ∧
    (State.deriveLevel s).settings = s.settings ∧
    (State.deriveLevel s).hostPort = s.hostPort ∧
    (State.deriveLevel s).servicePort = s.servicePort := by
  dsimp only [State.deriveLevel]
  (repeat' split) <;> simp

@[simp] theorem State.schedule_frame (delay : Nat) (s : State) :
    (State.schedule delay s).pending = s.pending ∧
    (State.schedule delay s).now = s.now ∧
    (State.schedule delay s).supplies = s.supplies ∧
    (State.schedule delay s).coin = s.coin ∧
    (State.schedule delay s).credit = s.credit ∧
    (State.schedule delay s).comp = s.comp ∧
    (State.schedule delay s).tariff = s.tariff ∧
    (State.schedule delay s).clock = s.clock ∧
    (State.schedule delay s).rating = s.rating ∧
    (State.schedule delay s).line = s.line ∧
    (State.schedule delay s).session = s.session ∧
    (State.schedule delay s).sup = s.sup ∧
    (State.schedule delay s).settings = s.settings ∧
    (State.schedule delay s).attention = s.attention ∧
    (State.schedule delay s).hostPort = s.hostPort ∧
    (State.schedule delay s).servicePort = s.servicePort := by
  dsimp only [State.schedule]
  (repeat' split) <;> simp

@[simp] theorem State.scheduleNow_frame (s : State) :
    (State.scheduleNow s).pending = s.pending ∧
    (State.scheduleNow s).now = s.now ∧
    (State.scheduleNow s).supplies = s.supplies ∧
    (State.scheduleNow s).coin = s.coin ∧
    (State.scheduleNow s).credit = s.credit ∧
    (State.scheduleNow s).comp = s.comp ∧
    (State.scheduleNow s).tariff = s.tariff ∧
    (State.scheduleNow s).clock = s.clock ∧
    (State.scheduleNow s).rating = s.rating ∧
    (State.scheduleNow s).line = s.line ∧
    (State.scheduleNow s).session = s.session ∧
    (State.scheduleNow s).sup = s.sup ∧
    (State.scheduleNow s).settings = s.settings ∧
    (State.scheduleNow s).attention = s.attention ∧
    (State.scheduleNow s).hostPort = s.hostPort ∧
    (State.scheduleNow s).servicePort = s.servicePort := by
  dsimp only [State.scheduleNow]
  (repeat' split) <;> simp

@[simp] theorem State.reportTrigger_frame (severity : Severity) (s : State) :
    (State.reportTrigger severity s).pending = s.pending ∧
    (State.reportTrigger severity s).now = s.now ∧
    (State.reportTrigger severity s).supplies = s.supplies ∧
    (State.reportTrigger severity s).coin = s.coin ∧
    (State.reportTrigger severity s).credit = s.credit ∧
    (State.reportTrigger severity s).comp = s.comp ∧
    (State.reportTrigger severity s).tariff = s.tariff ∧
    (State.reportTrigger severity s).clock = s.clock ∧
    (State.reportTrigger severity s).rating = s.rating ∧
    (State.reportTrigger severity s).line = s.line ∧
    (State.reportTrigger severity s).session = s.session ∧
    (State.reportTrigger severity s).sup = s.sup ∧
    (State.reportTrigger severity s).settings = s.settings ∧
    (State.reportTrigger severity s).attention = s.attention ∧
    (State.reportTrigger severity s).hostPort = s.hostPort ∧
    (State.reportTrigger severity s).servicePort = s.servicePort := by
  dsimp only [State.reportTrigger]
  (repeat' split) <;> simp

@[simp] theorem State.putRecord_frame (src : Source) (r : Option ConditionRecord) (s : State) :
    (State.putRecord src r s).pending = s.pending ∧
    (State.putRecord src r s).now = s.now ∧
    (State.putRecord src r s).supplies = s.supplies ∧
    (State.putRecord src r s).coin = s.coin ∧
    (State.putRecord src r s).credit = s.credit ∧
    (State.putRecord src r s).comp = s.comp ∧
    (State.putRecord src r s).tariff = s.tariff ∧
    (State.putRecord src r s).clock = s.clock ∧
    (State.putRecord src r s).rating = s.rating ∧
    (State.putRecord src r s).line = s.line ∧
    (State.putRecord src r s).session = s.session ∧
    (State.putRecord src r s).report = s.report ∧
    (State.putRecord src r s).settings = s.settings ∧
    (State.putRecord src r s).attention = s.attention ∧
    (State.putRecord src r s).hostPort = s.hostPort ∧
    (State.putRecord src r s).servicePort = s.servicePort := by
  dsimp only [State.putRecord]
  (repeat' split) <;> simp

@[simp] theorem State.recount_frame (src : Source) (s : State) :
    (State.recount src s).pending = s.pending ∧
    (State.recount src s).now = s.now ∧
    (State.recount src s).supplies = s.supplies ∧
    (State.recount src s).coin = s.coin ∧
    (State.recount src s).credit = s.credit ∧
    (State.recount src s).comp = s.comp ∧
    (State.recount src s).tariff = s.tariff ∧
    (State.recount src s).clock = s.clock ∧
    (State.recount src s).rating = s.rating ∧
    (State.recount src s).line = s.line ∧
    (State.recount src s).session = s.session ∧
    (State.recount src s).report = s.report ∧
    (State.recount src s).settings = s.settings ∧
    (State.recount src s).attention = s.attention ∧
    (State.recount src s).hostPort = s.hostPort ∧
    (State.recount src s).servicePort = s.servicePort := by
  dsimp only [State.recount]
  (repeat' split) <;> simp

@[simp] theorem State.retire_frame (src : Source) (s : State) :
    (State.retire src s).pending = s.pending ∧
    (State.retire src s).now = s.now ∧
    (State.retire src s).supplies = s.supplies ∧
    (State.retire src s).coin = s.coin ∧
    (State.retire src s).credit = s.credit ∧
    (State.retire src s).comp = s.comp ∧
    (State.retire src s).clock = s.clock ∧
    (State.retire src s).report = s.report ∧
    (State.retire src s).settings = s.settings ∧
    (State.retire src s).hostPort = s.hostPort ∧
    (State.retire src s).servicePort = s.servicePort := by
  dsimp only [State.retire]
  (repeat' split) <;> simp

@[simp] theorem State.retireIfDue_frame (src : Source) (s : State) :
    (State.retireIfDue src s).pending = s.pending ∧
    (State.retireIfDue src s).now = s.now ∧
    (State.retireIfDue src s).supplies = s.supplies ∧
    (State.retireIfDue src s).coin = s.coin ∧
    (State.retireIfDue src s).credit = s.credit ∧
    (State.retireIfDue src s).comp = s.comp ∧
    (State.retireIfDue src s).clock = s.clock ∧
    (State.retireIfDue src s).report = s.report ∧
    (State.retireIfDue src s).settings = s.settings ∧
    (State.retireIfDue src s).hostPort = s.hostPort ∧
    (State.retireIfDue src s).servicePort = s.servicePort := by
  dsimp only [State.retireIfDue]
  (repeat' split) <;> simp

@[simp] theorem State.clearRecord_frame (src : Source) (s : State) :
    (State.clearRecord src s).pending = s.pending ∧
    (State.clearRecord src s).now = s.now ∧
    (State.clearRecord src s).supplies = s.supplies ∧
    (State.clearRecord src s).coin = s.coin ∧
    (State.clearRecord src s).credit = s.credit ∧
    (State.clearRecord src s).comp = s.comp ∧
    (State.clearRecord src s).clock = s.clock ∧
    (State.clearRecord src s).report = s.report ∧
    (State.clearRecord src s).settings = s.settings ∧
    (State.clearRecord src s).hostPort = s.hostPort ∧
    (State.clearRecord src s).servicePort = s.servicePort := by
  dsimp only [State.clearRecord]
  (repeat' split) <;> simp

@[simp] theorem State.clearIfNormal_frame (src : Source) (s : State) :
    (State.clearIfNormal src s).pending = s.pending ∧
    (State.clearIfNormal src s).now = s.now ∧
    (State.clearIfNormal src s).supplies = s.supplies ∧
    (State.clearIfNormal src s).coin = s.coin ∧
    (State.clearIfNormal src s).credit = s.credit ∧
    (State.clearIfNormal src s).comp = s.comp ∧
    (State.clearIfNormal src s).clock = s.clock ∧
    (State.clearIfNormal src s).report = s.report ∧
    (State.clearIfNormal src s).settings = s.settings ∧
    (State.clearIfNormal src s).hostPort = s.hostPort ∧
    (State.clearIfNormal src s).servicePort = s.servicePort := by
  dsimp only [State.clearIfNormal]
  (repeat' split) <;> simp

@[simp] theorem State.recordOccurrence_frame (src : Source) (type : ConditionType) (severity : Severity) (s : State) :
    (State.recordOccurrence src type severity s).pending = s.pending ∧
    (State.recordOccurrence src type severity s).now = s.now ∧
    (State.recordOccurrence src type severity s).supplies = s.supplies ∧
    (State.recordOccurrence src type severity s).coin = s.coin ∧
    (State.recordOccurrence src type severity s).credit = s.credit ∧
    (State.recordOccurrence src type severity s).comp = s.comp ∧
    (State.recordOccurrence src type severity s).tariff = s.tariff ∧
    (State.recordOccurrence src type severity s).clock = s.clock ∧
    (State.recordOccurrence src type severity s).rating = s.rating ∧
    (State.recordOccurrence src type severity s).line = s.line ∧
    (State.recordOccurrence src type severity s).session = s.session ∧
    (State.recordOccurrence src type severity s).report = s.report ∧
    (State.recordOccurrence src type severity s).settings = s.settings ∧
    (State.recordOccurrence src type severity s).hostPort = s.hostPort ∧
    (State.recordOccurrence src type severity s).servicePort = s.servicePort := by
  dsimp only [State.recordOccurrence]
  (repeat' split) <;> simp

@[simp] theorem State.occurrence_frame (src : Source) (type : ConditionType) (severity : Severity) (s : State) :
    (State.occurrence src type severity s).pending = s.pending ∧
    (State.occurrence src type severity s).now = s.now ∧
    (State.occurrence src type severity s).supplies = s.supplies ∧
    (State.occurrence src type severity s).coin = s.coin ∧
    (State.occurrence src type severity s).credit = s.credit ∧
    (State.occurrence src type severity s).comp = s.comp ∧
    (State.occurrence src type severity s).clock = s.clock ∧
    (State.occurrence src type severity s).settings = s.settings ∧
    (State.occurrence src type severity s).hostPort = s.hostPort ∧
    (State.occurrence src type severity s).servicePort = s.servicePort := by
  dsimp only [State.occurrence]
  (repeat' split) <;> simp

@[simp] theorem State.setNormality_frame (src : Source) (abnormal : Bool) (s : State) :
    (State.setNormality src abnormal s).pending = s.pending ∧
    (State.setNormality src abnormal s).now = s.now ∧
    (State.setNormality src abnormal s).supplies = s.supplies ∧
    (State.setNormality src abnormal s).coin = s.coin ∧
    (State.setNormality src abnormal s).credit = s.credit ∧
    (State.setNormality src abnormal s).comp = s.comp ∧
    (State.setNormality src abnormal s).tariff = s.tariff ∧
    (State.setNormality src abnormal s).clock = s.clock ∧
    (State.setNormality src abnormal s).rating = s.rating ∧
    (State.setNormality src abnormal s).line = s.line ∧
    (State.setNormality src abnormal s).session = s.session ∧
    (State.setNormality src abnormal s).report = s.report ∧
    (State.setNormality src abnormal s).settings = s.settings ∧
    (State.setNormality src abnormal s).attention = s.attention ∧
    (State.setNormality src abnormal s).hostPort = s.hostPort ∧
    (State.setNormality src abnormal s).servicePort = s.servicePort := by
  dsimp only [State.setNormality]
  (repeat' split) <;> simp

@[simp] theorem State.makeAbnormal_frame (src : Source) (s : State) :
    (State.makeAbnormal src s).pending = s.pending ∧
    (State.makeAbnormal src s).now = s.now ∧
    (State.makeAbnormal src s).supplies = s.supplies ∧
    (State.makeAbnormal src s).coin = s.coin ∧
    (State.makeAbnormal src s).credit = s.credit ∧
    (State.makeAbnormal src s).comp = s.comp ∧
    (State.makeAbnormal src s).tariff = s.tariff ∧
    (State.makeAbnormal src s).clock = s.clock ∧
    (State.makeAbnormal src s).rating = s.rating ∧
    (State.makeAbnormal src s).line = s.line ∧
    (State.makeAbnormal src s).session = s.session ∧
    (State.makeAbnormal src s).report = s.report ∧
    (State.makeAbnormal src s).settings = s.settings ∧
    (State.makeAbnormal src s).attention = s.attention ∧
    (State.makeAbnormal src s).hostPort = s.hostPort ∧
    (State.makeAbnormal src s).servicePort = s.servicePort := by
  dsimp only [State.makeAbnormal]
  (repeat' split) <;> simp

@[simp] theorem State.makeNormal_frame (src : Source) (s : State) :
    (State.makeNormal src s).pending = s.pending ∧
    (State.makeNormal src s).now = s.now ∧
    (State.makeNormal src s).supplies = s.supplies ∧
    (State.makeNormal src s).coin = s.coin ∧
    (State.makeNormal src s).credit = s.credit ∧
    (State.makeNormal src s).comp = s.comp ∧
    (State.makeNormal src s).clock = s.clock ∧
    (State.makeNormal src s).report = s.report ∧
    (State.makeNormal src s).settings = s.settings ∧
    (State.makeNormal src s).hostPort = s.hostPort ∧
    (State.makeNormal src s).servicePort = s.servicePort := by
  dsimp only [State.makeNormal]
  (repeat' split) <;> simp

@[simp] theorem State.becomeAbnormal_frame (src : Source) (type : ConditionType) (severity : Severity) (s : State) :
    (State.becomeAbnormal src type severity s).pending = s.pending ∧
    (State.becomeAbnormal src type severity s).now = s.now ∧
    (State.becomeAbnormal src type severity s).supplies = s.supplies ∧
    (State.becomeAbnormal src type severity s).coin = s.coin ∧
    (State.becomeAbnormal src type severity s).credit = s.credit ∧
    (State.becomeAbnormal src type severity s).comp = s.comp ∧
    (State.becomeAbnormal src type severity s).clock = s.clock ∧
    (State.becomeAbnormal src type severity s).settings = s.settings ∧
    (State.becomeAbnormal src type severity s).hostPort = s.hostPort ∧
    (State.becomeAbnormal src type severity s).servicePort = s.servicePort := by
  dsimp only [State.becomeAbnormal]
  (repeat' split) <;> simp

@[simp] theorem State.setCurrent_frame (t : Tally) (s : State) :
    (State.setCurrent t s).pending = s.pending ∧
    (State.setCurrent t s).now = s.now ∧
    (State.setCurrent t s).supplies = s.supplies ∧
    (State.setCurrent t s).coin = s.coin ∧
    (State.setCurrent t s).credit = s.credit ∧
    (State.setCurrent t s).tariff = s.tariff ∧
    (State.setCurrent t s).clock = s.clock ∧
    (State.setCurrent t s).rating = s.rating ∧
    (State.setCurrent t s).line = s.line ∧
    (State.setCurrent t s).session = s.session ∧
    (State.setCurrent t s).sup = s.sup ∧
    (State.setCurrent t s).report = s.report ∧
    (State.setCurrent t s).settings = s.settings ∧
    (State.setCurrent t s).attention = s.attention ∧
    (State.setCurrent t s).hostPort = s.hostPort ∧
    (State.setCurrent t s).servicePort = s.servicePort := by
  dsimp only [State.setCurrent]
  (repeat' split) <;> simp

@[simp] theorem State.addForfeit_frame (amount : Nat) (s : State) :
    (State.addForfeit amount s).pending = s.pending ∧
    (State.addForfeit amount s).now = s.now ∧
    (State.addForfeit amount s).supplies = s.supplies ∧
    (State.addForfeit amount s).coin = s.coin ∧
    (State.addForfeit amount s).credit = s.credit ∧
    (State.addForfeit amount s).tariff = s.tariff ∧
    (State.addForfeit amount s).clock = s.clock ∧
    (State.addForfeit amount s).rating = s.rating ∧
    (State.addForfeit amount s).line = s.line ∧
    (State.addForfeit amount s).session = s.session ∧
    (State.addForfeit amount s).sup = s.sup ∧
    (State.addForfeit amount s).report = s.report ∧
    (State.addForfeit amount s).settings = s.settings ∧
    (State.addForfeit amount s).attention = s.attention ∧
    (State.addForfeit amount s).hostPort = s.hostPort ∧
    (State.addForfeit amount s).servicePort = s.servicePort := by
  dsimp only [State.addForfeit]
  (repeat' split) <;> simp

@[simp] theorem State.addUnrecovered_frame (amount : Nat) (s : State) :
    (State.addUnrecovered amount s).pending = s.pending ∧
    (State.addUnrecovered amount s).now = s.now ∧
    (State.addUnrecovered amount s).supplies = s.supplies ∧
    (State.addUnrecovered amount s).coin = s.coin ∧
    (State.addUnrecovered amount s).credit = s.credit ∧
    (State.addUnrecovered amount s).tariff = s.tariff ∧
    (State.addUnrecovered amount s).clock = s.clock ∧
    (State.addUnrecovered amount s).rating = s.rating ∧
    (State.addUnrecovered amount s).line = s.line ∧
    (State.addUnrecovered amount s).session = s.session ∧
    (State.addUnrecovered amount s).sup = s.sup ∧
    (State.addUnrecovered amount s).report = s.report ∧
    (State.addUnrecovered amount s).settings = s.settings ∧
    (State.addUnrecovered amount s).attention = s.attention ∧
    (State.addUnrecovered amount s).hostPort = s.hostPort ∧
    (State.addUnrecovered amount s).servicePort = s.servicePort := by
  dsimp only [State.addUnrecovered]
  (repeat' split) <;> simp

@[simp] theorem State.judgeThreshold_frame (src : Source) (type : ConditionType) (severity : Severity) (reached : Bool) (s : State) :
    (State.judgeThreshold src type severity reached s).pending = s.pending ∧
    (State.judgeThreshold src type severity reached s).now = s.now ∧
    (State.judgeThreshold src type severity reached s).supplies = s.supplies ∧
    (State.judgeThreshold src type severity reached s).coin = s.coin ∧
    (State.judgeThreshold src type severity reached s).credit = s.credit ∧
    (State.judgeThreshold src type severity reached s).comp = s.comp ∧
    (State.judgeThreshold src type severity reached s).clock = s.clock ∧
    (State.judgeThreshold src type severity reached s).settings = s.settings ∧
    (State.judgeThreshold src type severity reached s).hostPort = s.hostPort ∧
    (State.judgeThreshold src type severity reached s).servicePort = s.servicePort := by
  dsimp only [State.judgeThreshold]
  (repeat' split) <;> simp

@[simp] theorem State.judgeThresholds_frame (s : State) :
    (State.judgeThresholds s).pending = s.pending ∧
    (State.judgeThresholds s).now = s.now ∧
    (State.judgeThresholds s).supplies = s.supplies ∧
    (State.judgeThresholds s).coin = s.coin ∧
    (State.judgeThresholds s).credit = s.credit ∧
    (State.judgeThresholds s).comp = s.comp ∧
    (State.judgeThresholds s).clock = s.clock ∧
    (State.judgeThresholds s).settings = s.settings ∧
    (State.judgeThresholds s).hostPort = s.hostPort ∧
    (State.judgeThresholds s).servicePort = s.servicePort := by
  dsimp only [State.judgeThresholds]
  (repeat' split) <;> simp

@[simp] theorem State.countOverflow_frame (cls : Fin 16) (value : Nat) (s : State) :
    (State.countOverflow cls value s).pending = s.pending ∧
    (State.countOverflow cls value s).now = s.now ∧
    (State.countOverflow cls value s).supplies = s.supplies ∧
    (State.countOverflow cls value s).coin = s.coin ∧
    (State.countOverflow cls value s).credit = s.credit ∧
    (State.countOverflow cls value s).clock = s.clock ∧
    (State.countOverflow cls value s).settings = s.settings ∧
    (State.countOverflow cls value s).hostPort = s.hostPort ∧
    (State.countOverflow cls value s).servicePort = s.servicePort := by
  dsimp only [State.countOverflow]
  (repeat' split) <;> simp

@[simp] theorem State.countUnexpected_frame (s : State) :
    (State.countUnexpected s).pending = s.pending ∧
    (State.countUnexpected s).now = s.now ∧
    (State.countUnexpected s).supplies = s.supplies ∧
    (State.countUnexpected s).coin = s.coin ∧
    (State.countUnexpected s).credit = s.credit ∧
    (State.countUnexpected s).clock = s.clock ∧
    (State.countUnexpected s).settings = s.settings ∧
    (State.countUnexpected s).hostPort = s.hostPort ∧
    (State.countUnexpected s).servicePort = s.servicePort := by
  dsimp only [State.countUnexpected]
  (repeat' split) <;> simp

@[simp] theorem State.countCollected_frame (generation : Nat) (c : HeldCoin) (s : State) :
    (State.countCollected generation c s).pending = s.pending ∧
    (State.countCollected generation c s).now = s.now ∧
    (State.countCollected generation c s).supplies = s.supplies ∧
    (State.countCollected generation c s).coin = s.coin ∧
    (State.countCollected generation c s).credit = s.credit ∧
    (State.countCollected generation c s).clock = s.clock ∧
    (State.countCollected generation c s).settings = s.settings ∧
    (State.countCollected generation c s).hostPort = s.hostPort ∧
    (State.countCollected generation c s).servicePort = s.servicePort := by
  dsimp only [State.countCollected]
  (repeat' split) <;> simp

@[simp] theorem State.releaseClosedTally_frame (s : State) :
    (State.releaseClosedTally s).pending = s.pending ∧
    (State.releaseClosedTally s).now = s.now ∧
    (State.releaseClosedTally s).supplies = s.supplies ∧
    (State.releaseClosedTally s).coin = s.coin ∧
    (State.releaseClosedTally s).credit = s.credit ∧
    (State.releaseClosedTally s).clock = s.clock ∧
    (State.releaseClosedTally s).report = s.report ∧
    (State.releaseClosedTally s).settings = s.settings ∧
    (State.releaseClosedTally s).hostPort = s.hostPort ∧
    (State.releaseClosedTally s).servicePort = s.servicePort := by
  dsimp only [State.releaseClosedTally]
  (repeat' split) <;> simp

@[simp] theorem State.resolveWithheld_frame (generation : Nat) (s : State) :
    (State.resolveWithheld generation s).pending = s.pending ∧
    (State.resolveWithheld generation s).now = s.now ∧
    (State.resolveWithheld generation s).supplies = s.supplies ∧
    (State.resolveWithheld generation s).coin = s.coin ∧
    (State.resolveWithheld generation s).credit = s.credit ∧
    (State.resolveWithheld generation s).clock = s.clock ∧
    (State.resolveWithheld generation s).report = s.report ∧
    (State.resolveWithheld generation s).settings = s.settings ∧
    (State.resolveWithheld generation s).hostPort = s.hostPort ∧
    (State.resolveWithheld generation s).servicePort = s.servicePort := by
  dsimp only [State.resolveWithheld]
  (repeat' split) <;> simp

@[simp] theorem State.addBanked_frame (amount : Nat) (s : State) :
    (State.addBanked amount s).pending = s.pending ∧
    (State.addBanked amount s).now = s.now ∧
    (State.addBanked amount s).supplies = s.supplies ∧
    (State.addBanked amount s).coin = s.coin ∧
    (State.addBanked amount s).tariff = s.tariff ∧
    (State.addBanked amount s).clock = s.clock ∧
    (State.addBanked amount s).rating = s.rating ∧
    (State.addBanked amount s).line = s.line ∧
    (State.addBanked amount s).session = s.session ∧
    (State.addBanked amount s).sup = s.sup ∧
    (State.addBanked amount s).report = s.report ∧
    (State.addBanked amount s).settings = s.settings ∧
    (State.addBanked amount s).attention = s.attention ∧
    (State.addBanked amount s).hostPort = s.hostPort ∧
    (State.addBanked amount s).servicePort = s.servicePort := by
  dsimp only [State.addBanked]
  (repeat' split) <;> simp

@[simp] theorem State.writeOffEntry_frame (e : OwedEntry) (s : State) :
    (State.writeOffEntry e s).pending = s.pending ∧
    (State.writeOffEntry e s).now = s.now ∧
    (State.writeOffEntry e s).supplies = s.supplies ∧
    (State.writeOffEntry e s).coin = s.coin ∧
    (State.writeOffEntry e s).credit = s.credit ∧
    (State.writeOffEntry e s).tariff = s.tariff ∧
    (State.writeOffEntry e s).clock = s.clock ∧
    (State.writeOffEntry e s).line = s.line ∧
    (State.writeOffEntry e s).session = s.session ∧
    (State.writeOffEntry e s).sup = s.sup ∧
    (State.writeOffEntry e s).report = s.report ∧
    (State.writeOffEntry e s).settings = s.settings ∧
    (State.writeOffEntry e s).attention = s.attention ∧
    (State.writeOffEntry e s).hostPort = s.hostPort ∧
    (State.writeOffEntry e s).servicePort = s.servicePort := by
  dsimp only [State.writeOffEntry]
  (repeat' split) <;> simp

@[simp] theorem foldl_writeOffEntry_frame (l : List OwedEntry) (s : State) :
    (l.foldl (fun s e => s.writeOffEntry e) s).pending = s.pending ∧
    (l.foldl (fun s e => s.writeOffEntry e) s).now = s.now ∧
    (l.foldl (fun s e => s.writeOffEntry e) s).supplies = s.supplies ∧
    (l.foldl (fun s e => s.writeOffEntry e) s).coin = s.coin ∧
    (l.foldl (fun s e => s.writeOffEntry e) s).credit = s.credit ∧
    (l.foldl (fun s e => s.writeOffEntry e) s).tariff = s.tariff ∧
    (l.foldl (fun s e => s.writeOffEntry e) s).clock = s.clock ∧
    (l.foldl (fun s e => s.writeOffEntry e) s).line = s.line ∧
    (l.foldl (fun s e => s.writeOffEntry e) s).session = s.session ∧
    (l.foldl (fun s e => s.writeOffEntry e) s).sup = s.sup ∧
    (l.foldl (fun s e => s.writeOffEntry e) s).report = s.report ∧
    (l.foldl (fun s e => s.writeOffEntry e) s).settings = s.settings ∧
    (l.foldl (fun s e => s.writeOffEntry e) s).attention = s.attention ∧
    (l.foldl (fun s e => s.writeOffEntry e) s).hostPort = s.hostPort ∧
    (l.foldl (fun s e => s.writeOffEntry e) s).servicePort = s.servicePort := by
  refine ⟨?_, ?_, ?_, ?_, ?_, ?_, ?_, ?_, ?_, ?_, ?_, ?_, ?_, ?_, ?_⟩ <;> exact foldl_keeps _ _ (by simp) l s

@[simp] theorem State.writeOff_frame (s : State) :
    (State.writeOff s).pending = s.pending ∧
    (State.writeOff s).now = s.now ∧
    (State.writeOff s).supplies = s.supplies ∧
    (State.writeOff s).coin = s.coin ∧
    (State.writeOff s).tariff = s.tariff ∧
    (State.writeOff s).clock = s.clock ∧
    (State.writeOff s).line = s.line ∧
    (State.writeOff s).session = s.session ∧
    (State.writeOff s).sup = s.sup ∧
    (State.writeOff s).report = s.report ∧
    (State.writeOff s).settings = s.settings ∧
    (State.writeOff s).attention = s.attention ∧
    (State.writeOff s).hostPort = s.hostPort ∧
    (State.writeOff s).servicePort = s.servicePort := by
  dsimp only [State.writeOff]
  (repeat' split) <;> simp

@[simp] theorem State.requestCollect_frame (s : State) :
    (State.requestCollect s).pending = s.pending ∧
    (State.requestCollect s).now = s.now ∧
    (State.requestCollect s).supplies = s.supplies ∧
    (State.requestCollect s).tariff = s.tariff ∧
    (State.requestCollect s).clock = s.clock ∧
    (State.requestCollect s).line = s.line ∧
    (State.requestCollect s).session = s.session ∧
    (State.requestCollect s).sup = s.sup ∧
    (State.requestCollect s).report = s.report ∧
    (State.requestCollect s).settings = s.settings ∧
    (State.requestCollect s).attention = s.attention ∧
    (State.requestCollect s).hostPort = s.hostPort ∧
    (State.requestCollect s).servicePort = s.servicePort := by
  dsimp only [State.requestCollect]
  (repeat' split) <;> simp

@[simp] theorem State.settle_frame (s : State) :
    (State.settle s).pending = s.pending ∧
    (State.settle s).now = s.now ∧
    (State.settle s).supplies = s.supplies ∧
    (State.settle s).tariff = s.tariff ∧
    (State.settle s).clock = s.clock ∧
    (State.settle s).line = s.line ∧
    (State.settle s).session = s.session ∧
    (State.settle s).sup = s.sup ∧
    (State.settle s).report = s.report ∧
    (State.settle s).settings = s.settings ∧
    (State.settle s).attention = s.attention ∧
    (State.settle s).hostPort = s.hostPort ∧
    (State.settle s).servicePort = s.servicePort := by
  dsimp only [State.settle]
  (repeat' split) <;> simp

@[simp] theorem State.makeRoom_frame (call : Nat) (s : State) :
    (State.makeRoom call s).pending = s.pending ∧
    (State.makeRoom call s).now = s.now ∧
    (State.makeRoom call s).supplies = s.supplies ∧
    (State.makeRoom call s).coin = s.coin ∧
    (State.makeRoom call s).tariff = s.tariff ∧
    (State.makeRoom call s).clock = s.clock ∧
    (State.makeRoom call s).line = s.line ∧
    (State.makeRoom call s).session = s.session ∧
    (State.makeRoom call s).sup = s.sup ∧
    (State.makeRoom call s).report = s.report ∧
    (State.makeRoom call s).settings = s.settings ∧
    (State.makeRoom call s).attention = s.attention ∧
    (State.makeRoom call s).hostPort = s.hostPort ∧
    (State.makeRoom call s).servicePort = s.servicePort := by
  dsimp only [State.makeRoom]
  (repeat' split) <;> simp

@[simp] theorem State.takeCharge_frame (call charge : Nat) (s : State) :
    (State.takeCharge call charge s).pending = s.pending ∧
    (State.takeCharge call charge s).now = s.now ∧
    (State.takeCharge call charge s).supplies = s.supplies ∧
    (State.takeCharge call charge s).tariff = s.tariff ∧
    (State.takeCharge call charge s).clock = s.clock ∧
    (State.takeCharge call charge s).line = s.line ∧
    (State.takeCharge call charge s).session = s.session ∧
    (State.takeCharge call charge s).sup = s.sup ∧
    (State.takeCharge call charge s).report = s.report ∧
    (State.takeCharge call charge s).settings = s.settings ∧
    (State.takeCharge call charge s).attention = s.attention ∧
    (State.takeCharge call charge s).hostPort = s.hostPort ∧
    (State.takeCharge call charge s).servicePort = s.servicePort := by
  dsimp only [State.takeCharge]
  (repeat' split) <;> simp

@[simp] theorem State.lookAhead_frame (s : State) :
    (State.lookAhead s).pending = s.pending ∧
    (State.lookAhead s).now = s.now ∧
    (State.lookAhead s).supplies = s.supplies ∧
    (State.lookAhead s).coin = s.coin ∧
    (State.lookAhead s).credit = s.credit ∧
    (State.lookAhead s).comp = s.comp ∧
    (State.lookAhead s).tariff = s.tariff ∧
    (State.lookAhead s).clock = s.clock ∧
    (State.lookAhead s).line = s.line ∧
    (State.lookAhead s).session = s.session ∧
    (State.lookAhead s).sup = s.sup ∧
    (State.lookAhead s).report = s.report ∧
    (State.lookAhead s).settings = s.settings ∧
    (State.lookAhead s).hostPort = s.hostPort ∧
    (State.lookAhead s).servicePort = s.servicePort := by
  dsimp only [State.lookAhead]
  (repeat' split) <;> simp

@[simp] theorem State.requestLine_frame (owner : LineOwner) (string : List Symbol) (s : State) :
    (State.requestLine owner string s).pending = s.pending ∧
    (State.requestLine owner string s).now = s.now ∧
    (State.requestLine owner string s).supplies = s.supplies ∧
    (State.requestLine owner string s).coin = s.coin ∧
    (State.requestLine owner string s).credit = s.credit ∧
    (State.requestLine owner string s).comp = s.comp ∧
    (State.requestLine owner string s).tariff = s.tariff ∧
    (State.requestLine owner string s).clock = s.clock ∧
    (State.requestLine owner string s).rating = s.rating ∧
    (State.requestLine owner string s).session = s.session ∧
    (State.requestLine owner string s).sup = s.sup ∧
    (State.requestLine owner string s).report = s.report ∧
    (State.requestLine owner string s).settings = s.settings ∧
    (State.requestLine owner string s).attention = s.attention ∧
    (State.requestLine owner string s).hostPort = s.hostPort ∧
    (State.requestLine owner string s).servicePort = s.servicePort := by
  dsimp only [State.requestLine]
  (repeat' split) <;> simp

@[simp] theorem State.sendTones_frame (owner : LineOwner) (string : List Symbol) (s : State) :
    (State.sendTones owner string s).pending = s.pending ∧
    (State.sendTones owner string s).now = s.now ∧
    (State.sendTones owner string s).supplies = s.supplies ∧
    (State.sendTones owner string s).coin = s.coin ∧
    (State.sendTones owner string s).credit = s.credit ∧
    (State.sendTones owner string s).comp = s.comp ∧
    (State.sendTones owner string s).tariff = s.tariff ∧
    (State.sendTones owner string s).clock = s.clock ∧
    (State.sendTones owner string s).rating = s.rating ∧
    (State.sendTones owner string s).session = s.session ∧
    (State.sendTones owner string s).sup = s.sup ∧
    (State.sendTones owner string s).report = s.report ∧
    (State.sendTones owner string s).settings = s.settings ∧
    (State.sendTones owner string s).attention = s.attention ∧
    (State.sendTones owner string s).hostPort = s.hostPort ∧
    (State.sendTones owner string s).servicePort = s.servicePort := by
  dsimp only [State.sendTones]
  (repeat' split) <;> simp

@[simp] theorem State.countDialToneFailure_frame (s : State) :
    (State.countDialToneFailure s).pending = s.pending ∧
    (State.countDialToneFailure s).now = s.now ∧
    (State.countDialToneFailure s).supplies = s.supplies ∧
    (State.countDialToneFailure s).coin = s.coin ∧
    (State.countDialToneFailure s).credit = s.credit ∧
    (State.countDialToneFailure s).comp = s.comp ∧
    (State.countDialToneFailure s).clock = s.clock ∧
    (State.countDialToneFailure s).settings = s.settings ∧
    (State.countDialToneFailure s).hostPort = s.hostPort ∧
    (State.countDialToneFailure s).servicePort = s.servicePort := by
  dsimp only [State.countDialToneFailure]
  (repeat' split) <;> simp

@[simp] theorem State.placeSnapshot_frame (i : IncludedRecord) (s : State) :
    (State.placeSnapshot i s).pending = s.pending ∧
    (State.placeSnapshot i s).now = s.now ∧
    (State.placeSnapshot i s).supplies = s.supplies ∧
    (State.placeSnapshot i s).coin = s.coin ∧
    (State.placeSnapshot i s).credit = s.credit ∧
    (State.placeSnapshot i s).comp = s.comp ∧
    (State.placeSnapshot i s).tariff = s.tariff ∧
    (State.placeSnapshot i s).clock = s.clock ∧
    (State.placeSnapshot i s).rating = s.rating ∧
    (State.placeSnapshot i s).line = s.line ∧
    (State.placeSnapshot i s).session = s.session ∧
    (State.placeSnapshot i s).report = s.report ∧
    (State.placeSnapshot i s).settings = s.settings ∧
    (State.placeSnapshot i s).attention = s.attention ∧
    (State.placeSnapshot i s).hostPort = s.hostPort ∧
    (State.placeSnapshot i s).servicePort = s.servicePort := by
  dsimp only [State.placeSnapshot]
  (repeat' split) <;> simp

@[simp] theorem State.clearChangedMark_frame (s : State) :
    (State.clearChangedMark s).pending = s.pending ∧
    (State.clearChangedMark s).now = s.now ∧
    (State.clearChangedMark s).supplies = s.supplies ∧
    (State.clearChangedMark s).coin = s.coin ∧
    (State.clearChangedMark s).credit = s.credit ∧
    (State.clearChangedMark s).tariff = s.tariff ∧
    (State.clearChangedMark s).clock = s.clock ∧
    (State.clearChangedMark s).rating = s.rating ∧
    (State.clearChangedMark s).line = s.line ∧
    (State.clearChangedMark s).session = s.session ∧
    (State.clearChangedMark s).sup = s.sup ∧
    (State.clearChangedMark s).report = s.report ∧
    (State.clearChangedMark s).settings = s.settings ∧
    (State.clearChangedMark s).attention = s.attention ∧
    (State.clearChangedMark s).hostPort = s.hostPort ∧
    (State.clearChangedMark s).servicePort = s.servicePort := by
  dsimp only [State.clearChangedMark]
  (repeat' split) <;> simp

@[simp] theorem State.afterAttempt_frame (s : State) :
    (State.afterAttempt s).pending = s.pending ∧
    (State.afterAttempt s).now = s.now ∧
    (State.afterAttempt s).supplies = s.supplies ∧
    (State.afterAttempt s).coin = s.coin ∧
    (State.afterAttempt s).credit = s.credit ∧
    (State.afterAttempt s).comp = s.comp ∧
    (State.afterAttempt s).tariff = s.tariff ∧
    (State.afterAttempt s).clock = s.clock ∧
    (State.afterAttempt s).rating = s.rating ∧
    (State.afterAttempt s).line = s.line ∧
    (State.afterAttempt s).session = s.session ∧
    (State.afterAttempt s).sup = s.sup ∧
    (State.afterAttempt s).settings = s.settings ∧
    (State.afterAttempt s).attention = s.attention ∧
    (State.afterAttempt s).hostPort = s.hostPort ∧
    (State.afterAttempt s).servicePort = s.servicePort := by
  dsimp only [State.afterAttempt]
  (repeat' split) <;> simp

@[simp] theorem State.removeSnapshot_frame (src : Source) (s : State) :
    (State.removeSnapshot src s).pending = s.pending ∧
    (State.removeSnapshot src s).now = s.now ∧
    (State.removeSnapshot src s).supplies = s.supplies ∧
    (State.removeSnapshot src s).coin = s.coin ∧
    (State.removeSnapshot src s).credit = s.credit ∧
    (State.removeSnapshot src s).comp = s.comp ∧
    (State.removeSnapshot src s).clock = s.clock ∧
    (State.removeSnapshot src s).report = s.report ∧
    (State.removeSnapshot src s).settings = s.settings ∧
    (State.removeSnapshot src s).hostPort = s.hostPort ∧
    (State.removeSnapshot src s).servicePort = s.servicePort := by
  dsimp only [State.removeSnapshot]
  (repeat' split) <;> simp

@[simp] theorem foldl_removeSnapshot_frame (l : List Source) (s : State) :
    (l.foldl (fun s e => s.removeSnapshot e) s).pending = s.pending ∧
    (l.foldl (fun s e => s.removeSnapshot e) s).now = s.now ∧
    (l.foldl (fun s e => s.removeSnapshot e) s).supplies = s.supplies ∧
    (l.foldl (fun s e => s.removeSnapshot e) s).coin = s.coin ∧
    (l.foldl (fun s e => s.removeSnapshot e) s).credit = s.credit ∧
    (l.foldl (fun s e => s.removeSnapshot e) s).comp = s.comp ∧
    (l.foldl (fun s e => s.removeSnapshot e) s).clock = s.clock ∧
    (l.foldl (fun s e => s.removeSnapshot e) s).report = s.report ∧
    (l.foldl (fun s e => s.removeSnapshot e) s).settings = s.settings ∧
    (l.foldl (fun s e => s.removeSnapshot e) s).hostPort = s.hostPort ∧
    (l.foldl (fun s e => s.removeSnapshot e) s).servicePort = s.servicePort := by
  refine ⟨?_, ?_, ?_, ?_, ?_, ?_, ?_, ?_, ?_, ?_, ?_⟩ <;> exact foldl_keeps _ _ (by simp) l s

@[simp] theorem State.removeSnapshots_frame (s : State) :
    (State.removeSnapshots s).pending = s.pending ∧
    (State.removeSnapshots s).now = s.now ∧
    (State.removeSnapshots s).supplies = s.supplies ∧
    (State.removeSnapshots s).coin = s.coin ∧
    (State.removeSnapshots s).credit = s.credit ∧
    (State.removeSnapshots s).comp = s.comp ∧
    (State.removeSnapshots s).clock = s.clock ∧
    (State.removeSnapshots s).report = s.report ∧
    (State.removeSnapshots s).settings = s.settings ∧
    (State.removeSnapshots s).hostPort = s.hostPort ∧
    (State.removeSnapshots s).servicePort = s.servicePort := by
  dsimp only [State.removeSnapshots]
  (repeat' split) <;> simp

@[simp] theorem State.reportFail_frame (withLine : Bool) (s : State) :
    (State.reportFail withLine s).pending = s.pending ∧
    (State.reportFail withLine s).now = s.now ∧
    (State.reportFail withLine s).supplies = s.supplies ∧
    (State.reportFail withLine s).coin = s.coin ∧
    (State.reportFail withLine s).credit = s.credit ∧
    (State.reportFail withLine s).comp = s.comp ∧
    (State.reportFail withLine s).clock = s.clock ∧
    (State.reportFail withLine s).settings = s.settings ∧
    (State.reportFail withLine s).hostPort = s.hostPort ∧
    (State.reportFail withLine s).servicePort = s.servicePort := by
  dsimp only [State.reportFail]
  (repeat' split) <;> simp

@[simp] theorem State.reportPreempted_frame (s : State) :
    (State.reportPreempted s).pending = s.pending ∧
    (State.reportPreempted s).now = s.now ∧
    (State.reportPreempted s).supplies = s.supplies ∧
    (State.reportPreempted s).coin = s.coin ∧
    (State.reportPreempted s).credit = s.credit ∧
    (State.reportPreempted s).comp = s.comp ∧
    (State.reportPreempted s).clock = s.clock ∧
    (State.reportPreempted s).settings = s.settings ∧
    (State.reportPreempted s).hostPort = s.hostPort ∧
    (State.reportPreempted s).servicePort = s.servicePort := by
  dsimp only [State.reportPreempted]
  (repeat' split) <;> simp

@[simp] theorem State.enterWaitLine_frame (s : State) :
    (State.enterWaitLine s).pending = s.pending ∧
    (State.enterWaitLine s).now = s.now ∧
    (State.enterWaitLine s).supplies = s.supplies ∧
    (State.enterWaitLine s).coin = s.coin ∧
    (State.enterWaitLine s).credit = s.credit ∧
    (State.enterWaitLine s).comp = s.comp ∧
    (State.enterWaitLine s).clock = s.clock ∧
    (State.enterWaitLine s).settings = s.settings ∧
    (State.enterWaitLine s).hostPort = s.hostPort ∧
    (State.enterWaitLine s).servicePort = s.servicePort := by
  dsimp only [State.enterWaitLine]
  (repeat' split) <;> simp

@[simp] theorem State.beginAttempt_frame (s : State) :
    (State.beginAttempt s).pending = s.pending ∧
    (State.beginAttempt s).now = s.now ∧
    (State.beginAttempt s).supplies = s.supplies ∧
    (State.beginAttempt s).coin = s.coin ∧
    (State.beginAttempt s).credit = s.credit ∧
    (State.beginAttempt s).comp = s.comp ∧
    (State.beginAttempt s).clock = s.clock ∧
    (State.beginAttempt s).settings = s.settings ∧
    (State.beginAttempt s).hostPort = s.hostPort ∧
    (State.beginAttempt s).servicePort = s.servicePort := by
  dsimp only [State.beginAttempt]
  (repeat' split) <;> simp

@[simp] theorem State.retryExpired_frame (s : State) :
    (State.retryExpired s).pending = s.pending ∧
    (State.retryExpired s).now = s.now ∧
    (State.retryExpired s).supplies = s.supplies ∧
    (State.retryExpired s).coin = s.coin ∧
    (State.retryExpired s).credit = s.credit ∧
    (State.retryExpired s).comp = s.comp ∧
    (State.retryExpired s).clock = s.clock ∧
    (State.retryExpired s).settings = s.settings ∧
    (State.retryExpired s).hostPort = s.hostPort ∧
    (State.retryExpired s).servicePort = s.servicePort := by
  dsimp only [State.retryExpired]
  (repeat' split) <;> simp

@[simp] theorem foldl_placeSnapshot_frame (l : List IncludedRecord) (s : State) :
    (l.foldl (fun s e => s.placeSnapshot e) s).pending = s.pending ∧
    (l.foldl (fun s e => s.placeSnapshot e) s).now = s.now ∧
    (l.foldl (fun s e => s.placeSnapshot e) s).supplies = s.supplies ∧
    (l.foldl (fun s e => s.placeSnapshot e) s).coin = s.coin ∧
    (l.foldl (fun s e => s.placeSnapshot e) s).credit = s.credit ∧
    (l.foldl (fun s e => s.placeSnapshot e) s).comp = s.comp ∧
    (l.foldl (fun s e => s.placeSnapshot e) s).tariff = s.tariff ∧
    (l.foldl (fun s e => s.placeSnapshot e) s).clock = s.clock ∧
    (l.foldl (fun s e => s.placeSnapshot e) s).rating = s.rating ∧
    (l.foldl (fun s e => s.placeSnapshot e) s).line = s.line ∧
    (l.foldl (fun s e => s.placeSnapshot e) s).session = s.session ∧
    (l.foldl (fun s e => s.placeSnapshot e) s).report = s.report ∧
    (l.foldl (fun s e => s.placeSnapshot e) s).settings = s.settings ∧
    (l.foldl (fun s e => s.placeSnapshot e) s).attention = s.attention ∧
    (l.foldl (fun s e => s.placeSnapshot e) s).hostPort = s.hostPort ∧
    (l.foldl (fun s e => s.placeSnapshot e) s).servicePort = s.servicePort := by
  refine ⟨?_, ?_, ?_, ?_, ?_, ?_, ?_, ?_, ?_, ?_, ?_, ?_, ?_, ?_, ?_, ?_⟩ <;> exact foldl_keeps _ _ (by simp) l s

@[simp] theorem State.reportAnswered_frame (s : State) :
    (State.reportAnswered s).pending = s.pending ∧
    (State.reportAnswered s).now = s.now ∧
    (State.reportAnswered s).supplies = s.supplies ∧
    (State.reportAnswered s).coin = s.coin ∧
    (State.reportAnswered s).credit = s.credit ∧
    (State.reportAnswered s).tariff = s.tariff ∧
    (State.reportAnswered s).clock = s.clock ∧
    (State.reportAnswered s).rating = s.rating ∧
    (State.reportAnswered s).session = s.session ∧
    (State.reportAnswered s).settings = s.settings ∧
    (State.reportAnswered s).attention = s.attention ∧
    (State.reportAnswered s).hostPort = s.hostPort ∧
    (State.reportAnswered s).servicePort = s.servicePort := by
  dsimp only [State.reportAnswered]
  (repeat' split) <;> simp

@[simp] theorem State.reportLineEnded_frame (s : State) :
    (State.reportLineEnded s).pending = s.pending ∧
    (State.reportLineEnded s).now = s.now ∧
    (State.reportLineEnded s).supplies = s.supplies ∧
    (State.reportLineEnded s).coin = s.coin ∧
    (State.reportLineEnded s).credit = s.credit ∧
    (State.reportLineEnded s).comp = s.comp ∧
    (State.reportLineEnded s).clock = s.clock ∧
    (State.reportLineEnded s).settings = s.settings ∧
    (State.reportLineEnded s).hostPort = s.hostPort ∧
    (State.reportLineEnded s).servicePort = s.servicePort := by
  dsimp only [State.reportLineEnded]
  (repeat' split) <;> simp

@[simp] theorem State.ackRecord_frame (src : Source) (s : State) :
    (State.ackRecord src s).pending = s.pending ∧
    (State.ackRecord src s).now = s.now ∧
    (State.ackRecord src s).supplies = s.supplies ∧
    (State.ackRecord src s).coin = s.coin ∧
    (State.ackRecord src s).credit = s.credit ∧
    (State.ackRecord src s).comp = s.comp ∧
    (State.ackRecord src s).clock = s.clock ∧
    (State.ackRecord src s).report = s.report ∧
    (State.ackRecord src s).settings = s.settings ∧
    (State.ackRecord src s).hostPort = s.hostPort ∧
    (State.ackRecord src s).servicePort = s.servicePort := by
  dsimp only [State.ackRecord]
  (repeat' split) <;> simp

@[simp] theorem State.ackCollection_frame (s : State) :
    (State.ackCollection s).pending = s.pending ∧
    (State.ackCollection s).now = s.now ∧
    (State.ackCollection s).supplies = s.supplies ∧
    (State.ackCollection s).coin = s.coin ∧
    (State.ackCollection s).credit = s.credit ∧
    (State.ackCollection s).clock = s.clock ∧
    (State.ackCollection s).report = s.report ∧
    (State.ackCollection s).settings = s.settings ∧
    (State.ackCollection s).hostPort = s.hostPort ∧
    (State.ackCollection s).servicePort = s.servicePort := by
  dsimp only [State.ackCollection]
  (repeat' split) <;> simp

@[simp] theorem State.ackIncluded_frame (i : IncludedRecord) (s : State) :
    (State.ackIncluded i s).pending = s.pending ∧
    (State.ackIncluded i s).now = s.now ∧
    (State.ackIncluded i s).supplies = s.supplies ∧
    (State.ackIncluded i s).coin = s.coin ∧
    (State.ackIncluded i s).credit = s.credit ∧
    (State.ackIncluded i s).clock = s.clock ∧
    (State.ackIncluded i s).report = s.report ∧
    (State.ackIncluded i s).settings = s.settings ∧
    (State.ackIncluded i s).hostPort = s.hostPort ∧
    (State.ackIncluded i s).servicePort = s.servicePort := by
  dsimp only [State.ackIncluded]
  (repeat' split) <;> simp

@[simp] theorem foldl_ackIncluded_frame (l : List IncludedRecord) (s : State) :
    (l.foldl (fun s e => s.ackIncluded e) s).pending = s.pending ∧
    (l.foldl (fun s e => s.ackIncluded e) s).now = s.now ∧
    (l.foldl (fun s e => s.ackIncluded e) s).supplies = s.supplies ∧
    (l.foldl (fun s e => s.ackIncluded e) s).coin = s.coin ∧
    (l.foldl (fun s e => s.ackIncluded e) s).credit = s.credit ∧
    (l.foldl (fun s e => s.ackIncluded e) s).clock = s.clock ∧
    (l.foldl (fun s e => s.ackIncluded e) s).report = s.report ∧
    (l.foldl (fun s e => s.ackIncluded e) s).settings = s.settings ∧
    (l.foldl (fun s e => s.ackIncluded e) s).hostPort = s.hostPort ∧
    (l.foldl (fun s e => s.ackIncluded e) s).servicePort = s.servicePort := by
  refine ⟨?_, ?_, ?_, ?_, ?_, ?_, ?_, ?_, ?_, ?_⟩ <;> exact foldl_keeps _ _ (by simp) l s

@[simp] theorem State.applyAck_frame (s : State) :
    (State.applyAck s).pending = s.pending ∧
    (State.applyAck s).now = s.now ∧
    (State.applyAck s).supplies = s.supplies ∧
    (State.applyAck s).coin = s.coin ∧
    (State.applyAck s).credit = s.credit ∧
    (State.applyAck s).clock = s.clock ∧
    (State.applyAck s).settings = s.settings ∧
    (State.applyAck s).hostPort = s.hostPort ∧
    (State.applyAck s).servicePort = s.servicePort := by
  dsimp only [State.applyAck]
  (repeat' split) <;> simp

@[simp] theorem State.resetReport_frame (s : State) :
    (State.resetReport s).pending = s.pending ∧
    (State.resetReport s).now = s.now ∧
    (State.resetReport s).supplies = s.supplies ∧
    (State.resetReport s).coin = s.coin ∧
    (State.resetReport s).credit = s.credit ∧
    (State.resetReport s).comp = s.comp ∧
    (State.resetReport s).clock = s.clock ∧
    (State.resetReport s).settings = s.settings ∧
    (State.resetReport s).hostPort = s.hostPort ∧
    (State.resetReport s).servicePort = s.servicePort := by
  dsimp only [State.resetReport]
  (repeat' split) <;> simp

@[simp] theorem State.requestRefund_frame (startUp ofSession : Bool) (s : State) :
    (State.requestRefund startUp ofSession s).pending = s.pending ∧
    (State.requestRefund startUp ofSession s).now = s.now ∧
    (State.requestRefund startUp ofSession s).supplies = s.supplies ∧
    (State.requestRefund startUp ofSession s).credit = s.credit ∧
    (State.requestRefund startUp ofSession s).comp = s.comp ∧
    (State.requestRefund startUp ofSession s).tariff = s.tariff ∧
    (State.requestRefund startUp ofSession s).clock = s.clock ∧
    (State.requestRefund startUp ofSession s).rating = s.rating ∧
    (State.requestRefund startUp ofSession s).line = s.line ∧
    (State.requestRefund startUp ofSession s).session = s.session ∧
    (State.requestRefund startUp ofSession s).sup = s.sup ∧
    (State.requestRefund startUp ofSession s).report = s.report ∧
    (State.requestRefund startUp ofSession s).settings = s.settings ∧
    (State.requestRefund startUp ofSession s).attention = s.attention ∧
    (State.requestRefund startUp ofSession s).hostPort = s.hostPort ∧
    (State.requestRefund startUp ofSession s).servicePort = s.servicePort := by
  dsimp only [State.requestRefund]
  (repeat' split) <;> simp

@[simp] theorem State.countUnconfirmed_frame (s : State) :
    (State.countUnconfirmed s).pending = s.pending ∧
    (State.countUnconfirmed s).now = s.now ∧
    (State.countUnconfirmed s).supplies = s.supplies ∧
    (State.countUnconfirmed s).credit = s.credit ∧
    (State.countUnconfirmed s).comp = s.comp ∧
    (State.countUnconfirmed s).clock = s.clock ∧
    (State.countUnconfirmed s).settings = s.settings ∧
    (State.countUnconfirmed s).hostPort = s.hostPort ∧
    (State.countUnconfirmed s).servicePort = s.servicePort := by
  dsimp only [State.countUnconfirmed]
  (repeat' split) <;> simp

@[simp] theorem State.orphanColumn_frame (s : State) :
    (State.orphanColumn s).pending = s.pending ∧
    (State.orphanColumn s).now = s.now ∧
    (State.orphanColumn s).supplies = s.supplies ∧
    (State.orphanColumn s).credit = s.credit ∧
    (State.orphanColumn s).comp = s.comp ∧
    (State.orphanColumn s).tariff = s.tariff ∧
    (State.orphanColumn s).clock = s.clock ∧
    (State.orphanColumn s).rating = s.rating ∧
    (State.orphanColumn s).line = s.line ∧
    (State.orphanColumn s).session = s.session ∧
    (State.orphanColumn s).sup = s.sup ∧
    (State.orphanColumn s).report = s.report ∧
    (State.orphanColumn s).settings = s.settings ∧
    (State.orphanColumn s).attention = s.attention ∧
    (State.orphanColumn s).hostPort = s.hostPort ∧
    (State.orphanColumn s).servicePort = s.servicePort := by
  dsimp only [State.orphanColumn]
  (repeat' split) <;> simp

@[simp] theorem State.completeCollect_frame (generation : Nat) (s : State) :
    (State.completeCollect generation s).pending = s.pending ∧
    (State.completeCollect generation s).now = s.now ∧
    (State.completeCollect generation s).supplies = s.supplies ∧
    (State.completeCollect generation s).clock = s.clock ∧
    (State.completeCollect generation s).settings = s.settings ∧
    (State.completeCollect generation s).hostPort = s.hostPort ∧
    (State.completeCollect generation s).servicePort = s.servicePort := by
  dsimp only [State.completeCollect]
  (repeat' split) <;> simp

@[simp] theorem State.departIdle_frame (s : State) :
    (State.departIdle s).pending = s.pending ∧
    (State.departIdle s).now = s.now ∧
    (State.departIdle s).supplies = s.supplies ∧
    (State.departIdle s).coin = s.coin ∧
    (State.departIdle s).credit = s.credit ∧
    (State.departIdle s).comp = s.comp ∧
    (State.departIdle s).clock = s.clock ∧
    (State.departIdle s).settings = s.settings ∧
    (State.departIdle s).hostPort = s.hostPort ∧
    (State.departIdle s).servicePort = s.servicePort := by
  dsimp only [State.departIdle]
  (repeat' split) <;> simp

@[simp] theorem State.returnIdle_frame (s : State) :
    (State.returnIdle s).pending = s.pending ∧
    (State.returnIdle s).now = s.now ∧
    (State.returnIdle s).supplies = s.supplies ∧
    (State.returnIdle s).coin = s.coin ∧
    (State.returnIdle s).credit = s.credit ∧
    (State.returnIdle s).comp = s.comp ∧
    (State.returnIdle s).tariff = s.tariff ∧
    (State.returnIdle s).clock = s.clock ∧
    (State.returnIdle s).rating = s.rating ∧
    (State.returnIdle s).line = s.line ∧
    (State.returnIdle s).session = s.session ∧
    (State.returnIdle s).sup = s.sup ∧
    (State.returnIdle s).settings = s.settings ∧
    (State.returnIdle s).attention = s.attention ∧
    (State.returnIdle s).hostPort = s.hostPort ∧
    (State.returnIdle s).servicePort = s.servicePort := by
  dsimp only [State.returnIdle]
  (repeat' split) <;> simp

@[simp] theorem State.enterDialWait_frame (s : State) :
    (State.enterDialWait s).pending = s.pending ∧
    (State.enterDialWait s).now = s.now ∧
    (State.enterDialWait s).supplies = s.supplies ∧
    (State.enterDialWait s).coin = s.coin ∧
    (State.enterDialWait s).credit = s.credit ∧
    (State.enterDialWait s).comp = s.comp ∧
    (State.enterDialWait s).tariff = s.tariff ∧
    (State.enterDialWait s).clock = s.clock ∧
    (State.enterDialWait s).rating = s.rating ∧
    (State.enterDialWait s).line = s.line ∧
    (State.enterDialWait s).sup = s.sup ∧
    (State.enterDialWait s).report = s.report ∧
    (State.enterDialWait s).settings = s.settings ∧
    (State.enterDialWait s).attention = s.attention ∧
    (State.enterDialWait s).hostPort = s.hostPort ∧
    (State.enterDialWait s).servicePort = s.servicePort := by
  dsimp only [State.enterDialWait]
  (repeat' split) <;> simp

@[simp] theorem State.openAccount_frame (s : State) :
    (State.openAccount s).pending = s.pending ∧
    (State.openAccount s).now = s.now ∧
    (State.openAccount s).supplies = s.supplies ∧
    (State.openAccount s).coin = s.coin ∧
    (State.openAccount s).comp = s.comp ∧
    (State.openAccount s).tariff = s.tariff ∧
    (State.openAccount s).clock = s.clock ∧
    (State.openAccount s).rating = s.rating ∧
    (State.openAccount s).line = s.line ∧
    (State.openAccount s).session = s.session ∧
    (State.openAccount s).sup = s.sup ∧
    (State.openAccount s).report = s.report ∧
    (State.openAccount s).settings = s.settings ∧
    (State.openAccount s).attention = s.attention ∧
    (State.openAccount s).hostPort = s.hostPort ∧
    (State.openAccount s).servicePort = s.servicePort := by
  dsimp only [State.openAccount]
  (repeat' split) <;> simp

@[simp] theorem State.openSession_frame (s : State) :
    (State.openSession s).pending = s.pending ∧
    (State.openSession s).now = s.now ∧
    (State.openSession s).supplies = s.supplies ∧
    (State.openSession s).coin = s.coin ∧
    (State.openSession s).comp = s.comp ∧
    (State.openSession s).clock = s.clock ∧
    (State.openSession s).settings = s.settings ∧
    (State.openSession s).hostPort = s.hostPort ∧
    (State.openSession s).servicePort = s.servicePort := by
  dsimp only [State.openSession]
  (repeat' split) <;> simp

@[simp] theorem State.closeAccount_frame (s : State) :
    (State.closeAccount s).pending = s.pending ∧
    (State.closeAccount s).now = s.now ∧
    (State.closeAccount s).supplies = s.supplies ∧
    (State.closeAccount s).coin = s.coin ∧
    (State.closeAccount s).comp = s.comp ∧
    (State.closeAccount s).tariff = s.tariff ∧
    (State.closeAccount s).clock = s.clock ∧
    (State.closeAccount s).rating = s.rating ∧
    (State.closeAccount s).line = s.line ∧
    (State.closeAccount s).session = s.session ∧
    (State.closeAccount s).sup = s.sup ∧
    (State.closeAccount s).report = s.report ∧
    (State.closeAccount s).settings = s.settings ∧
    (State.closeAccount s).attention = s.attention ∧
    (State.closeAccount s).hostPort = s.hostPort ∧
    (State.closeAccount s).servicePort = s.servicePort := by
  dsimp only [State.closeAccount]
  (repeat' split) <;> simp

@[simp] theorem State.endSession_frame (cause : EndCause) (s : State) :
    (State.endSession cause s).pending = s.pending ∧
    (State.endSession cause s).now = s.now ∧
    (State.endSession cause s).supplies = s.supplies ∧
    (State.endSession cause s).comp = s.comp ∧
    (State.endSession cause s).clock = s.clock ∧
    (State.endSession cause s).sup = s.sup ∧
    (State.endSession cause s).report = s.report ∧
    (State.endSession cause s).settings = s.settings ∧
    (State.endSession cause s).hostPort = s.hostPort ∧
    (State.endSession cause s).servicePort = s.servicePort := by
  dsimp only [State.endSession]
  (repeat' split) <;> simp

@[simp] theorem State.place_frame (d : Decision) (s : State) :
    (State.place d s).pending = s.pending ∧
    (State.place d s).now = s.now ∧
    (State.place d s).supplies = s.supplies ∧
    (State.place d s).coin = s.coin ∧
    (State.place d s).credit = s.credit ∧
    (State.place d s).comp = s.comp ∧
    (State.place d s).clock = s.clock ∧
    (State.place d s).sup = s.sup ∧
    (State.place d s).report = s.report ∧
    (State.place d s).settings = s.settings ∧
    (State.place d s).hostPort = s.hostPort ∧
    (State.place d s).servicePort = s.servicePort := by
  dsimp only [State.place]
  (repeat' split) <;> simp

@[simp] theorem State.awaitCredit_frame (d : Decision) (t : Nat) (s : State) :
    (State.awaitCredit d t s).pending = s.pending ∧
    (State.awaitCredit d t s).now = s.now ∧
    (State.awaitCredit d t s).supplies = s.supplies ∧
    (State.awaitCredit d t s).coin = s.coin ∧
    (State.awaitCredit d t s).credit = s.credit ∧
    (State.awaitCredit d t s).comp = s.comp ∧
    (State.awaitCredit d t s).tariff = s.tariff ∧
    (State.awaitCredit d t s).clock = s.clock ∧
    (State.awaitCredit d t s).rating = s.rating ∧
    (State.awaitCredit d t s).line = s.line ∧
    (State.awaitCredit d t s).sup = s.sup ∧
    (State.awaitCredit d t s).report = s.report ∧
    (State.awaitCredit d t s).settings = s.settings ∧
    (State.awaitCredit d t s).hostPort = s.hostPort ∧
    (State.awaitCredit d t s).servicePort = s.servicePort := by
  dsimp only [State.awaitCredit]
  (repeat' split) <;> simp

@[simp] theorem State.refuseNumber_frame (cause : RefusalCause) (r : Option Chosen) (s : State) :
    (State.refuseNumber cause r s).pending = s.pending ∧
    (State.refuseNumber cause r s).now = s.now ∧
    (State.refuseNumber cause r s).supplies = s.supplies ∧
    (State.refuseNumber cause r s).coin = s.coin ∧
    (State.refuseNumber cause r s).credit = s.credit ∧
    (State.refuseNumber cause r s).comp = s.comp ∧
    (State.refuseNumber cause r s).tariff = s.tariff ∧
    (State.refuseNumber cause r s).clock = s.clock ∧
    (State.refuseNumber cause r s).rating = s.rating ∧
    (State.refuseNumber cause r s).line = s.line ∧
    (State.refuseNumber cause r s).sup = s.sup ∧
    (State.refuseNumber cause r s).report = s.report ∧
    (State.refuseNumber cause r s).settings = s.settings ∧
    (State.refuseNumber cause r s).hostPort = s.hostPort ∧
    (State.refuseNumber cause r s).servicePort = s.servicePort := by
  dsimp only [State.refuseNumber]
  (repeat' split) <;> simp

@[simp] theorem State.judgeDecision_frame (r : Chosen) (s : State) :
    (State.judgeDecision r s).pending = s.pending ∧
    (State.judgeDecision r s).now = s.now ∧
    (State.judgeDecision r s).supplies = s.supplies ∧
    (State.judgeDecision r s).coin = s.coin ∧
    (State.judgeDecision r s).credit = s.credit ∧
    (State.judgeDecision r s).comp = s.comp ∧
    (State.judgeDecision r s).clock = s.clock ∧
    (State.judgeDecision r s).sup = s.sup ∧
    (State.judgeDecision r s).report = s.report ∧
    (State.judgeDecision r s).settings = s.settings ∧
    (State.judgeDecision r s).hostPort = s.hostPort ∧
    (State.judgeDecision r s).servicePort = s.servicePort := by
  dsimp only [State.judgeDecision]
  (repeat' split) <;> simp

@[simp] theorem State.takeVerdict_frame (v : Verdict) (s : State) :
    (State.takeVerdict v s).pending = s.pending ∧
    (State.takeVerdict v s).now = s.now ∧
    (State.takeVerdict v s).supplies = s.supplies ∧
    (State.takeVerdict v s).coin = s.coin ∧
    (State.takeVerdict v s).credit = s.credit ∧
    (State.takeVerdict v s).comp = s.comp ∧
    (State.takeVerdict v s).clock = s.clock ∧
    (State.takeVerdict v s).sup = s.sup ∧
    (State.takeVerdict v s).report = s.report ∧
    (State.takeVerdict v s).settings = s.settings ∧
    (State.takeVerdict v s).hostPort = s.hostPort ∧
    (State.takeVerdict v s).servicePort = s.servicePort := by
  dsimp only [State.takeVerdict]
  (repeat' split) <;> simp

@[simp] theorem State.recheck_frame (s : State) :
    (State.recheck s).pending = s.pending ∧
    (State.recheck s).now = s.now ∧
    (State.recheck s).supplies = s.supplies ∧
    (State.recheck s).coin = s.coin ∧
    (State.recheck s).credit = s.credit ∧
    (State.recheck s).comp = s.comp ∧
    (State.recheck s).clock = s.clock ∧
    (State.recheck s).sup = s.sup ∧
    (State.recheck s).report = s.report ∧
    (State.recheck s).settings = s.settings ∧
    (State.recheck s).hostPort = s.hostPort ∧
    (State.recheck s).servicePort = s.servicePort := by
  dsimp only [State.recheck]
  (repeat' split) <;> simp

@[simp] theorem State.handCredit_frame (before : Nat) (s : State) :
    (State.handCredit before s).pending = s.pending ∧
    (State.handCredit before s).now = s.now ∧
    (State.handCredit before s).supplies = s.supplies ∧
    (State.handCredit before s).coin = s.coin ∧
    (State.handCredit before s).credit = s.credit ∧
    (State.handCredit before s).comp = s.comp ∧
    (State.handCredit before s).clock = s.clock ∧
    (State.handCredit before s).sup = s.sup ∧
    (State.handCredit before s).report = s.report ∧
    (State.handCredit before s).settings = s.settings ∧
    (State.handCredit before s).hostPort = s.hostPort ∧
    (State.handCredit before s).servicePort = s.servicePort := by
  dsimp only [State.handCredit]
  (repeat' split) <;> simp

@[simp] theorem State.cutOff_frame (s : State) :
    (State.cutOff s).pending = s.pending ∧
    (State.cutOff s).now = s.now ∧
    (State.cutOff s).supplies = s.supplies ∧
    (State.cutOff s).coin = s.coin ∧
    (State.cutOff s).credit = s.credit ∧
    (State.cutOff s).comp = s.comp ∧
    (State.cutOff s).clock = s.clock ∧
    (State.cutOff s).sup = s.sup ∧
    (State.cutOff s).report = s.report ∧
    (State.cutOff s).settings = s.settings ∧
    (State.cutOff s).hostPort = s.hostPort ∧
    (State.cutOff s).servicePort = s.servicePort := by
  dsimp only [State.cutOff]
  (repeat' split) <;> simp

@[simp] theorem State.rateAnswer_frame (presumed : Bool) (s : State) :
    (State.rateAnswer presumed s).1.pending = s.pending ∧
    (State.rateAnswer presumed s).1.now = s.now ∧
    (State.rateAnswer presumed s).1.supplies = s.supplies ∧
    (State.rateAnswer presumed s).1.tariff = s.tariff ∧
    (State.rateAnswer presumed s).1.clock = s.clock ∧
    (State.rateAnswer presumed s).1.line = s.line ∧
    (State.rateAnswer presumed s).1.session = s.session ∧
    (State.rateAnswer presumed s).1.sup = s.sup ∧
    (State.rateAnswer presumed s).1.report = s.report ∧
    (State.rateAnswer presumed s).1.settings = s.settings ∧
    (State.rateAnswer presumed s).1.hostPort = s.hostPort ∧
    (State.rateAnswer presumed s).1.servicePort = s.servicePort := by
  dsimp only [State.rateAnswer]
  (repeat' split) <;> simp

@[simp] theorem State.sessionAnswered_frame (presumed : Bool) (s : State) :
    (State.sessionAnswered presumed s).pending = s.pending ∧
    (State.sessionAnswered presumed s).now = s.now ∧
    (State.sessionAnswered presumed s).supplies = s.supplies ∧
    (State.sessionAnswered presumed s).clock = s.clock ∧
    (State.sessionAnswered presumed s).sup = s.sup ∧
    (State.sessionAnswered presumed s).report = s.report ∧
    (State.sessionAnswered presumed s).settings = s.settings ∧
    (State.sessionAnswered presumed s).hostPort = s.hostPort ∧
    (State.sessionAnswered presumed s).servicePort = s.servicePort := by
  dsimp only [State.sessionAnswered]
  (repeat' split) <;> simp

@[simp] theorem State.lineEnds_frame (cause : EndCause) (s : State) :
    (State.lineEnds cause s).pending = s.pending ∧
    (State.lineEnds cause s).now = s.now ∧
    (State.lineEnds cause s).supplies = s.supplies ∧
    (State.lineEnds cause s).coin = s.coin ∧
    (State.lineEnds cause s).credit = s.credit ∧
    (State.lineEnds cause s).comp = s.comp ∧
    (State.lineEnds cause s).clock = s.clock ∧
    (State.lineEnds cause s).settings = s.settings ∧
    (State.lineEnds cause s).hostPort = s.hostPort ∧
    (State.lineEnds cause s).servicePort = s.servicePort := by
  dsimp only [State.lineEnds]
  (repeat' split) <;> simp

@[simp] theorem State.lineAnswered_frame (presumed : Bool) (s : State) :
    (State.lineAnswered presumed s).pending = s.pending ∧
    (State.lineAnswered presumed s).now = s.now ∧
    (State.lineAnswered presumed s).supplies = s.supplies ∧
    (State.lineAnswered presumed s).clock = s.clock ∧
    (State.lineAnswered presumed s).settings = s.settings ∧
    (State.lineAnswered presumed s).hostPort = s.hostPort ∧
    (State.lineAnswered presumed s).servicePort = s.servicePort := by
  dsimp only [State.lineAnswered]
  (repeat' split) <;> simp

@[simp] theorem State.acceptCoin_frame (cls : Fin 16) (s : State) :
    (State.acceptCoin cls s).pending = s.pending ∧
    (State.acceptCoin cls s).now = s.now ∧
    (State.acceptCoin cls s).supplies = s.supplies ∧
    (State.acceptCoin cls s).credit = s.credit ∧
    (State.acceptCoin cls s).comp = s.comp ∧
    (State.acceptCoin cls s).clock = s.clock ∧
    (State.acceptCoin cls s).settings = s.settings ∧
    (State.acceptCoin cls s).hostPort = s.hostPort ∧
    (State.acceptCoin cls s).servicePort = s.servicePort := by
  dsimp only [State.acceptCoin]
  (repeat' split) <;> simp

@[simp] theorem State.rejectCoin_frame (s : State) :
    (State.rejectCoin s).pending = s.pending ∧
    (State.rejectCoin s).now = s.now ∧
    (State.rejectCoin s).supplies = s.supplies ∧
    (State.rejectCoin s).credit = s.credit ∧
    (State.rejectCoin s).comp = s.comp ∧
    (State.rejectCoin s).tariff = s.tariff ∧
    (State.rejectCoin s).clock = s.clock ∧
    (State.rejectCoin s).rating = s.rating ∧
    (State.rejectCoin s).line = s.line ∧
    (State.rejectCoin s).session = s.session ∧
    (State.rejectCoin s).sup = s.sup ∧
    (State.rejectCoin s).report = s.report ∧
    (State.rejectCoin s).settings = s.settings ∧
    (State.rejectCoin s).attention = s.attention ∧
    (State.rejectCoin s).hostPort = s.hostPort ∧
    (State.rejectCoin s).servicePort = s.servicePort := by
  dsimp only [State.rejectCoin]
  (repeat' split) <;> simp

@[simp] theorem State.passToCup_frame (s : State) :
    (State.passToCup s).pending = s.pending ∧
    (State.passToCup s).now = s.now ∧
    (State.passToCup s).supplies = s.supplies ∧
    (State.passToCup s).credit = s.credit ∧
    (State.passToCup s).comp = s.comp ∧
    (State.passToCup s).tariff = s.tariff ∧
    (State.passToCup s).clock = s.clock ∧
    (State.passToCup s).rating = s.rating ∧
    (State.passToCup s).line = s.line ∧
    (State.passToCup s).session = s.session ∧
    (State.passToCup s).sup = s.sup ∧
    (State.passToCup s).report = s.report ∧
    (State.passToCup s).settings = s.settings ∧
    (State.passToCup s).attention = s.attention ∧
    (State.passToCup s).hostPort = s.hostPort ∧
    (State.passToCup s).servicePort = s.servicePort := by
  dsimp only [State.passToCup]
  (repeat' split) <;> simp

@[simp] theorem State.refundBetweenSessions_frame (s : State) :
    (State.refundBetweenSessions s).pending = s.pending ∧
    (State.refundBetweenSessions s).now = s.now ∧
    (State.refundBetweenSessions s).supplies = s.supplies ∧
    (State.refundBetweenSessions s).credit = s.credit ∧
    (State.refundBetweenSessions s).comp = s.comp ∧
    (State.refundBetweenSessions s).tariff = s.tariff ∧
    (State.refundBetweenSessions s).clock = s.clock ∧
    (State.refundBetweenSessions s).rating = s.rating ∧
    (State.refundBetweenSessions s).line = s.line ∧
    (State.refundBetweenSessions s).session = s.session ∧
    (State.refundBetweenSessions s).sup = s.sup ∧
    (State.refundBetweenSessions s).report = s.report ∧
    (State.refundBetweenSessions s).settings = s.settings ∧
    (State.refundBetweenSessions s).attention = s.attention ∧
    (State.refundBetweenSessions s).hostPort = s.hostPort ∧
    (State.refundBetweenSessions s).servicePort = s.servicePort := by
  dsimp only [State.refundBetweenSessions]
  (repeat' split) <;> simp

@[simp] theorem State.enterColumn_frame (s : State) :
    (State.enterColumn s).pending = s.pending ∧
    (State.enterColumn s).now = s.now ∧
    (State.enterColumn s).supplies = s.supplies ∧
    (State.enterColumn s).credit = s.credit ∧
    (State.enterColumn s).comp = s.comp ∧
    (State.enterColumn s).clock = s.clock ∧
    (State.enterColumn s).settings = s.settings ∧
    (State.enterColumn s).hostPort = s.hostPort ∧
    (State.enterColumn s).servicePort = s.servicePort := by
  dsimp only [State.enterColumn]
  (repeat' split) <;> simp

@[simp] theorem State.columnPulse_frame (s : State) :
    (State.columnPulse s).pending = s.pending ∧
    (State.columnPulse s).now = s.now ∧
    (State.columnPulse s).supplies = s.supplies ∧
    (State.columnPulse s).credit = s.credit ∧
    (State.columnPulse s).comp = s.comp ∧
    (State.columnPulse s).clock = s.clock ∧
    (State.columnPulse s).settings = s.settings ∧
    (State.columnPulse s).hostPort = s.hostPort ∧
    (State.columnPulse s).servicePort = s.servicePort := by
  dsimp only [State.columnPulse]
  (repeat' split) <;> simp

@[simp] theorem State.cashboxArrival_frame (s : State) :
    (State.cashboxArrival s).pending = s.pending ∧
    (State.cashboxArrival s).now = s.now ∧
    (State.cashboxArrival s).supplies = s.supplies ∧
    (State.cashboxArrival s).clock = s.clock ∧
    (State.cashboxArrival s).settings = s.settings ∧
    (State.cashboxArrival s).hostPort = s.hostPort ∧
    (State.cashboxArrival s).servicePort = s.servicePort := by
  dsimp only [State.cashboxArrival]
  (repeat' split) <;> simp

@[simp] theorem State.cashboxPulse_frame (s : State) :
    (State.cashboxPulse s).pending = s.pending ∧
    (State.cashboxPulse s).now = s.now ∧
    (State.cashboxPulse s).supplies = s.supplies ∧
    (State.cashboxPulse s).clock = s.clock ∧
    (State.cashboxPulse s).settings = s.settings ∧
    (State.cashboxPulse s).hostPort = s.hostPort ∧
    (State.cashboxPulse s).servicePort = s.servicePort := by
  dsimp only [State.cashboxPulse]
  (repeat' split) <;> simp

@[simp] theorem State.expireTransit_frame (s : State) :
    (State.expireTransit s).pending = s.pending ∧
    (State.expireTransit s).supplies = s.supplies ∧
    (State.expireTransit s).credit = s.credit ∧
    (State.expireTransit s).comp = s.comp ∧
    (State.expireTransit s).clock = s.clock ∧
    (State.expireTransit s).settings = s.settings ∧
    (State.expireTransit s).hostPort = s.hostPort ∧
    (State.expireTransit s).servicePort = s.servicePort := by
  dsimp only [State.expireTransit]
  (repeat' split) <;> simp

@[simp] theorem State.startCollect_frame (s : State) :
    (State.startCollect s).pending = s.pending ∧
    (State.startCollect s).now = s.now ∧
    (State.startCollect s).supplies = s.supplies ∧
    (State.startCollect s).credit = s.credit ∧
    (State.startCollect s).comp = s.comp ∧
    (State.startCollect s).tariff = s.tariff ∧
    (State.startCollect s).clock = s.clock ∧
    (State.startCollect s).rating = s.rating ∧
    (State.startCollect s).line = s.line ∧
    (State.startCollect s).session = s.session ∧
    (State.startCollect s).sup = s.sup ∧
    (State.startCollect s).report = s.report ∧
    (State.startCollect s).settings = s.settings ∧
    (State.startCollect s).attention = s.attention ∧
    (State.startCollect s).hostPort = s.hostPort ∧
    (State.startCollect s).servicePort = s.servicePort := by
  dsimp only [State.startCollect]
  (repeat' split) <;> simp

@[simp] theorem State.collectHome_frame (s : State) :
    (State.collectHome s).pending = s.pending ∧
    (State.collectHome s).now = s.now ∧
    (State.collectHome s).supplies = s.supplies ∧
    (State.collectHome s).clock = s.clock ∧
    (State.collectHome s).settings = s.settings ∧
    (State.collectHome s).hostPort = s.hostPort ∧
    (State.collectHome s).servicePort = s.servicePort := by
  dsimp only [State.collectHome]
  (repeat' split) <;> simp

@[simp] theorem State.timeOutCollect_frame (s : State) :
    (State.timeOutCollect s).pending = s.pending ∧
    (State.timeOutCollect s).supplies = s.supplies ∧
    (State.timeOutCollect s).clock = s.clock ∧
    (State.timeOutCollect s).settings = s.settings ∧
    (State.timeOutCollect s).hostPort = s.hostPort ∧
    (State.timeOutCollect s).servicePort = s.servicePort := by
  dsimp only [State.timeOutCollect]
  (repeat' split) <;> simp

@[simp] theorem State.startRefund_frame (s : State) :
    (State.startRefund s).pending = s.pending ∧
    (State.startRefund s).now = s.now ∧
    (State.startRefund s).supplies = s.supplies ∧
    (State.startRefund s).credit = s.credit ∧
    (State.startRefund s).comp = s.comp ∧
    (State.startRefund s).tariff = s.tariff ∧
    (State.startRefund s).clock = s.clock ∧
    (State.startRefund s).rating = s.rating ∧
    (State.startRefund s).line = s.line ∧
    (State.startRefund s).session = s.session ∧
    (State.startRefund s).sup = s.sup ∧
    (State.startRefund s).report = s.report ∧
    (State.startRefund s).settings = s.settings ∧
    (State.startRefund s).attention = s.attention ∧
    (State.startRefund s).hostPort = s.hostPort ∧
    (State.startRefund s).servicePort = s.servicePort := by
  dsimp only [State.startRefund]
  (repeat' split) <;> simp

@[simp] theorem State.refundHome_frame (s : State) :
    (State.refundHome s).pending = s.pending ∧
    (State.refundHome s).now = s.now ∧
    (State.refundHome s).supplies = s.supplies ∧
    (State.refundHome s).credit = s.credit ∧
    (State.refundHome s).clock = s.clock ∧
    (State.refundHome s).report = s.report ∧
    (State.refundHome s).settings = s.settings ∧
    (State.refundHome s).hostPort = s.hostPort ∧
    (State.refundHome s).servicePort = s.servicePort := by
  dsimp only [State.refundHome]
  (repeat' split) <;> simp

@[simp] theorem State.timeOutRefund_frame (s : State) :
    (State.timeOutRefund s).pending = s.pending ∧
    (State.timeOutRefund s).supplies = s.supplies ∧
    (State.timeOutRefund s).credit = s.credit ∧
    (State.timeOutRefund s).comp = s.comp ∧
    (State.timeOutRefund s).clock = s.clock ∧
    (State.timeOutRefund s).settings = s.settings ∧
    (State.timeOutRefund s).hostPort = s.hostPort ∧
    (State.timeOutRefund s).servicePort = s.servicePort := by
  dsimp only [State.timeOutRefund]
  (repeat' split) <;> simp

@[simp] theorem State.cupPulse_frame (s : State) :
    (State.cupPulse s).pending = s.pending ∧
    (State.cupPulse s).now = s.now ∧
    (State.cupPulse s).supplies = s.supplies ∧
    (State.cupPulse s).credit = s.credit ∧
    (State.cupPulse s).comp = s.comp ∧
    (State.cupPulse s).tariff = s.tariff ∧
    (State.cupPulse s).clock = s.clock ∧
    (State.cupPulse s).rating = s.rating ∧
    (State.cupPulse s).line = s.line ∧
    (State.cupPulse s).session = s.session ∧
    (State.cupPulse s).sup = s.sup ∧
    (State.cupPulse s).report = s.report ∧
    (State.cupPulse s).settings = s.settings ∧
    (State.cupPulse s).attention = s.attention ∧
    (State.cupPulse s).hostPort = s.hostPort ∧
    (State.cupPulse s).servicePort = s.servicePort := by
  dsimp only [State.cupPulse]
  (repeat' split) <;> simp

@[simp] theorem State.endWatch_frame (s : State) :
    (State.endWatch s).pending = s.pending ∧
    (State.endWatch s).supplies = s.supplies ∧
    (State.endWatch s).credit = s.credit ∧
    (State.endWatch s).comp = s.comp ∧
    (State.endWatch s).clock = s.clock ∧
    (State.endWatch s).settings = s.settings ∧
    (State.endWatch s).hostPort = s.hostPort ∧
    (State.endWatch s).servicePort = s.servicePort := by
  dsimp only [State.endWatch]
  (repeat' split) <;> simp

@[simp] theorem State.slotObstructed_frame (s : State) :
    (State.slotObstructed s).pending = s.pending ∧
    (State.slotObstructed s).now = s.now ∧
    (State.slotObstructed s).supplies = s.supplies ∧
    (State.slotObstructed s).coin = s.coin ∧
    (State.slotObstructed s).credit = s.credit ∧
    (State.slotObstructed s).comp = s.comp ∧
    (State.slotObstructed s).clock = s.clock ∧
    (State.slotObstructed s).settings = s.settings ∧
    (State.slotObstructed s).hostPort = s.hostPort ∧
    (State.slotObstructed s).servicePort = s.servicePort := by
  dsimp only [State.slotObstructed]
  (repeat' split) <;> simp

@[simp] theorem State.readDoor_frame (reading : DoorReading) (s : State) :
    (State.readDoor reading s).pending = s.pending ∧
    (State.readDoor reading s).now = s.now ∧
    (State.readDoor reading s).supplies = s.supplies ∧
    (State.readDoor reading s).coin = s.coin ∧
    (State.readDoor reading s).credit = s.credit ∧
    (State.readDoor reading s).clock = s.clock ∧
    (State.readDoor reading s).settings = s.settings ∧
    (State.readDoor reading s).hostPort = s.hostPort ∧
    (State.readDoor reading s).servicePort = s.servicePort := by
  dsimp only [State.readDoor]
  (repeat' split) <;> simp

@[simp] theorem State.readKey_frame (reading : KeyReading) (s : State) :
    (State.readKey reading s).pending = s.pending ∧
    (State.readKey reading s).now = s.now ∧
    (State.readKey reading s).supplies = s.supplies ∧
    (State.readKey reading s).coin = s.coin ∧
    (State.readKey reading s).credit = s.credit ∧
    (State.readKey reading s).tariff = s.tariff ∧
    (State.readKey reading s).clock = s.clock ∧
    (State.readKey reading s).rating = s.rating ∧
    (State.readKey reading s).line = s.line ∧
    (State.readKey reading s).session = s.session ∧
    (State.readKey reading s).sup = s.sup ∧
    (State.readKey reading s).report = s.report ∧
    (State.readKey reading s).settings = s.settings ∧
    (State.readKey reading s).attention = s.attention ∧
    (State.readKey reading s).hostPort = s.hostPort ∧
    (State.readKey reading s).servicePort = s.servicePort := by
  dsimp only [State.readKey]
  (repeat' split) <;> simp

@[simp] theorem State.closeTally_frame (s : State) :
    (State.closeTally s).pending = s.pending ∧
    (State.closeTally s).now = s.now ∧
    (State.closeTally s).supplies = s.supplies ∧
    (State.closeTally s).coin = s.coin ∧
    (State.closeTally s).credit = s.credit ∧
    (State.closeTally s).clock = s.clock ∧
    (State.closeTally s).settings = s.settings ∧
    (State.closeTally s).hostPort = s.hostPort ∧
    (State.closeTally s).servicePort = s.servicePort := by
  dsimp only [State.closeTally]
  (repeat' split) <;> simp

@[simp] theorem State.dropHeldCollect_frame (s : State) :
    (State.dropHeldCollect s).pending = s.pending ∧
    (State.dropHeldCollect s).now = s.now ∧
    (State.dropHeldCollect s).supplies = s.supplies ∧
    (State.dropHeldCollect s).tariff = s.tariff ∧
    (State.dropHeldCollect s).clock = s.clock ∧
    (State.dropHeldCollect s).line = s.line ∧
    (State.dropHeldCollect s).session = s.session ∧
    (State.dropHeldCollect s).sup = s.sup ∧
    (State.dropHeldCollect s).report = s.report ∧
    (State.dropHeldCollect s).settings = s.settings ∧
    (State.dropHeldCollect s).attention = s.attention ∧
    (State.dropHeldCollect s).hostPort = s.hostPort ∧
    (State.dropHeldCollect s).servicePort = s.servicePort := by
  dsimp only [State.dropHeldCollect]
  (repeat' split) <;> simp

@[simp] theorem State.removeCashbox_frame (s : State) :
    (State.removeCashbox s).pending = s.pending ∧
    (State.removeCashbox s).now = s.now ∧
    (State.removeCashbox s).supplies = s.supplies ∧
    (State.removeCashbox s).clock = s.clock ∧
    (State.removeCashbox s).settings = s.settings ∧
    (State.removeCashbox s).hostPort = s.hostPort ∧
    (State.removeCashbox s).servicePort = s.servicePort := by
  dsimp only [State.removeCashbox]
  (repeat' split) <;> simp

@[simp] theorem State.insertCashbox_frame (s : State) :
    (State.insertCashbox s).pending = s.pending ∧
    (State.insertCashbox s).now = s.now ∧
    (State.insertCashbox s).supplies = s.supplies ∧
    (State.insertCashbox s).coin = s.coin ∧
    (State.insertCashbox s).credit = s.credit ∧
    (State.insertCashbox s).tariff = s.tariff ∧
    (State.insertCashbox s).clock = s.clock ∧
    (State.insertCashbox s).rating = s.rating ∧
    (State.insertCashbox s).line = s.line ∧
    (State.insertCashbox s).session = s.session ∧
    (State.insertCashbox s).sup = s.sup ∧
    (State.insertCashbox s).report = s.report ∧
    (State.insertCashbox s).settings = s.settings ∧
    (State.insertCashbox s).attention = s.attention ∧
    (State.insertCashbox s).hostPort = s.hostPort ∧
    (State.insertCashbox s).servicePort = s.servicePort := by
  dsimp only [State.insertCashbox]
  (repeat' split) <;> simp

@[simp] theorem State.closeSessionAccount_frame (s : State) :
    (State.closeSessionAccount s).pending = s.pending ∧
    (State.closeSessionAccount s).now = s.now ∧
    (State.closeSessionAccount s).supplies = s.supplies ∧
    (State.closeSessionAccount s).coin = s.coin ∧
    (State.closeSessionAccount s).tariff = s.tariff ∧
    (State.closeSessionAccount s).clock = s.clock ∧
    (State.closeSessionAccount s).rating = s.rating ∧
    (State.closeSessionAccount s).line = s.line ∧
    (State.closeSessionAccount s).session = s.session ∧
    (State.closeSessionAccount s).sup = s.sup ∧
    (State.closeSessionAccount s).report = s.report ∧
    (State.closeSessionAccount s).settings = s.settings ∧
    (State.closeSessionAccount s).attention = s.attention ∧
    (State.closeSessionAccount s).hostPort = s.hostPort ∧
    (State.closeSessionAccount s).servicePort = s.servicePort := by
  dsimp only [State.closeSessionAccount]
  (repeat' split) <;> simp

@[simp] theorem State.evaluateTable_frame (s : State) :
    (State.evaluateTable s).pending = s.pending ∧
    (State.evaluateTable s).now = s.now ∧
    (State.evaluateTable s).supplies = s.supplies ∧
    (State.evaluateTable s).coin = s.coin ∧
    (State.evaluateTable s).credit = s.credit ∧
    (State.evaluateTable s).comp = s.comp ∧
    (State.evaluateTable s).clock = s.clock ∧
    (State.evaluateTable s).rating = s.rating ∧
    (State.evaluateTable s).line = s.line ∧
    (State.evaluateTable s).session = s.session ∧
    (State.evaluateTable s).sup = s.sup ∧
    (State.evaluateTable s).report = s.report ∧
    (State.evaluateTable s).settings = s.settings ∧
    (State.evaluateTable s).hostPort = s.hostPort ∧
    (State.evaluateTable s).servicePort = s.servicePort := by
  dsimp only [State.evaluateTable]
  (repeat' split) <;> simp

@[simp] theorem State.dailyReport_frame (s : State) :
    (State.dailyReport s).pending = s.pending ∧
    (State.dailyReport s).now = s.now ∧
    (State.dailyReport s).supplies = s.supplies ∧
    (State.dailyReport s).coin = s.coin ∧
    (State.dailyReport s).credit = s.credit ∧
    (State.dailyReport s).comp = s.comp ∧
    (State.dailyReport s).tariff = s.tariff ∧
    (State.dailyReport s).clock = s.clock ∧
    (State.dailyReport s).rating = s.rating ∧
    (State.dailyReport s).line = s.line ∧
    (State.dailyReport s).session = s.session ∧
    (State.dailyReport s).sup = s.sup ∧
    (State.dailyReport s).settings = s.settings ∧
    (State.dailyReport s).attention = s.attention ∧
    (State.dailyReport s).hostPort = s.hostPort ∧
    (State.dailyReport s).servicePort = s.servicePort := by
  dsimp only [State.dailyReport]
  (repeat' split) <;> simp

@[simp] theorem State.minuteEvent_frame (s : State) :
    (State.minuteEvent s).pending = s.pending ∧
    (State.minuteEvent s).now = s.now ∧
    (State.minuteEvent s).supplies = s.supplies ∧
    (State.minuteEvent s).coin = s.coin ∧
    (State.minuteEvent s).credit = s.credit ∧
    (State.minuteEvent s).comp = s.comp ∧
    (State.minuteEvent s).rating = s.rating ∧
    (State.minuteEvent s).line = s.line ∧
    (State.minuteEvent s).session = s.session ∧
    (State.minuteEvent s).sup = s.sup ∧
    (State.minuteEvent s).settings = s.settings ∧
    (State.minuteEvent s).hostPort = s.hostPort ∧
    (State.minuteEvent s).servicePort = s.servicePort := by
  dsimp only [State.minuteEvent]
  (repeat' split) <;> simp

@[simp] theorem State.advanceClock_frame (s : State) :
    (State.advanceClock s).pending = s.pending ∧
    (State.advanceClock s).supplies = s.supplies ∧
    (State.advanceClock s).coin = s.coin ∧
    (State.advanceClock s).credit = s.credit ∧
    (State.advanceClock s).comp = s.comp ∧
    (State.advanceClock s).tariff = s.tariff ∧
    (State.advanceClock s).rating = s.rating ∧
    (State.advanceClock s).line = s.line ∧
    (State.advanceClock s).session = s.session ∧
    (State.advanceClock s).sup = s.sup ∧
    (State.advanceClock s).report = s.report ∧
    (State.advanceClock s).settings = s.settings ∧
    (State.advanceClock s).attention = s.attention ∧
    (State.advanceClock s).hostPort = s.hostPort ∧
    (State.advanceClock s).servicePort = s.servicePort := by
  dsimp only [State.advanceClock]
  (repeat' split) <;> simp

@[simp] theorem State.clockTick_frame (s : State) :
    (State.clockTick s).pending = s.pending ∧
    (State.clockTick s).supplies = s.supplies ∧
    (State.clockTick s).coin = s.coin ∧
    (State.clockTick s).credit = s.credit ∧
    (State.clockTick s).comp = s.comp ∧
    (State.clockTick s).settings = s.settings ∧
    (State.clockTick s).hostPort = s.hostPort ∧
    (State.clockTick s).servicePort = s.servicePort := by
  dsimp only [State.clockTick]
  (repeat' split) <;> simp

@[simp] theorem State.beginStep_frame (call : CallInfo) (c : RatedCall) (s : State) :
    (State.beginStep call c s).pending = s.pending ∧
    (State.beginStep call c s).now = s.now ∧
    (State.beginStep call c s).supplies = s.supplies ∧
    (State.beginStep call c s).clock = s.clock ∧
    (State.beginStep call c s).sup = s.sup ∧
    (State.beginStep call c s).report = s.report ∧
    (State.beginStep call c s).settings = s.settings ∧
    (State.beginStep call c s).hostPort = s.hostPort ∧
    (State.beginStep call c s).servicePort = s.servicePort := by
  dsimp only [State.beginStep]
  (repeat' split) <;> simp

@[simp] theorem State.stepBoundary_frame (s : State) :
    (State.stepBoundary s).pending = s.pending ∧
    (State.stepBoundary s).supplies = s.supplies ∧
    (State.stepBoundary s).clock = s.clock ∧
    (State.stepBoundary s).sup = s.sup ∧
    (State.stepBoundary s).report = s.report ∧
    (State.stepBoundary s).settings = s.settings ∧
    (State.stepBoundary s).hostPort = s.hostPort ∧
    (State.stepBoundary s).servicePort = s.servicePort := by
  dsimp only [State.stepBoundary]
  (repeat' split) <;> simp

@[simp] theorem State.startWarningTone_frame (s : State) :
    (State.startWarningTone s).pending = s.pending ∧
    (State.startWarningTone s).supplies = s.supplies ∧
    (State.startWarningTone s).coin = s.coin ∧
    (State.startWarningTone s).credit = s.credit ∧
    (State.startWarningTone s).comp = s.comp ∧
    (State.startWarningTone s).tariff = s.tariff ∧
    (State.startWarningTone s).clock = s.clock ∧
    (State.startWarningTone s).line = s.line ∧
    (State.startWarningTone s).session = s.session ∧
    (State.startWarningTone s).sup = s.sup ∧
    (State.startWarningTone s).report = s.report ∧
    (State.startWarningTone s).settings = s.settings ∧
    (State.startWarningTone s).attention = s.attention ∧
    (State.startWarningTone s).hostPort = s.hostPort ∧
    (State.startWarningTone s).servicePort = s.servicePort := by
  dsimp only [State.startWarningTone]
  (repeat' split) <;> simp

@[simp] theorem State.makeGrant_frame (s : State) :
    (State.makeGrant s).pending = s.pending ∧
    (State.makeGrant s).now = s.now ∧
    (State.makeGrant s).supplies = s.supplies ∧
    (State.makeGrant s).coin = s.coin ∧
    (State.makeGrant s).credit = s.credit ∧
    (State.makeGrant s).comp = s.comp ∧
    (State.makeGrant s).tariff = s.tariff ∧
    (State.makeGrant s).clock = s.clock ∧
    (State.makeGrant s).rating = s.rating ∧
    (State.makeGrant s).session = s.session ∧
    (State.makeGrant s).sup = s.sup ∧
    (State.makeGrant s).settings = s.settings ∧
    (State.makeGrant s).attention = s.attention ∧
    (State.makeGrant s).hostPort = s.hostPort ∧
    (State.makeGrant s).servicePort = s.servicePort := by
  dsimp only [State.makeGrant]
  (repeat' split) <;> simp

@[simp] theorem State.seeCurrent_frame (s : State) :
    (State.seeCurrent s).pending = s.pending ∧
    (State.seeCurrent s).now = s.now ∧
    (State.seeCurrent s).supplies = s.supplies ∧
    (State.seeCurrent s).coin = s.coin ∧
    (State.seeCurrent s).credit = s.credit ∧
    (State.seeCurrent s).comp = s.comp ∧
    (State.seeCurrent s).tariff = s.tariff ∧
    (State.seeCurrent s).clock = s.clock ∧
    (State.seeCurrent s).rating = s.rating ∧
    (State.seeCurrent s).session = s.session ∧
    (State.seeCurrent s).sup = s.sup ∧
    (State.seeCurrent s).report = s.report ∧
    (State.seeCurrent s).settings = s.settings ∧
    (State.seeCurrent s).attention = s.attention ∧
    (State.seeCurrent s).hostPort = s.hostPort ∧
    (State.seeCurrent s).servicePort = s.servicePort := by
  dsimp only [State.seeCurrent]
  (repeat' split) <;> simp

@[simp] theorem State.failDialTone_frame (s : State) :
    (State.failDialTone s).pending = s.pending ∧
    (State.failDialTone s).supplies = s.supplies ∧
    (State.failDialTone s).coin = s.coin ∧
    (State.failDialTone s).credit = s.credit ∧
    (State.failDialTone s).comp = s.comp ∧
    (State.failDialTone s).clock = s.clock ∧
    (State.failDialTone s).settings = s.settings ∧
    (State.failDialTone s).hostPort = s.hostPort ∧
    (State.failDialTone s).servicePort = s.servicePort := by
  dsimp only [State.failDialTone]
  (repeat' split) <;> simp

@[simp] theorem State.endSeizure_frame (s : State) :
    (State.endSeizure s).pending = s.pending ∧
    (State.endSeizure s).supplies = s.supplies ∧
    (State.endSeizure s).coin = s.coin ∧
    (State.endSeizure s).credit = s.credit ∧
    (State.endSeizure s).comp = s.comp ∧
    (State.endSeizure s).clock = s.clock ∧
    (State.endSeizure s).settings = s.settings ∧
    (State.endSeizure s).hostPort = s.hostPort ∧
    (State.endSeizure s).servicePort = s.servicePort := by
  dsimp only [State.endSeizure]
  (repeat' split) <;> simp

@[simp] theorem State.hearDialTone_frame (s : State) :
    (State.hearDialTone s).pending = s.pending ∧
    (State.hearDialTone s).now = s.now ∧
    (State.hearDialTone s).supplies = s.supplies ∧
    (State.hearDialTone s).coin = s.coin ∧
    (State.hearDialTone s).credit = s.credit ∧
    (State.hearDialTone s).comp = s.comp ∧
    (State.hearDialTone s).clock = s.clock ∧
    (State.hearDialTone s).report = s.report ∧
    (State.hearDialTone s).settings = s.settings ∧
    (State.hearDialTone s).hostPort = s.hostPort ∧
    (State.hearDialTone s).servicePort = s.servicePort := by
  dsimp only [State.hearDialTone]
  (repeat' split) <;> simp

@[simp] theorem State.endDialTone_frame (s : State) :
    (State.endDialTone s).pending = s.pending ∧
    (State.endDialTone s).supplies = s.supplies ∧
    (State.endDialTone s).coin = s.coin ∧
    (State.endDialTone s).credit = s.credit ∧
    (State.endDialTone s).comp = s.comp ∧
    (State.endDialTone s).clock = s.clock ∧
    (State.endDialTone s).settings = s.settings ∧
    (State.endDialTone s).hostPort = s.hostPort ∧
    (State.endDialTone s).servicePort = s.servicePort := by
  dsimp only [State.endDialTone]
  (repeat' split) <;> simp

@[simp] theorem State.passDialPoint_frame (s : State) :
    (State.passDialPoint s).pending = s.pending ∧
    (State.passDialPoint s).supplies = s.supplies ∧
    (State.passDialPoint s).coin = s.coin ∧
    (State.passDialPoint s).credit = s.credit ∧
    (State.passDialPoint s).comp = s.comp ∧
    (State.passDialPoint s).tariff = s.tariff ∧
    (State.passDialPoint s).clock = s.clock ∧
    (State.passDialPoint s).rating = s.rating ∧
    (State.passDialPoint s).session = s.session ∧
    (State.passDialPoint s).sup = s.sup ∧
    (State.passDialPoint s).report = s.report ∧
    (State.passDialPoint s).settings = s.settings ∧
    (State.passDialPoint s).attention = s.attention ∧
    (State.passDialPoint s).hostPort = s.hostPort ∧
    (State.passDialPoint s).servicePort = s.servicePort := by
  dsimp only [State.passDialPoint]
  (repeat' split) <;> simp

@[simp] theorem State.startRinging_frame (s : State) :
    (State.startRinging s).pending = s.pending ∧
    (State.startRinging s).now = s.now ∧
    (State.startRinging s).supplies = s.supplies ∧
    (State.startRinging s).coin = s.coin ∧
    (State.startRinging s).credit = s.credit ∧
    (State.startRinging s).comp = s.comp ∧
    (State.startRinging s).tariff = s.tariff ∧
    (State.startRinging s).clock = s.clock ∧
    (State.startRinging s).rating = s.rating ∧
    (State.startRinging s).line = s.line ∧
    (State.startRinging s).sup = s.sup ∧
    (State.startRinging s).report = s.report ∧
    (State.startRinging s).settings = s.settings ∧
    (State.startRinging s).attention = s.attention ∧
    (State.startRinging s).hostPort = s.hostPort ∧
    (State.startRinging s).servicePort = s.servicePort := by
  dsimp only [State.startRinging]
  (repeat' split) <;> simp

@[simp] theorem State.endDialling_frame (s : State) :
    (State.endDialling s).pending = s.pending ∧
    (State.endDialling s).supplies = s.supplies ∧
    (State.endDialling s).coin = s.coin ∧
    (State.endDialling s).credit = s.credit ∧
    (State.endDialling s).comp = s.comp ∧
    (State.endDialling s).tariff = s.tariff ∧
    (State.endDialling s).clock = s.clock ∧
    (State.endDialling s).rating = s.rating ∧
    (State.endDialling s).sup = s.sup ∧
    (State.endDialling s).report = s.report ∧
    (State.endDialling s).settings = s.settings ∧
    (State.endDialling s).attention = s.attention ∧
    (State.endDialling s).hostPort = s.hostPort ∧
    (State.endDialling s).servicePort = s.servicePort := by
  dsimp only [State.endDialling]
  (repeat' split) <;> simp

@[simp] theorem State.hearBusy_frame (s : State) :
    (State.hearBusy s).pending = s.pending ∧
    (State.hearBusy s).now = s.now ∧
    (State.hearBusy s).supplies = s.supplies ∧
    (State.hearBusy s).coin = s.coin ∧
    (State.hearBusy s).credit = s.credit ∧
    (State.hearBusy s).comp = s.comp ∧
    (State.hearBusy s).clock = s.clock ∧
    (State.hearBusy s).settings = s.settings ∧
    (State.hearBusy s).hostPort = s.hostPort ∧
    (State.hearBusy s).servicePort = s.servicePort := by
  dsimp only [State.hearBusy]
  (repeat' split) <;> simp

@[simp] theorem State.reversePolarity_frame (s : State) :
    (State.reversePolarity s).pending = s.pending ∧
    (State.reversePolarity s).now = s.now ∧
    (State.reversePolarity s).supplies = s.supplies ∧
    (State.reversePolarity s).clock = s.clock ∧
    (State.reversePolarity s).settings = s.settings ∧
    (State.reversePolarity s).hostPort = s.hostPort ∧
    (State.reversePolarity s).servicePort = s.servicePort := by
  dsimp only [State.reversePolarity]
  (repeat' split) <;> simp

@[simp] theorem State.endPresumedDelay_frame (s : State) :
    (State.endPresumedDelay s).pending = s.pending ∧
    (State.endPresumedDelay s).supplies = s.supplies ∧
    (State.endPresumedDelay s).clock = s.clock ∧
    (State.endPresumedDelay s).settings = s.settings ∧
    (State.endPresumedDelay s).hostPort = s.hostPort ∧
    (State.endPresumedDelay s).servicePort = s.servicePort := by
  dsimp only [State.endPresumedDelay]
  (repeat' split) <;> simp

@[simp] theorem State.endAnswerWait_frame (s : State) :
    (State.endAnswerWait s).pending = s.pending ∧
    (State.endAnswerWait s).supplies = s.supplies ∧
    (State.endAnswerWait s).coin = s.coin ∧
    (State.endAnswerWait s).credit = s.credit ∧
    (State.endAnswerWait s).comp = s.comp ∧
    (State.endAnswerWait s).clock = s.clock ∧
    (State.endAnswerWait s).settings = s.settings ∧
    (State.endAnswerWait s).hostPort = s.hostPort ∧
    (State.endAnswerWait s).servicePort = s.servicePort := by
  dsimp only [State.endAnswerWait]
  (repeat' split) <;> simp

@[simp] theorem State.hearAcknowledge_frame (s : State) :
    (State.hearAcknowledge s).pending = s.pending ∧
    (State.hearAcknowledge s).now = s.now ∧
    (State.hearAcknowledge s).supplies = s.supplies ∧
    (State.hearAcknowledge s).coin = s.coin ∧
    (State.hearAcknowledge s).credit = s.credit ∧
    (State.hearAcknowledge s).clock = s.clock ∧
    (State.hearAcknowledge s).settings = s.settings ∧
    (State.hearAcknowledge s).hostPort = s.hostPort ∧
    (State.hearAcknowledge s).servicePort = s.servicePort := by
  dsimp only [State.hearAcknowledge]
  (repeat' split) <;> simp

@[simp] theorem State.repeatReport_frame (s : State) :
    (State.repeatReport s).pending = s.pending ∧
    (State.repeatReport s).now = s.now ∧
    (State.repeatReport s).supplies = s.supplies ∧
    (State.repeatReport s).coin = s.coin ∧
    (State.repeatReport s).credit = s.credit ∧
    (State.repeatReport s).comp = s.comp ∧
    (State.repeatReport s).tariff = s.tariff ∧
    (State.repeatReport s).clock = s.clock ∧
    (State.repeatReport s).rating = s.rating ∧
    (State.repeatReport s).session = s.session ∧
    (State.repeatReport s).sup = s.sup ∧
    (State.repeatReport s).settings = s.settings ∧
    (State.repeatReport s).attention = s.attention ∧
    (State.repeatReport s).hostPort = s.hostPort ∧
    (State.repeatReport s).servicePort = s.servicePort := by
  dsimp only [State.repeatReport]
  (repeat' split) <;> simp

@[simp] theorem State.hearRefuse_frame (s : State) :
    (State.hearRefuse s).pending = s.pending ∧
    (State.hearRefuse s).now = s.now ∧
    (State.hearRefuse s).supplies = s.supplies ∧
    (State.hearRefuse s).coin = s.coin ∧
    (State.hearRefuse s).credit = s.credit ∧
    (State.hearRefuse s).comp = s.comp ∧
    (State.hearRefuse s).clock = s.clock ∧
    (State.hearRefuse s).settings = s.settings ∧
    (State.hearRefuse s).hostPort = s.hostPort ∧
    (State.hearRefuse s).servicePort = s.servicePort := by
  dsimp only [State.hearRefuse]
  (repeat' split) <;> simp

@[simp] theorem State.reportSent_frame (s : State) :
    (State.reportSent s).pending = s.pending ∧
    (State.reportSent s).now = s.now ∧
    (State.reportSent s).supplies = s.supplies ∧
    (State.reportSent s).coin = s.coin ∧
    (State.reportSent s).credit = s.credit ∧
    (State.reportSent s).comp = s.comp ∧
    (State.reportSent s).tariff = s.tariff ∧
    (State.reportSent s).clock = s.clock ∧
    (State.reportSent s).rating = s.rating ∧
    (State.reportSent s).line = s.line ∧
    (State.reportSent s).session = s.session ∧
    (State.reportSent s).sup = s.sup ∧
    (State.reportSent s).settings = s.settings ∧
    (State.reportSent s).attention = s.attention ∧
    (State.reportSent s).hostPort = s.hostPort ∧
    (State.reportSent s).servicePort = s.servicePort := by
  dsimp only [State.reportSent]
  (repeat' split) <;> simp

@[simp] theorem State.endToneString_frame (s : State) :
    (State.endToneString s).pending = s.pending ∧
    (State.endToneString s).supplies = s.supplies ∧
    (State.endToneString s).coin = s.coin ∧
    (State.endToneString s).credit = s.credit ∧
    (State.endToneString s).comp = s.comp ∧
    (State.endToneString s).tariff = s.tariff ∧
    (State.endToneString s).clock = s.clock ∧
    (State.endToneString s).rating = s.rating ∧
    (State.endToneString s).session = s.session ∧
    (State.endToneString s).sup = s.sup ∧
    (State.endToneString s).settings = s.settings ∧
    (State.endToneString s).attention = s.attention ∧
    (State.endToneString s).hostPort = s.hostPort ∧
    (State.endToneString s).servicePort = s.servicePort := by
  dsimp only [State.endToneString]
  (repeat' split) <;> simp

@[simp] theorem State.endReplyWait_frame (s : State) :
    (State.endReplyWait s).pending = s.pending ∧
    (State.endReplyWait s).supplies = s.supplies ∧
    (State.endReplyWait s).coin = s.coin ∧
    (State.endReplyWait s).credit = s.credit ∧
    (State.endReplyWait s).comp = s.comp ∧
    (State.endReplyWait s).clock = s.clock ∧
    (State.endReplyWait s).settings = s.settings ∧
    (State.endReplyWait s).hostPort = s.hostPort ∧
    (State.endReplyWait s).servicePort = s.servicePort := by
  dsimp only [State.endReplyWait]
  (repeat' split) <;> simp

@[simp] theorem State.endGuard_frame (s : State) :
    (State.endGuard s).pending = s.pending ∧
    (State.endGuard s).supplies = s.supplies ∧
    (State.endGuard s).coin = s.coin ∧
    (State.endGuard s).credit = s.credit ∧
    (State.endGuard s).comp = s.comp ∧
    (State.endGuard s).tariff = s.tariff ∧
    (State.endGuard s).clock = s.clock ∧
    (State.endGuard s).rating = s.rating ∧
    (State.endGuard s).session = s.session ∧
    (State.endGuard s).sup = s.sup ∧
    (State.endGuard s).settings = s.settings ∧
    (State.endGuard s).attention = s.attention ∧
    (State.endGuard s).hostPort = s.hostPort ∧
    (State.endGuard s).servicePort = s.servicePort := by
  dsimp only [State.endGuard]
  (repeat' split) <;> simp

@[simp] theorem State.loseLine_frame (s : State) :
    (State.loseLine s).pending = s.pending ∧
    (State.loseLine s).now = s.now ∧
    (State.loseLine s).supplies = s.supplies ∧
    (State.loseLine s).coin = s.coin ∧
    (State.loseLine s).credit = s.credit ∧
    (State.loseLine s).comp = s.comp ∧
    (State.loseLine s).clock = s.clock ∧
    (State.loseLine s).settings = s.settings ∧
    (State.loseLine s).hostPort = s.hostPort ∧
    (State.loseLine s).servicePort = s.servicePort := by
  dsimp only [State.loseLine]
  (repeat' split) <;> simp

@[simp] theorem State.lineAbsent_frame (s : State) :
    (State.lineAbsent s).pending = s.pending ∧
    (State.lineAbsent s).now = s.now ∧
    (State.lineAbsent s).supplies = s.supplies ∧
    (State.lineAbsent s).coin = s.coin ∧
    (State.lineAbsent s).credit = s.credit ∧
    (State.lineAbsent s).comp = s.comp ∧
    (State.lineAbsent s).clock = s.clock ∧
    (State.lineAbsent s).settings = s.settings ∧
    (State.lineAbsent s).hostPort = s.hostPort ∧
    (State.lineAbsent s).servicePort = s.servicePort := by
  dsimp only [State.lineAbsent]
  (repeat' split) <;> simp

@[simp] theorem State.linePresent_frame (s : State) :
    (State.linePresent s).pending = s.pending ∧
    (State.linePresent s).now = s.now ∧
    (State.linePresent s).supplies = s.supplies ∧
    (State.linePresent s).coin = s.coin ∧
    (State.linePresent s).credit = s.credit ∧
    (State.linePresent s).comp = s.comp ∧
    (State.linePresent s).clock = s.clock ∧
    (State.linePresent s).settings = s.settings ∧
    (State.linePresent s).hostPort = s.hostPort ∧
    (State.linePresent s).servicePort = s.servicePort := by
  dsimp only [State.linePresent]
  (repeat' split) <;> simp

@[simp] theorem State.expireRetry_frame (s : State) :
    (State.expireRetry s).pending = s.pending ∧
    (State.expireRetry s).supplies = s.supplies ∧
    (State.expireRetry s).coin = s.coin ∧
    (State.expireRetry s).credit = s.credit ∧
    (State.expireRetry s).comp = s.comp ∧
    (State.expireRetry s).clock = s.clock ∧
    (State.expireRetry s).settings = s.settings ∧
    (State.expireRetry s).hostPort = s.hostPort ∧
    (State.expireRetry s).servicePort = s.servicePort := by
  dsimp only [State.expireRetry]
  (repeat' split) <;> simp

@[simp] theorem State.liftHandset_frame (s : State) :
    (State.liftHandset s).pending = s.pending ∧
    (State.liftHandset s).now = s.now ∧
    (State.liftHandset s).supplies = s.supplies ∧
    (State.liftHandset s).coin = s.coin ∧
    (State.liftHandset s).comp = s.comp ∧
    (State.liftHandset s).clock = s.clock ∧
    (State.liftHandset s).settings = s.settings ∧
    (State.liftHandset s).hostPort = s.hostPort ∧
    (State.liftHandset s).servicePort = s.servicePort := by
  dsimp only [State.liftHandset]
  (repeat' split) <;> simp

@[simp] theorem State.replaceHandset_frame (s : State) :
    (State.replaceHandset s).pending = s.pending ∧
    (State.replaceHandset s).now = s.now ∧
    (State.replaceHandset s).supplies = s.supplies ∧
    (State.replaceHandset s).comp = s.comp ∧
    (State.replaceHandset s).clock = s.clock ∧
    (State.replaceHandset s).sup = s.sup ∧
    (State.replaceHandset s).report = s.report ∧
    (State.replaceHandset s).settings = s.settings ∧
    (State.replaceHandset s).hostPort = s.hostPort ∧
    (State.replaceHandset s).servicePort = s.servicePort := by
  dsimp only [State.replaceHandset]
  (repeat' split) <;> simp

@[simp] theorem State.endClearing_frame (s : State) :
    (State.endClearing s).pending = s.pending ∧
    (State.endClearing s).now = s.now ∧
    (State.endClearing s).supplies = s.supplies ∧
    (State.endClearing s).coin = s.coin ∧
    (State.endClearing s).comp = s.comp ∧
    (State.endClearing s).clock = s.clock ∧
    (State.endClearing s).settings = s.settings ∧
    (State.endClearing s).hostPort = s.hostPort ∧
    (State.endClearing s).servicePort = s.servicePort := by
  dsimp only [State.endClearing]
  (repeat' split) <;> simp

@[simp] theorem State.setKey_frame (key : Key) (x : KeyState) (s : State) :
    (State.setKey key x s).pending = s.pending ∧
    (State.setKey key x s).now = s.now ∧
    (State.setKey key x s).supplies = s.supplies ∧
    (State.setKey key x s).coin = s.coin ∧
    (State.setKey key x s).credit = s.credit ∧
    (State.setKey key x s).comp = s.comp ∧
    (State.setKey key x s).tariff = s.tariff ∧
    (State.setKey key x s).clock = s.clock ∧
    (State.setKey key x s).rating = s.rating ∧
    (State.setKey key x s).line = s.line ∧
    (State.setKey key x s).sup = s.sup ∧
    (State.setKey key x s).report = s.report ∧
    (State.setKey key x s).settings = s.settings ∧
    (State.setKey key x s).attention = s.attention ∧
    (State.setKey key x s).hostPort = s.hostPort ∧
    (State.setKey key x s).servicePort = s.servicePort := by
  dsimp only [State.setKey]
  (repeat' split) <;> simp

@[simp] theorem State.appendSymbol_frame (sym : Symbol) (s : State) :
    (State.appendSymbol sym s).pending = s.pending ∧
    (State.appendSymbol sym s).now = s.now ∧
    (State.appendSymbol sym s).supplies = s.supplies ∧
    (State.appendSymbol sym s).coin = s.coin ∧
    (State.appendSymbol sym s).credit = s.credit ∧
    (State.appendSymbol sym s).comp = s.comp ∧
    (State.appendSymbol sym s).clock = s.clock ∧
    (State.appendSymbol sym s).sup = s.sup ∧
    (State.appendSymbol sym s).report = s.report ∧
    (State.appendSymbol sym s).settings = s.settings ∧
    (State.appendSymbol sym s).hostPort = s.hostPort ∧
    (State.appendSymbol sym s).servicePort = s.servicePort := by
  dsimp only [State.appendSymbol]
  (repeat' split) <;> simp

@[simp] theorem State.takeSymbol_frame (sym : Symbol) (s : State) :
    (State.takeSymbol sym s).pending = s.pending ∧
    (State.takeSymbol sym s).now = s.now ∧
    (State.takeSymbol sym s).supplies = s.supplies ∧
    (State.takeSymbol sym s).coin = s.coin ∧
    (State.takeSymbol sym s).credit = s.credit ∧
    (State.takeSymbol sym s).comp = s.comp ∧
    (State.takeSymbol sym s).clock = s.clock ∧
    (State.takeSymbol sym s).sup = s.sup ∧
    (State.takeSymbol sym s).report = s.report ∧
    (State.takeSymbol sym s).settings = s.settings ∧
    (State.takeSymbol sym s).hostPort = s.hostPort ∧
    (State.takeSymbol sym s).servicePort = s.servicePort := by
  dsimp only [State.takeSymbol]
  (repeat' split) <;> simp

@[simp] theorem State.takeFollowOn_frame (s : State) :
    (State.takeFollowOn s).pending = s.pending ∧
    (State.takeFollowOn s).now = s.now ∧
    (State.takeFollowOn s).supplies = s.supplies ∧
    (State.takeFollowOn s).coin = s.coin ∧
    (State.takeFollowOn s).credit = s.credit ∧
    (State.takeFollowOn s).comp = s.comp ∧
    (State.takeFollowOn s).clock = s.clock ∧
    (State.takeFollowOn s).sup = s.sup ∧
    (State.takeFollowOn s).report = s.report ∧
    (State.takeFollowOn s).settings = s.settings ∧
    (State.takeFollowOn s).hostPort = s.hostPort ∧
    (State.takeFollowOn s).servicePort = s.servicePort := by
  dsimp only [State.takeFollowOn]
  (repeat' split) <;> simp

@[simp] theorem State.stickKey_frame (key : Key) (s : State) :
    (State.stickKey key s).pending = s.pending ∧
    (State.stickKey key s).supplies = s.supplies ∧
    (State.stickKey key s).coin = s.coin ∧
    (State.stickKey key s).credit = s.credit ∧
    (State.stickKey key s).comp = s.comp ∧
    (State.stickKey key s).clock = s.clock ∧
    (State.stickKey key s).settings = s.settings ∧
    (State.stickKey key s).hostPort = s.hostPort ∧
    (State.stickKey key s).servicePort = s.servicePort := by
  dsimp only [State.stickKey]
  (repeat' split) <;> simp

@[simp] theorem State.releaseKey_frame (key : Key) (s : State) :
    (State.releaseKey key s).pending = s.pending ∧
    (State.releaseKey key s).now = s.now ∧
    (State.releaseKey key s).supplies = s.supplies ∧
    (State.releaseKey key s).coin = s.coin ∧
    (State.releaseKey key s).credit = s.credit ∧
    (State.releaseKey key s).comp = s.comp ∧
    (State.releaseKey key s).clock = s.clock ∧
    (State.releaseKey key s).report = s.report ∧
    (State.releaseKey key s).settings = s.settings ∧
    (State.releaseKey key s).hostPort = s.hostPort ∧
    (State.releaseKey key s).servicePort = s.servicePort := by
  dsimp only [State.releaseKey]
  (repeat' split) <;> simp

@[simp] theorem State.expireFirstSymbol_frame (s : State) :
    (State.expireFirstSymbol s).pending = s.pending ∧
    (State.expireFirstSymbol s).supplies = s.supplies ∧
    (State.expireFirstSymbol s).coin = s.coin ∧
    (State.expireFirstSymbol s).credit = s.credit ∧
    (State.expireFirstSymbol s).comp = s.comp ∧
    (State.expireFirstSymbol s).tariff = s.tariff ∧
    (State.expireFirstSymbol s).clock = s.clock ∧
    (State.expireFirstSymbol s).rating = s.rating ∧
    (State.expireFirstSymbol s).line = s.line ∧
    (State.expireFirstSymbol s).sup = s.sup ∧
    (State.expireFirstSymbol s).report = s.report ∧
    (State.expireFirstSymbol s).settings = s.settings ∧
    (State.expireFirstSymbol s).hostPort = s.hostPort ∧
    (State.expireFirstSymbol s).servicePort = s.servicePort := by
  dsimp only [State.expireFirstSymbol]
  (repeat' split) <;> simp

@[simp] theorem State.expireInterSymbol_frame (s : State) :
    (State.expireInterSymbol s).pending = s.pending ∧
    (State.expireInterSymbol s).supplies = s.supplies ∧
    (State.expireInterSymbol s).coin = s.coin ∧
    (State.expireInterSymbol s).credit = s.credit ∧
    (State.expireInterSymbol s).comp = s.comp ∧
    (State.expireInterSymbol s).clock = s.clock ∧
    (State.expireInterSymbol s).sup = s.sup ∧
    (State.expireInterSymbol s).report = s.report ∧
    (State.expireInterSymbol s).settings = s.settings ∧
    (State.expireInterSymbol s).hostPort = s.hostPort ∧
    (State.expireInterSymbol s).servicePort = s.servicePort := by
  dsimp only [State.expireInterSymbol]
  (repeat' split) <;> simp

@[simp] theorem State.expireCreditWait_frame (s : State) :
    (State.expireCreditWait s).pending = s.pending ∧
    (State.expireCreditWait s).supplies = s.supplies ∧
    (State.expireCreditWait s).coin = s.coin ∧
    (State.expireCreditWait s).credit = s.credit ∧
    (State.expireCreditWait s).comp = s.comp ∧
    (State.expireCreditWait s).clock = s.clock ∧
    (State.expireCreditWait s).sup = s.sup ∧
    (State.expireCreditWait s).report = s.report ∧
    (State.expireCreditWait s).settings = s.settings ∧
    (State.expireCreditWait s).hostPort = s.hostPort ∧
    (State.expireCreditWait s).servicePort = s.servicePort := by
  dsimp only [State.expireCreditWait]
  (repeat' split) <;> simp

@[simp] theorem State.setInput_frame (i : Fin 8) (x : SupervisedInput) (s : State) :
    (State.setInput i x s).pending = s.pending ∧
    (State.setInput i x s).now = s.now ∧
    (State.setInput i x s).supplies = s.supplies ∧
    (State.setInput i x s).coin = s.coin ∧
    (State.setInput i x s).credit = s.credit ∧
    (State.setInput i x s).comp = s.comp ∧
    (State.setInput i x s).tariff = s.tariff ∧
    (State.setInput i x s).clock = s.clock ∧
    (State.setInput i x s).rating = s.rating ∧
    (State.setInput i x s).line = s.line ∧
    (State.setInput i x s).session = s.session ∧
    (State.setInput i x s).report = s.report ∧
    (State.setInput i x s).settings = s.settings ∧
    (State.setInput i x s).attention = s.attention ∧
    (State.setInput i x s).hostPort = s.hostPort ∧
    (State.setInput i x s).servicePort = s.servicePort := by
  dsimp only [State.setInput]
  (repeat' split) <;> simp

@[simp] theorem State.assignInput_frame (i : Fin 8) (a : Assignment) (s : State) :
    (State.assignInput i a s).pending = s.pending ∧
    (State.assignInput i a s).now = s.now ∧
    (State.assignInput i a s).supplies = s.supplies ∧
    (State.assignInput i a s).coin = s.coin ∧
    (State.assignInput i a s).credit = s.credit ∧
    (State.assignInput i a s).comp = s.comp ∧
    (State.assignInput i a s).clock = s.clock ∧
    (State.assignInput i a s).report = s.report ∧
    (State.assignInput i a s).settings = s.settings ∧
    (State.assignInput i a s).hostPort = s.hostPort ∧
    (State.assignInput i a s).servicePort = s.servicePort := by
  dsimp only [State.assignInput]
  (repeat' split) <;> simp

@[simp] theorem State.takeStaged_frame (i : Fin 8) (s : State) :
    (State.takeStaged i s).pending = s.pending ∧
    (State.takeStaged i s).now = s.now ∧
    (State.takeStaged i s).supplies = s.supplies ∧
    (State.takeStaged i s).coin = s.coin ∧
    (State.takeStaged i s).credit = s.credit ∧
    (State.takeStaged i s).comp = s.comp ∧
    (State.takeStaged i s).clock = s.clock ∧
    (State.takeStaged i s).report = s.report ∧
    (State.takeStaged i s).settings = s.settings ∧
    (State.takeStaged i s).hostPort = s.hostPort ∧
    (State.takeStaged i s).servicePort = s.servicePort := by
  dsimp only [State.takeStaged]
  (repeat' split) <;> simp

@[simp] theorem State.unuseInput_frame (i : Fin 8) (a : Assignment) (s : State) :
    (State.unuseInput i a s).pending = s.pending ∧
    (State.unuseInput i a s).now = s.now ∧
    (State.unuseInput i a s).supplies = s.supplies ∧
    (State.unuseInput i a s).coin = s.coin ∧
    (State.unuseInput i a s).credit = s.credit ∧
    (State.unuseInput i a s).comp = s.comp ∧
    (State.unuseInput i a s).clock = s.clock ∧
    (State.unuseInput i a s).report = s.report ∧
    (State.unuseInput i a s).settings = s.settings ∧
    (State.unuseInput i a s).hostPort = s.hostPort ∧
    (State.unuseInput i a s).servicePort = s.servicePort := by
  dsimp only [State.unuseInput]
  (repeat' split) <;> simp

@[simp] theorem State.inputOccurs_frame (i : Fin 8) (s : State) :
    (State.inputOccurs i s).pending = s.pending ∧
    (State.inputOccurs i s).now = s.now ∧
    (State.inputOccurs i s).supplies = s.supplies ∧
    (State.inputOccurs i s).coin = s.coin ∧
    (State.inputOccurs i s).credit = s.credit ∧
    (State.inputOccurs i s).comp = s.comp ∧
    (State.inputOccurs i s).clock = s.clock ∧
    (State.inputOccurs i s).settings = s.settings ∧
    (State.inputOccurs i s).hostPort = s.hostPort ∧
    (State.inputOccurs i s).servicePort = s.servicePort := by
  dsimp only [State.inputOccurs]
  (repeat' split) <;> simp

@[simp] theorem State.countEdge_frame (i : Fin 8) (s : State) :
    (State.countEdge i s).pending = s.pending ∧
    (State.countEdge i s).now = s.now ∧
    (State.countEdge i s).supplies = s.supplies ∧
    (State.countEdge i s).coin = s.coin ∧
    (State.countEdge i s).credit = s.credit ∧
    (State.countEdge i s).comp = s.comp ∧
    (State.countEdge i s).clock = s.clock ∧
    (State.countEdge i s).settings = s.settings ∧
    (State.countEdge i s).hostPort = s.hostPort ∧
    (State.countEdge i s).servicePort = s.servicePort := by
  dsimp only [State.countEdge]
  (repeat' split) <;> simp

@[simp] theorem State.takeEdge_frame (i : Fin 8) (s : State) :
    (State.takeEdge i s).pending = s.pending ∧
    (State.takeEdge i s).now = s.now ∧
    (State.takeEdge i s).supplies = s.supplies ∧
    (State.takeEdge i s).coin = s.coin ∧
    (State.takeEdge i s).credit = s.credit ∧
    (State.takeEdge i s).comp = s.comp ∧
    (State.takeEdge i s).clock = s.clock ∧
    (State.takeEdge i s).settings = s.settings ∧
    (State.takeEdge i s).hostPort = s.hostPort ∧
    (State.takeEdge i s).servicePort = s.servicePort := by
  dsimp only [State.takeEdge]
  (repeat' split) <;> simp

@[simp] theorem State.activeEdge_frame (i : Fin 8) (s : State) :
    (State.activeEdge i s).pending = s.pending ∧
    (State.activeEdge i s).now = s.now ∧
    (State.activeEdge i s).supplies = s.supplies ∧
    (State.activeEdge i s).coin = s.coin ∧
    (State.activeEdge i s).credit = s.credit ∧
    (State.activeEdge i s).comp = s.comp ∧
    (State.activeEdge i s).clock = s.clock ∧
    (State.activeEdge i s).settings = s.settings ∧
    (State.activeEdge i s).hostPort = s.hostPort ∧
    (State.activeEdge i s).servicePort = s.servicePort := by
  dsimp only [State.activeEdge]
  (repeat' split) <;> simp

@[simp] theorem State.inactiveChange_frame (i : Fin 8) (s : State) :
    (State.inactiveChange i s).pending = s.pending ∧
    (State.inactiveChange i s).now = s.now ∧
    (State.inactiveChange i s).supplies = s.supplies ∧
    (State.inactiveChange i s).coin = s.coin ∧
    (State.inactiveChange i s).credit = s.credit ∧
    (State.inactiveChange i s).comp = s.comp ∧
    (State.inactiveChange i s).clock = s.clock ∧
    (State.inactiveChange i s).report = s.report ∧
    (State.inactiveChange i s).settings = s.settings ∧
    (State.inactiveChange i s).hostPort = s.hostPort ∧
    (State.inactiveChange i s).servicePort = s.servicePort := by
  dsimp only [State.inactiveChange]
  (repeat' split) <;> simp

@[simp] theorem State.endWindow_frame (i : Fin 8) (s : State) :
    (State.endWindow i s).pending = s.pending ∧
    (State.endWindow i s).supplies = s.supplies ∧
    (State.endWindow i s).coin = s.coin ∧
    (State.endWindow i s).credit = s.credit ∧
    (State.endWindow i s).comp = s.comp ∧
    (State.endWindow i s).clock = s.clock ∧
    (State.endWindow i s).report = s.report ∧
    (State.endWindow i s).settings = s.settings ∧
    (State.endWindow i s).hostPort = s.hostPort ∧
    (State.endWindow i s).servicePort = s.servicePort := by
  dsimp only [State.endWindow]
  (repeat' split) <;> simp

@[simp] theorem State.endHoldOff_frame (i : Fin 8) (s : State) :
    (State.endHoldOff i s).pending = s.pending ∧
    (State.endHoldOff i s).supplies = s.supplies ∧
    (State.endHoldOff i s).coin = s.coin ∧
    (State.endHoldOff i s).credit = s.credit ∧
    (State.endHoldOff i s).comp = s.comp ∧
    (State.endHoldOff i s).clock = s.clock ∧
    (State.endHoldOff i s).report = s.report ∧
    (State.endHoldOff i s).settings = s.settings ∧
    (State.endHoldOff i s).hostPort = s.hostPort ∧
    (State.endHoldOff i s).servicePort = s.servicePort := by
  dsimp only [State.endHoldOff]
  (repeat' split) <;> simp

@[simp] theorem State.endClearDelay_frame (i : Fin 8) (s : State) :
    (State.endClearDelay i s).pending = s.pending ∧
    (State.endClearDelay i s).supplies = s.supplies ∧
    (State.endClearDelay i s).coin = s.coin ∧
    (State.endClearDelay i s).credit = s.credit ∧
    (State.endClearDelay i s).comp = s.comp ∧
    (State.endClearDelay i s).clock = s.clock ∧
    (State.endClearDelay i s).report = s.report ∧
    (State.endClearDelay i s).settings = s.settings ∧
    (State.endClearDelay i s).hostPort = s.hostPort ∧
    (State.endClearDelay i s).servicePort = s.servicePort := by
  dsimp only [State.endClearDelay]
  (repeat' split) <;> simp

@[simp] theorem State.setPort_frame (p : Port) (x : PortUnit) (s : State) :
    (State.setPort p x s).pending = s.pending ∧
    (State.setPort p x s).now = s.now ∧
    (State.setPort p x s).supplies = s.supplies ∧
    (State.setPort p x s).coin = s.coin ∧
    (State.setPort p x s).credit = s.credit ∧
    (State.setPort p x s).comp = s.comp ∧
    (State.setPort p x s).tariff = s.tariff ∧
    (State.setPort p x s).clock = s.clock ∧
    (State.setPort p x s).rating = s.rating ∧
    (State.setPort p x s).line = s.line ∧
    (State.setPort p x s).session = s.session ∧
    (State.setPort p x s).sup = s.sup ∧
    (State.setPort p x s).report = s.report ∧
    (State.setPort p x s).settings = s.settings ∧
    (State.setPort p x s).attention = s.attention := by
  dsimp only [State.setPort]
  (repeat' split) <;> simp

@[simp] theorem State.answer_frame (p : Port) (r : Response) (s : State) :
    (State.answer p r s).pending = s.pending ∧
    (State.answer p r s).now = s.now ∧
    (State.answer p r s).supplies = s.supplies ∧
    (State.answer p r s).coin = s.coin ∧
    (State.answer p r s).credit = s.credit ∧
    (State.answer p r s).comp = s.comp ∧
    (State.answer p r s).tariff = s.tariff ∧
    (State.answer p r s).clock = s.clock ∧
    (State.answer p r s).rating = s.rating ∧
    (State.answer p r s).line = s.line ∧
    (State.answer p r s).session = s.session ∧
    (State.answer p r s).sup = s.sup ∧
    (State.answer p r s).report = s.report ∧
    (State.answer p r s).settings = s.settings ∧
    (State.answer p r s).attention = s.attention := by
  dsimp only [State.answer]
  (repeat' split) <;> simp

@[simp] theorem State.readResponse_frame (p : Port) (s : State) :
    (State.readResponse p s).pending = s.pending ∧
    (State.readResponse p s).now = s.now ∧
    (State.readResponse p s).supplies = s.supplies ∧
    (State.readResponse p s).coin = s.coin ∧
    (State.readResponse p s).credit = s.credit ∧
    (State.readResponse p s).comp = s.comp ∧
    (State.readResponse p s).tariff = s.tariff ∧
    (State.readResponse p s).clock = s.clock ∧
    (State.readResponse p s).rating = s.rating ∧
    (State.readResponse p s).line = s.line ∧
    (State.readResponse p s).session = s.session ∧
    (State.readResponse p s).sup = s.sup ∧
    (State.readResponse p s).report = s.report ∧
    (State.readResponse p s).settings = s.settings ∧
    (State.readResponse p s).attention = s.attention := by
  dsimp only [State.readResponse]
  (repeat' split) <;> simp

@[simp] theorem State.releaseTally_frame (s : State) :
    (State.releaseTally s).1.pending = s.pending ∧
    (State.releaseTally s).1.now = s.now ∧
    (State.releaseTally s).1.supplies = s.supplies ∧
    (State.releaseTally s).1.coin = s.coin ∧
    (State.releaseTally s).1.credit = s.credit ∧
    (State.releaseTally s).1.clock = s.clock ∧
    (State.releaseTally s).1.report = s.report ∧
    (State.releaseTally s).1.settings = s.settings ∧
    (State.releaseTally s).1.hostPort = s.hostPort ∧
    (State.releaseTally s).1.servicePort = s.servicePort := by
  dsimp only [State.releaseTally]
  (repeat' split) <;> simp

@[simp] theorem State.putTariff_frame (body : List Byte) (s : State) :
    (State.putTariff body s).1.pending = s.pending ∧
    (State.putTariff body s).1.now = s.now ∧
    (State.putTariff body s).1.supplies = s.supplies ∧
    (State.putTariff body s).1.coin = s.coin ∧
    (State.putTariff body s).1.credit = s.credit ∧
    (State.putTariff body s).1.comp = s.comp ∧
    (State.putTariff body s).1.clock = s.clock ∧
    (State.putTariff body s).1.rating = s.rating ∧
    (State.putTariff body s).1.line = s.line ∧
    (State.putTariff body s).1.session = s.session ∧
    (State.putTariff body s).1.sup = s.sup ∧
    (State.putTariff body s).1.report = s.report ∧
    (State.putTariff body s).1.settings = s.settings ∧
    (State.putTariff body s).1.attention = s.attention ∧
    (State.putTariff body s).1.hostPort = s.hostPort ∧
    (State.putTariff body s).1.servicePort = s.servicePort := by
  dsimp only [State.putTariff]
  (repeat' split) <;> simp

@[simp] theorem State.withdrawTariff_frame (slot : Nat) (s : State) :
    (State.withdrawTariff slot s).1.pending = s.pending ∧
    (State.withdrawTariff slot s).1.now = s.now ∧
    (State.withdrawTariff slot s).1.supplies = s.supplies ∧
    (State.withdrawTariff slot s).1.coin = s.coin ∧
    (State.withdrawTariff slot s).1.credit = s.credit ∧
    (State.withdrawTariff slot s).1.comp = s.comp ∧
    (State.withdrawTariff slot s).1.clock = s.clock ∧
    (State.withdrawTariff slot s).1.rating = s.rating ∧
    (State.withdrawTariff slot s).1.line = s.line ∧
    (State.withdrawTariff slot s).1.session = s.session ∧
    (State.withdrawTariff slot s).1.sup = s.sup ∧
    (State.withdrawTariff slot s).1.report = s.report ∧
    (State.withdrawTariff slot s).1.settings = s.settings ∧
    (State.withdrawTariff slot s).1.attention = s.attention ∧
    (State.withdrawTariff slot s).1.hostPort = s.hostPort ∧
    (State.withdrawTariff slot s).1.servicePort = s.servicePort := by
  dsimp only [State.withdrawTariff]
  (repeat' split) <;> simp

@[simp] theorem State.setTime_frame (body : List Byte) (s : State) :
    (State.setTime body s).1.pending = s.pending ∧
    (State.setTime body s).1.now = s.now ∧
    (State.setTime body s).1.supplies = s.supplies ∧
    (State.setTime body s).1.coin = s.coin ∧
    (State.setTime body s).1.credit = s.credit ∧
    (State.setTime body s).1.comp = s.comp ∧
    (State.setTime body s).1.report = s.report ∧
    (State.setTime body s).1.settings = s.settings ∧
    (State.setTime body s).1.hostPort = s.hostPort ∧
    (State.setTime body s).1.servicePort = s.servicePort := by
  dsimp only [State.setTime]
  (repeat' split) <;> simp

@[simp] theorem State.setHolidays_frame (body : List Byte) (s : State) :
    (State.setHolidays body s).1.pending = s.pending ∧
    (State.setHolidays body s).1.now = s.now ∧
    (State.setHolidays body s).1.supplies = s.supplies ∧
    (State.setHolidays body s).1.coin = s.coin ∧
    (State.setHolidays body s).1.credit = s.credit ∧
    (State.setHolidays body s).1.comp = s.comp ∧
    (State.setHolidays body s).1.tariff = s.tariff ∧
    (State.setHolidays body s).1.rating = s.rating ∧
    (State.setHolidays body s).1.line = s.line ∧
    (State.setHolidays body s).1.session = s.session ∧
    (State.setHolidays body s).1.sup = s.sup ∧
    (State.setHolidays body s).1.report = s.report ∧
    (State.setHolidays body s).1.settings = s.settings ∧
    (State.setHolidays body s).1.attention = s.attention ∧
    (State.setHolidays body s).1.hostPort = s.hostPort ∧
    (State.setHolidays body s).1.servicePort = s.servicePort := by
  dsimp only [State.setHolidays]
  (repeat' split) <;> simp

@[simp] theorem State.setBands_frame (body : List Byte) (s : State) :
    (State.setBands body s).1.pending = s.pending ∧
    (State.setBands body s).1.now = s.now ∧
    (State.setBands body s).1.supplies = s.supplies ∧
    (State.setBands body s).1.coin = s.coin ∧
    (State.setBands body s).1.credit = s.credit ∧
    (State.setBands body s).1.comp = s.comp ∧
    (State.setBands body s).1.tariff = s.tariff ∧
    (State.setBands body s).1.rating = s.rating ∧
    (State.setBands body s).1.line = s.line ∧
    (State.setBands body s).1.session = s.session ∧
    (State.setBands body s).1.sup = s.sup ∧
    (State.setBands body s).1.report = s.report ∧
    (State.setBands body s).1.settings = s.settings ∧
    (State.setBands body s).1.attention = s.attention ∧
    (State.setBands body s).1.hostPort = s.hostPort ∧
    (State.setBands body s).1.servicePort = s.servicePort := by
  dsimp only [State.setBands]
  (repeat' split) <;> simp

@[simp] theorem State.readClearFlags_frame (s : State) :
    (State.readClearFlags s).1.pending = s.pending ∧
    (State.readClearFlags s).1.now = s.now ∧
    (State.readClearFlags s).1.supplies = s.supplies ∧
    (State.readClearFlags s).1.coin = s.coin ∧
    (State.readClearFlags s).1.credit = s.credit ∧
    (State.readClearFlags s).1.comp = s.comp ∧
    (State.readClearFlags s).1.tariff = s.tariff ∧
    (State.readClearFlags s).1.clock = s.clock ∧
    (State.readClearFlags s).1.line = s.line ∧
    (State.readClearFlags s).1.session = s.session ∧
    (State.readClearFlags s).1.sup = s.sup ∧
    (State.readClearFlags s).1.report = s.report ∧
    (State.readClearFlags s).1.settings = s.settings ∧
    (State.readClearFlags s).1.attention = s.attention ∧
    (State.readClearFlags s).1.hostPort = s.hostPort ∧
    (State.readClearFlags s).1.servicePort = s.servicePort := by
  dsimp only [State.readClearFlags]
  (repeat' split) <;> simp

@[simp] theorem State.clearCondition_frame (src : Source) (s : State) :
    (State.clearCondition src s).pending = s.pending ∧
    (State.clearCondition src s).now = s.now ∧
    (State.clearCondition src s).supplies = s.supplies ∧
    (State.clearCondition src s).credit = s.credit ∧
    (State.clearCondition src s).comp = s.comp ∧
    (State.clearCondition src s).clock = s.clock ∧
    (State.clearCondition src s).report = s.report ∧
    (State.clearCondition src s).settings = s.settings ∧
    (State.clearCondition src s).hostPort = s.hostPort ∧
    (State.clearCondition src s).servicePort = s.servicePort := by
  dsimp only [State.clearCondition]
  (repeat' split) <;> simp

@[simp] theorem State.judgeClear_frame (src : Source) (s : State) :
    (State.judgeClear src s).1.pending = s.pending ∧
    (State.judgeClear src s).1.now = s.now ∧
    (State.judgeClear src s).1.supplies = s.supplies ∧
    (State.judgeClear src s).1.credit = s.credit ∧
    (State.judgeClear src s).1.comp = s.comp ∧
    (State.judgeClear src s).1.clock = s.clock ∧
    (State.judgeClear src s).1.report = s.report ∧
    (State.judgeClear src s).1.settings = s.settings ∧
    (State.judgeClear src s).1.hostPort = s.hostPort ∧
    (State.judgeClear src s).1.servicePort = s.servicePort := by
  dsimp only [State.judgeClear]
  (repeat' split) <;> simp

@[simp] theorem State.clearCode_frame (code : Nat) (s : State) :
    (State.clearCode code s).1.pending = s.pending ∧
    (State.clearCode code s).1.now = s.now ∧
    (State.clearCode code s).1.supplies = s.supplies ∧
    (State.clearCode code s).1.credit = s.credit ∧
    (State.clearCode code s).1.comp = s.comp ∧
    (State.clearCode code s).1.clock = s.clock ∧
    (State.clearCode code s).1.report = s.report ∧
    (State.clearCode code s).1.settings = s.settings ∧
    (State.clearCode code s).1.hostPort = s.hostPort ∧
    (State.clearCode code s).1.servicePort = s.servicePort := by
  dsimp only [State.clearCode]
  (repeat' split) <;> simp

@[simp] theorem State.reportNow_frame (s : State) :
    (State.reportNow s).1.pending = s.pending ∧
    (State.reportNow s).1.now = s.now ∧
    (State.reportNow s).1.supplies = s.supplies ∧
    (State.reportNow s).1.coin = s.coin ∧
    (State.reportNow s).1.credit = s.credit ∧
    (State.reportNow s).1.comp = s.comp ∧
    (State.reportNow s).1.tariff = s.tariff ∧
    (State.reportNow s).1.clock = s.clock ∧
    (State.reportNow s).1.rating = s.rating ∧
    (State.reportNow s).1.line = s.line ∧
    (State.reportNow s).1.session = s.session ∧
    (State.reportNow s).1.sup = s.sup ∧
    (State.reportNow s).1.settings = s.settings ∧
    (State.reportNow s).1.attention = s.attention ∧
    (State.reportNow s).1.hostPort = s.hostPort ∧
    (State.reportNow s).1.servicePort = s.servicePort := by
  dsimp only [State.reportNow]
  (repeat' split) <;> simp

@[simp] theorem State.setCoinClass_frame (body : List Byte) (s : State) :
    (State.setCoinClass body s).1.pending = s.pending ∧
    (State.setCoinClass body s).1.now = s.now ∧
    (State.setCoinClass body s).1.supplies = s.supplies ∧
    (State.setCoinClass body s).1.coin = s.coin ∧
    (State.setCoinClass body s).1.credit = s.credit ∧
    (State.setCoinClass body s).1.comp = s.comp ∧
    (State.setCoinClass body s).1.tariff = s.tariff ∧
    (State.setCoinClass body s).1.clock = s.clock ∧
    (State.setCoinClass body s).1.rating = s.rating ∧
    (State.setCoinClass body s).1.line = s.line ∧
    (State.setCoinClass body s).1.session = s.session ∧
    (State.setCoinClass body s).1.sup = s.sup ∧
    (State.setCoinClass body s).1.report = s.report ∧
    (State.setCoinClass body s).1.attention = s.attention ∧
    (State.setCoinClass body s).1.hostPort = s.hostPort ∧
    (State.setCoinClass body s).1.servicePort = s.servicePort := by
  dsimp only [State.setCoinClass]
  (repeat' split) <;> simp

@[simp] theorem State.applyAssignment_frame (i : Fin 8) (a : Assignment) (clamped : Bool) (s : State) :
    (State.applyAssignment i a clamped s).1.pending = s.pending ∧
    (State.applyAssignment i a clamped s).1.now = s.now ∧
    (State.applyAssignment i a clamped s).1.supplies = s.supplies ∧
    (State.applyAssignment i a clamped s).1.coin = s.coin ∧
    (State.applyAssignment i a clamped s).1.credit = s.credit ∧
    (State.applyAssignment i a clamped s).1.comp = s.comp ∧
    (State.applyAssignment i a clamped s).1.clock = s.clock ∧
    (State.applyAssignment i a clamped s).1.report = s.report ∧
    (State.applyAssignment i a clamped s).1.settings = s.settings ∧
    (State.applyAssignment i a clamped s).1.hostPort = s.hostPort ∧
    (State.applyAssignment i a clamped s).1.servicePort = s.servicePort := by
  dsimp only [State.applyAssignment]
  (repeat' split) <;> simp

@[simp] theorem State.setAssignment_frame (body : List Byte) (s : State) :
    (State.setAssignment body s).1.pending = s.pending ∧
    (State.setAssignment body s).1.now = s.now ∧
    (State.setAssignment body s).1.supplies = s.supplies ∧
    (State.setAssignment body s).1.coin = s.coin ∧
    (State.setAssignment body s).1.credit = s.credit ∧
    (State.setAssignment body s).1.comp = s.comp ∧
    (State.setAssignment body s).1.clock = s.clock ∧
    (State.setAssignment body s).1.report = s.report ∧
    (State.setAssignment body s).1.settings = s.settings ∧
    (State.setAssignment body s).1.hostPort = s.hostPort ∧
    (State.setAssignment body s).1.servicePort = s.servicePort := by
  dsimp only [State.setAssignment]
  (repeat' split) <;> simp

@[simp] theorem State.setEnable_frame (src : Source) (on : Bool) (s : State) :
    (State.setEnable src on s).pending = s.pending ∧
    (State.setEnable src on s).now = s.now ∧
    (State.setEnable src on s).supplies = s.supplies ∧
    (State.setEnable src on s).coin = s.coin ∧
    (State.setEnable src on s).credit = s.credit ∧
    (State.setEnable src on s).comp = s.comp ∧
    (State.setEnable src on s).clock = s.clock ∧
    (State.setEnable src on s).hostPort = s.hostPort ∧
    (State.setEnable src on s).servicePort = s.servicePort := by
  dsimp only [State.setEnable]
  (repeat' split) <;> simp

@[simp] theorem State.takeSetting_frame (st : Settings) (s : State) :
    (State.takeSetting st s).1.pending = s.pending ∧
    (State.takeSetting st s).1.now = s.now ∧
    (State.takeSetting st s).1.supplies = s.supplies ∧
    (State.takeSetting st s).1.coin = s.coin ∧
    (State.takeSetting st s).1.credit = s.credit ∧
    (State.takeSetting st s).1.comp = s.comp ∧
    (State.takeSetting st s).1.tariff = s.tariff ∧
    (State.takeSetting st s).1.clock = s.clock ∧
    (State.takeSetting st s).1.rating = s.rating ∧
    (State.takeSetting st s).1.line = s.line ∧
    (State.takeSetting st s).1.session = s.session ∧
    (State.takeSetting st s).1.sup = s.sup ∧
    (State.takeSetting st s).1.report = s.report ∧
    (State.takeSetting st s).1.attention = s.attention ∧
    (State.takeSetting st s).1.hostPort = s.hostPort ∧
    (State.takeSetting st s).1.servicePort = s.servicePort := by
  dsimp only [State.takeSetting]
  (repeat' split) <;> simp

@[simp] theorem State.setStationNumber_frame (value : List Byte) (s : State) :
    (State.setStationNumber value s).1.pending = s.pending ∧
    (State.setStationNumber value s).1.now = s.now ∧
    (State.setStationNumber value s).1.supplies = s.supplies ∧
    (State.setStationNumber value s).1.coin = s.coin ∧
    (State.setStationNumber value s).1.credit = s.credit ∧
    (State.setStationNumber value s).1.comp = s.comp ∧
    (State.setStationNumber value s).1.tariff = s.tariff ∧
    (State.setStationNumber value s).1.clock = s.clock ∧
    (State.setStationNumber value s).1.rating = s.rating ∧
    (State.setStationNumber value s).1.line = s.line ∧
    (State.setStationNumber value s).1.session = s.session ∧
    (State.setStationNumber value s).1.sup = s.sup ∧
    (State.setStationNumber value s).1.report = s.report ∧
    (State.setStationNumber value s).1.attention = s.attention ∧
    (State.setStationNumber value s).1.hostPort = s.hostPort ∧
    (State.setStationNumber value s).1.servicePort = s.servicePort := by
  dsimp only [State.setStationNumber]
  (repeat' split) <;> simp

@[simp] theorem State.setCentreNumber_frame (value : List Byte) (s : State) :
    (State.setCentreNumber value s).1.pending = s.pending ∧
    (State.setCentreNumber value s).1.now = s.now ∧
    (State.setCentreNumber value s).1.supplies = s.supplies ∧
    (State.setCentreNumber value s).1.coin = s.coin ∧
    (State.setCentreNumber value s).1.credit = s.credit ∧
    (State.setCentreNumber value s).1.comp = s.comp ∧
    (State.setCentreNumber value s).1.tariff = s.tariff ∧
    (State.setCentreNumber value s).1.clock = s.clock ∧
    (State.setCentreNumber value s).1.rating = s.rating ∧
    (State.setCentreNumber value s).1.line = s.line ∧
    (State.setCentreNumber value s).1.session = s.session ∧
    (State.setCentreNumber value s).1.sup = s.sup ∧
    (State.setCentreNumber value s).1.report = s.report ∧
    (State.setCentreNumber value s).1.attention = s.attention ∧
    (State.setCentreNumber value s).1.hostPort = s.hostPort ∧
    (State.setCentreNumber value s).1.servicePort = s.servicePort := by
  dsimp only [State.setCentreNumber]
  (repeat' split) <;> simp

@[simp] theorem State.setThresholds_frame (near full : Nat) (s : State) :
    (State.setThresholds near full s).1.pending = s.pending ∧
    (State.setThresholds near full s).1.now = s.now ∧
    (State.setThresholds near full s).1.supplies = s.supplies ∧
    (State.setThresholds near full s).1.coin = s.coin ∧
    (State.setThresholds near full s).1.credit = s.credit ∧
    (State.setThresholds near full s).1.comp = s.comp ∧
    (State.setThresholds near full s).1.clock = s.clock ∧
    (State.setThresholds near full s).1.hostPort = s.hostPort ∧
    (State.setThresholds near full s).1.servicePort = s.servicePort := by
  dsimp only [State.setThresholds]
  (repeat' split) <;> simp

@[simp] theorem State.setReportEnable_frame (code value : Nat) (s : State) :
    (State.setReportEnable code value s).1.pending = s.pending ∧
    (State.setReportEnable code value s).1.now = s.now ∧
    (State.setReportEnable code value s).1.supplies = s.supplies ∧
    (State.setReportEnable code value s).1.coin = s.coin ∧
    (State.setReportEnable code value s).1.credit = s.credit ∧
    (State.setReportEnable code value s).1.comp = s.comp ∧
    (State.setReportEnable code value s).1.clock = s.clock ∧
    (State.setReportEnable code value s).1.hostPort = s.hostPort ∧
    (State.setReportEnable code value s).1.servicePort = s.servicePort := by
  dsimp only [State.setReportEnable]
  (repeat' split) <;> simp

@[simp] theorem State.setSetting_frame (body : List Byte) (s : State) :
    (State.setSetting body s).1.pending = s.pending ∧
    (State.setSetting body s).1.now = s.now ∧
    (State.setSetting body s).1.supplies = s.supplies ∧
    (State.setSetting body s).1.coin = s.coin ∧
    (State.setSetting body s).1.credit = s.credit ∧
    (State.setSetting body s).1.comp = s.comp ∧
    (State.setSetting body s).1.clock = s.clock ∧
    (State.setSetting body s).1.hostPort = s.hostPort ∧
    (State.setSetting body s).1.servicePort = s.servicePort := by
  dsimp only [State.setSetting]
  (repeat' split) <;> simp

@[simp] theorem State.ackAttention_frame (b : Byte) (s : State) :
    (State.ackAttention b s).1.pending = s.pending ∧
    (State.ackAttention b s).1.now = s.now ∧
    (State.ackAttention b s).1.supplies = s.supplies ∧
    (State.ackAttention b s).1.coin = s.coin ∧
    (State.ackAttention b s).1.credit = s.credit ∧
    (State.ackAttention b s).1.comp = s.comp ∧
    (State.ackAttention b s).1.tariff = s.tariff ∧
    (State.ackAttention b s).1.clock = s.clock ∧
    (State.ackAttention b s).1.rating = s.rating ∧
    (State.ackAttention b s).1.line = s.line ∧
    (State.ackAttention b s).1.session = s.session ∧
    (State.ackAttention b s).1.sup = s.sup ∧
    (State.ackAttention b s).1.report = s.report ∧
    (State.ackAttention b s).1.settings = s.settings ∧
    (State.ackAttention b s).1.hostPort = s.hostPort ∧
    (State.ackAttention b s).1.servicePort = s.servicePort := by
  dsimp only [State.ackAttention]
  (repeat' split) <;> simp

@[simp] theorem State.maskAttention_frame (b : Byte) (s : State) :
    (State.maskAttention b s).1.pending = s.pending ∧
    (State.maskAttention b s).1.now = s.now ∧
    (State.maskAttention b s).1.supplies = s.supplies ∧
    (State.maskAttention b s).1.coin = s.coin ∧
    (State.maskAttention b s).1.credit = s.credit ∧
    (State.maskAttention b s).1.comp = s.comp ∧
    (State.maskAttention b s).1.tariff = s.tariff ∧
    (State.maskAttention b s).1.clock = s.clock ∧
    (State.maskAttention b s).1.rating = s.rating ∧
    (State.maskAttention b s).1.line = s.line ∧
    (State.maskAttention b s).1.session = s.session ∧
    (State.maskAttention b s).1.sup = s.sup ∧
    (State.maskAttention b s).1.report = s.report ∧
    (State.maskAttention b s).1.settings = s.settings ∧
    (State.maskAttention b s).1.hostPort = s.hostPort ∧
    (State.maskAttention b s).1.servicePort = s.servicePort := by
  dsimp only [State.maskAttention]
  (repeat' split) <;> simp

@[simp] theorem State.initSession_frame (s : State) :
    (State.initSession s).pending = s.pending ∧
    (State.initSession s).now = s.now ∧
    (State.initSession s).supplies = s.supplies ∧
    (State.initSession s).comp = s.comp ∧
    (State.initSession s).clock = s.clock ∧
    (State.initSession s).settings = s.settings ∧
    (State.initSession s).hostPort = s.hostPort ∧
    (State.initSession s).servicePort = s.servicePort := by
  dsimp only [State.initSession]
  (repeat' split) <;> simp

@[simp] theorem State.stationInit_frame (s : State) :
    (State.stationInit s).1.pending = s.pending ∧
    (State.stationInit s).1.now = s.now ∧
    (State.stationInit s).1.supplies = s.supplies ∧
    (State.stationInit s).1.comp = s.comp ∧
    (State.stationInit s).1.clock = s.clock ∧
    (State.stationInit s).1.settings = s.settings ∧
    (State.stationInit s).1.hostPort = s.hostPort ∧
    (State.stationInit s).1.servicePort = s.servicePort := by
  dsimp only [State.stationInit]
  (repeat' split) <;> simp

@[simp] theorem State.bankActive_frame (s : State) :
    (State.bankActive s).pending = s.pending ∧
    (State.bankActive s).now = s.now ∧
    (State.bankActive s).supplies = s.supplies ∧
    (State.bankActive s).coin = s.coin ∧
    (State.bankActive s).credit = s.credit ∧
    (State.bankActive s).comp = s.comp ∧
    (State.bankActive s).tariff = s.tariff ∧
    (State.bankActive s).clock = s.clock ∧
    (State.bankActive s).rating = s.rating ∧
    (State.bankActive s).line = s.line ∧
    (State.bankActive s).session = s.session ∧
    (State.bankActive s).report = s.report ∧
    (State.bankActive s).settings = s.settings ∧
    (State.bankActive s).attention = s.attention ∧
    (State.bankActive s).hostPort = s.hostPort ∧
    (State.bankActive s).servicePort = s.servicePort := by
  dsimp only [State.bankActive]
  (repeat' split) <;> simp

@[simp] theorem State.loseMain_frame (s : State) :
    (State.loseMain s).pending = s.pending ∧
    (State.loseMain s).now = s.now ∧
    (State.loseMain s).coin = s.coin ∧
    (State.loseMain s).credit = s.credit ∧
    (State.loseMain s).comp = s.comp ∧
    (State.loseMain s).tariff = s.tariff ∧
    (State.loseMain s).clock = s.clock ∧
    (State.loseMain s).rating = s.rating ∧
    (State.loseMain s).line = s.line ∧
    (State.loseMain s).session = s.session ∧
    (State.loseMain s).report = s.report ∧
    (State.loseMain s).settings = s.settings ∧
    (State.loseMain s).attention = s.attention ∧
    (State.loseMain s).hostPort = s.hostPort ∧
    (State.loseMain s).servicePort = s.servicePort := by
  dsimp only [State.loseMain]
  (repeat' split) <;> simp

@[simp] theorem State.loseBackup_frame (s : State) :
    (State.loseBackup s).pending = s.pending ∧
    (State.loseBackup s).now = s.now ∧
    (State.loseBackup s).coin = s.coin ∧
    (State.loseBackup s).credit = s.credit ∧
    (State.loseBackup s).comp = s.comp ∧
    (State.loseBackup s).tariff = s.tariff ∧
    (State.loseBackup s).clock = s.clock ∧
    (State.loseBackup s).rating = s.rating ∧
    (State.loseBackup s).line = s.line ∧
    (State.loseBackup s).session = s.session ∧
    (State.loseBackup s).sup = s.sup ∧
    (State.loseBackup s).report = s.report ∧
    (State.loseBackup s).settings = s.settings ∧
    (State.loseBackup s).attention = s.attention ∧
    (State.loseBackup s).hostPort = s.hostPort ∧
    (State.loseBackup s).servicePort = s.servicePort := by
  dsimp only [State.loseBackup]
  (repeat' split) <;> simp

@[simp] theorem State.restartTables_frame (s : State) :
    (State.restartTables s).pending = s.pending ∧
    (State.restartTables s).now = s.now ∧
    (State.restartTables s).supplies = s.supplies ∧
    (State.restartTables s).coin = s.coin ∧
    (State.restartTables s).credit = s.credit ∧
    (State.restartTables s).comp = s.comp ∧
    (State.restartTables s).rating = s.rating ∧
    (State.restartTables s).line = s.line ∧
    (State.restartTables s).session = s.session ∧
    (State.restartTables s).sup = s.sup ∧
    (State.restartTables s).report = s.report ∧
    (State.restartTables s).settings = s.settings ∧
    (State.restartTables s).attention = s.attention ∧
    (State.restartTables s).hostPort = s.hostPort ∧
    (State.restartTables s).servicePort = s.servicePort := by
  dsimp only [State.restartTables]
  (repeat' split) <;> simp

@[simp] theorem State.takeNormality_frame (s : State) :
    (State.takeNormality s).pending = s.pending ∧
    (State.takeNormality s).now = s.now ∧
    (State.takeNormality s).supplies = s.supplies ∧
    (State.takeNormality s).coin = s.coin ∧
    (State.takeNormality s).credit = s.credit ∧
    (State.takeNormality s).comp = s.comp ∧
    (State.takeNormality s).tariff = s.tariff ∧
    (State.takeNormality s).clock = s.clock ∧
    (State.takeNormality s).rating = s.rating ∧
    (State.takeNormality s).line = s.line ∧
    (State.takeNormality s).session = s.session ∧
    (State.takeNormality s).report = s.report ∧
    (State.takeNormality s).settings = s.settings ∧
    (State.takeNormality s).attention = s.attention ∧
    (State.takeNormality s).hostPort = s.hostPort ∧
    (State.takeNormality s).servicePort = s.servicePort := by
  refine ⟨?_, ?_, ?_, ?_, ?_, ?_, ?_, ?_, ?_, ?_, ?_, ?_, ?_, ?_, ?_, ?_⟩ <;> exact foldl_keeps _ _ (by simp) _ s

@[simp] theorem State.startClosure_frame (s : State) :
    (State.startClosure s).pending = s.pending ∧
    (State.startClosure s).now = s.now ∧
    (State.startClosure s).supplies = s.supplies ∧
    (State.startClosure s).coin = s.coin ∧
    (State.startClosure s).credit = s.credit ∧
    (State.startClosure s).tariff = s.tariff ∧
    (State.startClosure s).clock = s.clock ∧
    (State.startClosure s).rating = s.rating ∧
    (State.startClosure s).line = s.line ∧
    (State.startClosure s).session = s.session ∧
    (State.startClosure s).report = s.report ∧
    (State.startClosure s).settings = s.settings ∧
    (State.startClosure s).hostPort = s.hostPort ∧
    (State.startClosure s).servicePort = s.servicePort := by
  dsimp only [State.startClosure]
  (repeat' split) <;> simp

@[simp] theorem State.startThreshold_frame (src : Source) (type : ConditionType) (severity : Severity) (reached : Bool) (s : State) :
    (State.startThreshold src type severity reached s).pending = s.pending ∧
    (State.startThreshold src type severity reached s).now = s.now ∧
    (State.startThreshold src type severity reached s).supplies = s.supplies ∧
    (State.startThreshold src type severity reached s).coin = s.coin ∧
    (State.startThreshold src type severity reached s).credit = s.credit ∧
    (State.startThreshold src type severity reached s).comp = s.comp ∧
    (State.startThreshold src type severity reached s).tariff = s.tariff ∧
    (State.startThreshold src type severity reached s).clock = s.clock ∧
    (State.startThreshold src type severity reached s).rating = s.rating ∧
    (State.startThreshold src type severity reached s).line = s.line ∧
    (State.startThreshold src type severity reached s).session = s.session ∧
    (State.startThreshold src type severity reached s).report = s.report ∧
    (State.startThreshold src type severity reached s).settings = s.settings ∧
    (State.startThreshold src type severity reached s).hostPort = s.hostPort ∧
    (State.startThreshold src type severity reached s).servicePort = s.servicePort := by
  dsimp only [State.startThreshold]
  (repeat' split) <;> simp

@[simp] theorem State.takeReadings_frame (readings : StartReadings) (s : State) :
    (State.takeReadings readings s).pending = s.pending ∧
    (State.takeReadings readings s).now = s.now ∧
    (State.takeReadings readings s).supplies = s.supplies ∧
    (State.takeReadings readings s).coin = s.coin ∧
    (State.takeReadings readings s).credit = s.credit ∧
    (State.takeReadings readings s).tariff = s.tariff ∧
    (State.takeReadings readings s).clock = s.clock ∧
    (State.takeReadings readings s).rating = s.rating ∧
    (State.takeReadings readings s).line = s.line ∧
    (State.takeReadings readings s).session = s.session ∧
    (State.takeReadings readings s).report = s.report ∧
    (State.takeReadings readings s).settings = s.settings ∧
    (State.takeReadings readings s).hostPort = s.hostPort ∧
    (State.takeReadings readings s).servicePort = s.servicePort := by
  dsimp only [State.takeReadings]
  (repeat' split) <;> simp

@[simp] theorem State.startForcedEntry_frame (readings : StartReadings) (s : State) :
    (State.startForcedEntry readings s).pending = s.pending ∧
    (State.startForcedEntry readings s).now = s.now ∧
    (State.startForcedEntry readings s).supplies = s.supplies ∧
    (State.startForcedEntry readings s).coin = s.coin ∧
    (State.startForcedEntry readings s).credit = s.credit ∧
    (State.startForcedEntry readings s).comp = s.comp ∧
    (State.startForcedEntry readings s).tariff = s.tariff ∧
    (State.startForcedEntry readings s).clock = s.clock ∧
    (State.startForcedEntry readings s).rating = s.rating ∧
    (State.startForcedEntry readings s).line = s.line ∧
    (State.startForcedEntry readings s).session = s.session ∧
    (State.startForcedEntry readings s).report = s.report ∧
    (State.startForcedEntry readings s).settings = s.settings ∧
    (State.startForcedEntry readings s).hostPort = s.hostPort ∧
    (State.startForcedEntry readings s).servicePort = s.servicePort := by
  dsimp only [State.startForcedEntry]
  (repeat' split) <;> simp

@[simp] theorem State.startNear_frame (s : State) :
    (State.startNear s).pending = s.pending ∧
    (State.startNear s).now = s.now ∧
    (State.startNear s).supplies = s.supplies ∧
    (State.startNear s).coin = s.coin ∧
    (State.startNear s).credit = s.credit ∧
    (State.startNear s).comp = s.comp ∧
    (State.startNear s).tariff = s.tariff ∧
    (State.startNear s).clock = s.clock ∧
    (State.startNear s).rating = s.rating ∧
    (State.startNear s).line = s.line ∧
    (State.startNear s).session = s.session ∧
    (State.startNear s).report = s.report ∧
    (State.startNear s).settings = s.settings ∧
    (State.startNear s).hostPort = s.hostPort ∧
    (State.startNear s).servicePort = s.servicePort := by
  dsimp only [State.startNear]
  (repeat' split) <;> simp

@[simp] theorem State.startFull_frame (s : State) :
    (State.startFull s).pending = s.pending ∧
    (State.startFull s).now = s.now ∧
    (State.startFull s).supplies = s.supplies ∧
    (State.startFull s).coin = s.coin ∧
    (State.startFull s).credit = s.credit ∧
    (State.startFull s).comp = s.comp ∧
    (State.startFull s).tariff = s.tariff ∧
    (State.startFull s).clock = s.clock ∧
    (State.startFull s).rating = s.rating ∧
    (State.startFull s).line = s.line ∧
    (State.startFull s).session = s.session ∧
    (State.startFull s).report = s.report ∧
    (State.startFull s).settings = s.settings ∧
    (State.startFull s).hostPort = s.hostPort ∧
    (State.startFull s).servicePort = s.servicePort := by
  dsimp only [State.startFull]
  (repeat' split) <;> simp

@[simp] theorem State.startClearDelays_frame (readings : StartReadings) (s : State) :
    (State.startClearDelays readings s).pending = s.pending ∧
    (State.startClearDelays readings s).now = s.now ∧
    (State.startClearDelays readings s).supplies = s.supplies ∧
    (State.startClearDelays readings s).coin = s.coin ∧
    (State.startClearDelays readings s).credit = s.credit ∧
    (State.startClearDelays readings s).comp = s.comp ∧
    (State.startClearDelays readings s).tariff = s.tariff ∧
    (State.startClearDelays readings s).clock = s.clock ∧
    (State.startClearDelays readings s).rating = s.rating ∧
    (State.startClearDelays readings s).line = s.line ∧
    (State.startClearDelays readings s).session = s.session ∧
    (State.startClearDelays readings s).report = s.report ∧
    (State.startClearDelays readings s).settings = s.settings ∧
    (State.startClearDelays readings s).attention = s.attention ∧
    (State.startClearDelays readings s).hostPort = s.hostPort ∧
    (State.startClearDelays readings s).servicePort = s.servicePort := by
  dsimp only [State.startClearDelays]
  (repeat' split) <;> simp

@[simp] theorem State.settleRecord_frame (src : Source) (s : State) :
    (State.settleRecord src s).pending = s.pending ∧
    (State.settleRecord src s).now = s.now ∧
    (State.settleRecord src s).supplies = s.supplies ∧
    (State.settleRecord src s).coin = s.coin ∧
    (State.settleRecord src s).credit = s.credit ∧
    (State.settleRecord src s).comp = s.comp ∧
    (State.settleRecord src s).clock = s.clock ∧
    (State.settleRecord src s).report = s.report ∧
    (State.settleRecord src s).settings = s.settings ∧
    (State.settleRecord src s).hostPort = s.hostPort ∧
    (State.settleRecord src s).servicePort = s.servicePort := by
  dsimp only [State.settleRecord]
  (repeat' split) <;> simp

@[simp] theorem State.retentionOccurrence_frame (s : State) :
    (State.retentionOccurrence s).pending = s.pending ∧
    (State.retentionOccurrence s).now = s.now ∧
    (State.retentionOccurrence s).supplies = s.supplies ∧
    (State.retentionOccurrence s).coin = s.coin ∧
    (State.retentionOccurrence s).credit = s.credit ∧
    (State.retentionOccurrence s).comp = s.comp ∧
    (State.retentionOccurrence s).clock = s.clock ∧
    (State.retentionOccurrence s).report = s.report ∧
    (State.retentionOccurrence s).settings = s.settings ∧
    (State.retentionOccurrence s).hostPort = s.hostPort ∧
    (State.retentionOccurrence s).servicePort = s.servicePort := by
  dsimp only [State.retentionOccurrence]
  (repeat' split) <;> simp

@[simp] theorem State.clockOccurrence_frame (s : State) :
    (State.clockOccurrence s).pending = s.pending ∧
    (State.clockOccurrence s).now = s.now ∧
    (State.clockOccurrence s).supplies = s.supplies ∧
    (State.clockOccurrence s).coin = s.coin ∧
    (State.clockOccurrence s).credit = s.credit ∧
    (State.clockOccurrence s).comp = s.comp ∧
    (State.clockOccurrence s).clock = s.clock ∧
    (State.clockOccurrence s).report = s.report ∧
    (State.clockOccurrence s).settings = s.settings ∧
    (State.clockOccurrence s).hostPort = s.hostPort ∧
    (State.clockOccurrence s).servicePort = s.servicePort := by
  dsimp only [State.clockOccurrence]
  (repeat' split) <;> simp

@[simp] theorem State.holdLevel_frame (s : State) :
    (State.holdLevel s).pending = s.pending ∧
    (State.holdLevel s).now = s.now ∧
    (State.holdLevel s).supplies = s.supplies ∧
    (State.holdLevel s).coin = s.coin ∧
    (State.holdLevel s).credit = s.credit ∧
    (State.holdLevel s).comp = s.comp ∧
    (State.holdLevel s).tariff = s.tariff ∧
    (State.holdLevel s).clock = s.clock ∧
    (State.holdLevel s).rating = s.rating ∧
    (State.holdLevel s).line = s.line ∧
    (State.holdLevel s).session = s.session ∧
    (State.holdLevel s).report = s.report ∧
    (State.holdLevel s).settings = s.settings ∧
    (State.holdLevel s).hostPort = s.hostPort ∧
    (State.holdLevel s).servicePort = s.servicePort := by
  dsimp only [State.holdLevel]
  (repeat' split) <;> simp

@[simp] theorem State.addStartForfeit_frame (s : State) :
    (State.addStartForfeit s).pending = s.pending ∧
    (State.addStartForfeit s).now = s.now ∧
    (State.addStartForfeit s).supplies = s.supplies ∧
    (State.addStartForfeit s).coin = s.coin ∧
    (State.addStartForfeit s).credit = s.credit ∧
    (State.addStartForfeit s).tariff = s.tariff ∧
    (State.addStartForfeit s).clock = s.clock ∧
    (State.addStartForfeit s).rating = s.rating ∧
    (State.addStartForfeit s).line = s.line ∧
    (State.addStartForfeit s).session = s.session ∧
    (State.addStartForfeit s).sup = s.sup ∧
    (State.addStartForfeit s).report = s.report ∧
    (State.addStartForfeit s).settings = s.settings ∧
    (State.addStartForfeit s).attention = s.attention ∧
    (State.addStartForfeit s).hostPort = s.hostPort ∧
    (State.addStartForfeit s).servicePort = s.servicePort := by
  dsimp only [State.addStartForfeit]
  (repeat' split) <;> simp

@[simp] theorem State.clearBanked_frame (s : State) :
    (State.clearBanked s).pending = s.pending ∧
    (State.clearBanked s).now = s.now ∧
    (State.clearBanked s).supplies = s.supplies ∧
    (State.clearBanked s).coin = s.coin ∧
    (State.clearBanked s).comp = s.comp ∧
    (State.clearBanked s).tariff = s.tariff ∧
    (State.clearBanked s).clock = s.clock ∧
    (State.clearBanked s).rating = s.rating ∧
    (State.clearBanked s).line = s.line ∧
    (State.clearBanked s).session = s.session ∧
    (State.clearBanked s).sup = s.sup ∧
    (State.clearBanked s).report = s.report ∧
    (State.clearBanked s).settings = s.settings ∧
    (State.clearBanked s).attention = s.attention ∧
    (State.clearBanked s).hostPort = s.hostPort ∧
    (State.clearBanked s).servicePort = s.servicePort := by
  dsimp only [State.clearBanked]
  (repeat' split) <;> simp

@[simp] theorem State.startReport_frame (alarm : Bool) (s : State) :
    (State.startReport alarm s).pending = s.pending ∧
    (State.startReport alarm s).now = s.now ∧
    (State.startReport alarm s).supplies = s.supplies ∧
    (State.startReport alarm s).coin = s.coin ∧
    (State.startReport alarm s).credit = s.credit ∧
    (State.startReport alarm s).comp = s.comp ∧
    (State.startReport alarm s).tariff = s.tariff ∧
    (State.startReport alarm s).clock = s.clock ∧
    (State.startReport alarm s).rating = s.rating ∧
    (State.startReport alarm s).line = s.line ∧
    (State.startReport alarm s).session = s.session ∧
    (State.startReport alarm s).sup = s.sup ∧
    (State.startReport alarm s).settings = s.settings ∧
    (State.startReport alarm s).attention = s.attention ∧
    (State.startReport alarm s).hostPort = s.hostPort ∧
    (State.startReport alarm s).servicePort = s.servicePort := by
  dsimp only [State.startReport]
  (repeat' split) <;> simp

/-- A law that each of some changes keeps is kept by all of them made in turn. -/
theorem State.makeChanges_law {P : State → Prop} {changes : List (State → State)} (h : ∀ f ∈ changes, ∀ s, P s → P (f s))
    (s : State) (hs : P s) : P (s.makeChanges changes) := by
  induction changes generalizing s with
  | nil => exact hs
  | cons f rest ih => exact ih (fun g hg => h g (.tail _ hg)) _ (h f (.head _) s hs)

/-- R192: what holds of each kind of change that steps 4 to 6 make holds of every change of a start-up. -/
theorem State.startChanges_all {P : (State → State) → Prop} {readings : StartReadings} (take : P (State.takeReadings readings))
    (forced : P (State.startForcedEntry readings)) (near : P State.startNear) (full : P State.startFull)
    (delays : P (State.startClearDelays readings)) (settle : ∀ src, P (State.settleRecord src))
    (retention : P State.retentionOccurrence) (clock : P State.clockOccurrence) (hold : P State.holdLevel)
    (forfeit : P State.addStartForfeit) (banked : P State.clearBanked) (lost : Nat) :
    ∀ f ∈ State.startChanges readings lost, P f := by
  intro f hf
  simp only [State.startChanges, List.mem_append, List.mem_cons, List.not_mem_nil, or_false, List.mem_map,
    List.mem_replicate] at hf
  rcases hf with (((rfl | rfl | rfl | rfl | rfl) | ⟨src, -, rfl⟩) | ⟨-, rfl⟩) | rfl | rfl | rfl | rfl
  all_goals first | assumption | exact settle src

/-- R192: a law that each kind of change of a start-up keeps is kept by any number of its changes. -/
theorem State.startChanges_law {P : State → Prop} {readings : StartReadings}
    (take : ∀ s, P s → P (s.takeReadings readings)) (forced : ∀ s, P s → P (s.startForcedEntry readings))
    (near : ∀ s, P s → P s.startNear) (full : ∀ s, P s → P s.startFull) (delays : ∀ s, P s → P (s.startClearDelays readings))
    (settle : ∀ src s, P s → P (s.settleRecord src)) (retention : ∀ s, P s → P s.retentionOccurrence)
    (clock : ∀ s, P s → P s.clockOccurrence) (hold : ∀ s, P s → P s.holdLevel) (forfeit : ∀ s, P s → P s.addStartForfeit)
    (banked : ∀ s, P s → P s.clearBanked) (lost : Nat) {changes : List (State → State)}
    (hc : ∀ f ∈ changes, f ∈ State.startChanges readings lost) (s : State) (hs : P s) : P (s.makeChanges changes) :=
  State.makeChanges_law (fun f hf => State.startChanges_all (P := fun f => ∀ s, P s → P (f s)) take forced near full delays
    settle retention clock hold forfeit banked lost f (hc f hf)) s hs

/-- The first changes of a list are changes of it. -/
theorem State.mem_of_take {changes : List (State → State)} (n : Nat) : ∀ f ∈ changes.take n, f ∈ changes :=
  fun _ hf => List.mem_of_mem_take hf

/-- R192: what steps 4 to 6 of a start-up leave as it was, whatever of them is made. -/
theorem State.startChanges_frame {readings : StartReadings} {lost : Nat} {changes : List (State → State)}
    (hc : ∀ f ∈ changes, f ∈ State.startChanges readings lost) (s : State) :
    (s.makeChanges changes).pending = s.pending ∧
    (s.makeChanges changes).now = s.now ∧
    (s.makeChanges changes).supplies = s.supplies ∧
    (s.makeChanges changes).coin = s.coin ∧
    (s.makeChanges changes).clock = s.clock ∧
    (s.makeChanges changes).report = s.report ∧
    (s.makeChanges changes).settings = s.settings ∧
    (s.makeChanges changes).hostPort = s.hostPort ∧
    (s.makeChanges changes).servicePort = s.servicePort := by
  refine State.startChanges_law (P := fun t => t.pending = s.pending ∧ t.now = s.now ∧ t.supplies = s.supplies ∧ t.coin = s.coin ∧ t.clock = s.clock ∧ t.report = s.report ∧ t.settings = s.settings ∧ t.hostPort = s.hostPort ∧ t.servicePort = s.servicePort)
    ?_ ?_ ?_ ?_ ?_ ?_ ?_ ?_ ?_ ?_ ?_ lost hc s (by simp)
  all_goals intros; simp_all

@[simp] theorem State.startChanges_makeChanges_frame (readings : StartReadings) (lost : Nat) (s : State) :
    (s.makeChanges (State.startChanges readings lost)).pending = s.pending ∧
    (s.makeChanges (State.startChanges readings lost)).now = s.now ∧
    (s.makeChanges (State.startChanges readings lost)).supplies = s.supplies ∧
    (s.makeChanges (State.startChanges readings lost)).coin = s.coin ∧
    (s.makeChanges (State.startChanges readings lost)).clock = s.clock ∧
    (s.makeChanges (State.startChanges readings lost)).report = s.report ∧
    (s.makeChanges (State.startChanges readings lost)).settings = s.settings ∧
    (s.makeChanges (State.startChanges readings lost)).hostPort = s.hostPort ∧
    (s.makeChanges (State.startChanges readings lost)).servicePort = s.servicePort :=
  State.startChanges_frame (fun _ hf => hf) s

@[simp] theorem State.startChanges_take_frame (readings : StartReadings) (lost n : Nat) (s : State) :
    (s.makeChanges ((State.startChanges readings lost).take n)).pending = s.pending ∧
    (s.makeChanges ((State.startChanges readings lost).take n)).now = s.now ∧
    (s.makeChanges ((State.startChanges readings lost).take n)).supplies = s.supplies ∧
    (s.makeChanges ((State.startChanges readings lost).take n)).coin = s.coin ∧
    (s.makeChanges ((State.startChanges readings lost).take n)).clock = s.clock ∧
    (s.makeChanges ((State.startChanges readings lost).take n)).report = s.report ∧
    (s.makeChanges ((State.startChanges readings lost).take n)).settings = s.settings ∧
    (s.makeChanges ((State.startChanges readings lost).take n)).hostPort = s.hostPort ∧
    (s.makeChanges ((State.startChanges readings lost).take n)).servicePort = s.servicePort :=
  State.startChanges_frame (State.mem_of_take n) s

@[simp] theorem State.restartWith_frame (lost : Region → Bool) (supplies : Supplies) (s : State) :
    (s.restartWith lost supplies).pending = s.pending ∧
    (s.restartWith lost supplies).now = s.now ∧
    (s.restartWith lost supplies).supplies = supplies := ⟨rfl, rfl, rfl⟩

@[simp] theorem State.restartBlocks_frame (readings : StartReadings) (s : State) :
    (s.restartBlocks readings).pending = s.pending ∧
    (s.restartBlocks readings).now = s.now := ⟨rfl, rfl⟩

@[simp] theorem State.startTables_frame (readings : StartReadings) (s : State) :
    (s.startTables readings).pending = s.pending ∧
    (s.startTables readings).now = s.now := by
  simp [State.startTables]

@[simp] theorem State.cutTables_frame (readings : StartReadings) (written : List Region) (s : State) :
    (s.cutTables readings written).pending = s.pending ∧
    (s.cutTables readings written).now = s.now := by
  simp [State.cutTables]

/-- R192: the end of a start-up (steps 8 and 9) touches no more than the coin path, the session, the report unit and the
flags. -/
theorem State.fullStart_frame (readings : StartReadings) (s : State) :
    (s.fullStart readings).credit =
      ((s.startTables readings).makeChanges (State.startChanges readings (s.retentionCount readings))).credit ∧
    (s.fullStart readings).comp =
      ((s.startTables readings).makeChanges (State.startChanges readings (s.retentionCount readings))).comp ∧
    (s.fullStart readings).tariff =
      ((s.startTables readings).makeChanges (State.startChanges readings (s.retentionCount readings))).tariff ∧
    (s.fullStart readings).clock =
      ((s.startTables readings).makeChanges (State.startChanges readings (s.retentionCount readings))).clock ∧
    (s.fullStart readings).sup =
      ((s.startTables readings).makeChanges (State.startChanges readings (s.retentionCount readings))).sup := by
  simp [State.fullStart]

@[simp] theorem State.startUp_frame (readings : StartReadings) (s : State) :
    (State.startUp readings s).pending = s.pending ∧
    (State.startUp readings s).now = s.now := by
  dsimp only [State.startUp]
  split <;> simp [State.fullStart, State.cutJudging, State.cutAfter]

@[simp] theorem State.tick_frame (s : State) :
    (State.tick s).pending = s.pending ∧
    (State.tick s).supplies = s.supplies ∧
    (State.tick s).coin = s.coin ∧
    (State.tick s).credit = s.credit ∧
    (State.tick s).comp = s.comp ∧
    (State.tick s).tariff = s.tariff ∧
    (State.tick s).clock = s.clock ∧
    (State.tick s).rating = s.rating ∧
    (State.tick s).line = s.line ∧
    (State.tick s).session = s.session ∧
    (State.tick s).sup = s.sup ∧
    (State.tick s).report = s.report ∧
    (State.tick s).settings = s.settings ∧
    (State.tick s).attention = s.attention ∧
    (State.tick s).hostPort = s.hostPort ∧
    (State.tick s).servicePort = s.servicePort := by
  dsimp only [State.tick]
  (repeat' split) <;> simp

end Sys2Proof.Machine
end

