-- ==== Sys2Proof/Laws/Exec.lean ====
section
/-! SUPPORT. The frame around every command's work: the supply (log entry 6), credit handed on (R24), the serving of a
request (R187) and a key press (R132); each keeps what its work keeps. And every command has an effect: no step stops. -/

namespace Sys2Proof.Machine

/-! ## What the wrappers keep -/

/-- A law that a command's work keeps, the command keeps. -/
theorem State.whilePowered_keeps {P : State → Prop} {work : State → State} {s : State} (h : P s → P (work s)) (hs : P s) :
    P (s.whilePowered work) := by
  unfold State.whilePowered
  split
  · exact h hs
  · exact hs

/-- A law that a step's work keeps and the handing on of credit keeps, the step keeps. -/
theorem State.creditStep_keeps {P : State → Prop} {work : State → State} {s : State} (h : P s → P (work s))
    (hand : ∀ a t, P t → P (t.handCredit a)) (hs : P s) : P (s.creditStep work) := hand _ _ (h hs)

/-- A law that a key press's taking keeps and the key's change keeps, the press keeps. -/
theorem State.pressKey_keeps {P : State → Prop} {key : Key} {take : State → State} {s : State}
    (h : ∀ t, P t → P (take t)) (hkey : ∀ x, P s → P (s.setKey key x)) (hs : P s) : P (s.pressKey key take) := by
  unfold State.pressKey
  split
  · exact h _ (hkey _ hs)
  · exact hs

/-- A law that a request's work keeps and the answer keeps, the serving keeps. -/
theorem State.serve_keeps {P : State → Prop} {p : Port} {kind : Nat} {tag : Byte} {body : List Byte}
    {fits : List Byte → Bool} {work : State → State × Reply} {s : State} (h : P s → P (work s).1)
    (hport : ∀ r t, P t → P (t.answer p r)) (hs : P s) : P (s.serve p kind tag body fits work) := by
  unfold State.serve
  (repeat' split) <;> first | exact hport _ _ (h hs) | exact hport _ _ hs | exact hs

/-! ## Every command has an effect -/

/-- R186 to R193, and every other rule: no command faults or is refused. -/
theorem exec_next (c : Instr) (s : State) : ∃ t, exec c s = .next t := by
  cases c <;> exact ⟨_, rfl⟩

/-- No step stops. -/
theorem step_next (s : State) : ∃ t, step s = .next t := by
  unfold step State.idle
  split
  · split
    · exact exec_next _ _
    · exact ⟨_, rfl⟩
  · exact exec_next _ _

/-! ## What a command's work keeps -/

/-- The work of a command, without the frame around it: the supply, the handing on of credit, and a request's port. -/
def Instr.work (c : Instr) (s : State) : State :=
  match c with
  | .validatorAccepted cls => State.acceptCoin cls s
  | .validatorRejected => State.rejectCoin s
  | .columnEntryPulse => State.columnPulse s
  | .cashboxEntryPulse => State.cashboxPulse s
  | .transitWindowEnd => State.expireTransit s
  | .refundCycleStart => State.startRefund s
  | .collectCycleStart => State.startCollect s
  | .collectGateHome => State.collectHome s
  | .collectWindowTimeout => State.timeOutCollect s
  | .refundGateHome => State.refundHome s
  | .refundWindowTimeout => State.timeOutRefund s
  | .returnCupPulse => State.cupPulse s
  | .returnCupWatchEnd => State.endWatch s
  | .slotObstructed10s => State.slotObstructed s
  | .slotClear5s => State.makeNormal .coinSlot s
  | .sessionEndClose => State.closeSessionAccount s
  | .doorReading reading => State.readDoor reading s
  | .keyReading reading => State.readKey reading s
  | .cashboxRemoval => State.removeCashbox s
  | .cashboxInsertion => State.insertCashbox s
  | .tallyGet _ _ _ => s
  | .tallyRelease _ _ _ => (State.releaseTally s).1
  | .tariffPut _ _ body => (State.putTariff body s).1
  | .tariffGet _ _ _ => s
  | .tariffWithdraw _ _ body => (State.withdrawTariff (byteAt body 0) s).1
  | .tariffFind _ _ _ => s
  | .tariffScan _ _ _ => s
  | .clockSecond => if s.supplies.main then s.clockTick else if s.supplies.backupLost then s else s.advanceClock
  | .clockSet _ _ body => (State.setTime body s).1
  | .clockGet _ _ _ => s
  | .holidaySet _ _ body => (State.setHolidays body s).1
  | .holidayGet _ _ _ => s
  | .bandSet _ _ body => (State.setBands body s).1
  | .bandGet _ _ _ => s
  | .stepBoundary => State.stepBoundary s
  | .warningToneStart => State.startWarningTone s
  | .flagsReadClear _ _ _ => (State.readClearFlags s).1
  | .lineGrant => State.makeGrant s
  | .loopCurrentSeen => State.seeCurrent s
  | .seizureTimeout => State.endSeizure s
  | .dialToneClassified => State.hearDialTone s
  | .dialToneTimeout => State.endDialTone s
  | .diallingEnd => State.endDialling s
  | .busyClassified => State.hearBusy s
  | .polarityReversal => State.reversePolarity s
  | .presumedDelayEnd => State.endPresumedDelay s
  | .answerWaitEnd => State.endAnswerWait s
  | .acknowledgeClassified => State.hearAcknowledge s
  | .refuseClassified => State.hearRefuse s
  | .toneStringSent => State.endToneString s
  | .releaseGuardEnd => State.endGuard s
  | .loopCurrentLoss => State.loseLine s
  | .lineAbsent5s => State.lineAbsent s
  | .linePresent10s => State.linePresent s
  | .offHook => State.liftHandset s
  | .onHook => State.replaceHandset s
  | .clearingEnd => State.endClearing s
  | .symbolKeyPress sym => State.pressKey (.symbol sym) (State.takeSymbol sym) s
  | .followOnPress => State.pressKey .followOn State.takeFollowOn s
  | .keyStuck key => State.stickKey key s
  | .keyRelease key => State.releaseKey key s
  | .firstSymbolTimeout => State.expireFirstSymbol s
  | .interSymbolTimeout => State.expireInterSymbol s
  | .creditWaitTimeout => State.expireCreditWait s
  | .inputActiveEdge input => State.activeEdge input s
  | .inputInactiveChange input => State.inactiveChange input s
  | .countWindowEnd input => State.endWindow input s
  | .holdOffEnd input => State.endHoldOff input s
  | .clearDelayEnd input => State.endClearDelay input s
  | .conditionClear _ _ body => (State.clearCode (byteAt body 0) s).1
  | .conditionGet _ _ _ => s
  | .retryTimerExpiry => State.expireRetry s
  | .replyWaitEnd => State.endReplyWait s
  | .reportNow _ _ _ => (State.reportNow s).1
  | .responseRead port => State.readResponse port s
  | .statusGet _ _ _ => s
  | .coinClassSet _ _ body => (State.setCoinClass body s).1
  | .coinClassGet _ _ _ => s
  | .settingSet _ _ body => (State.setSetting body s).1
  | .settingGet _ _ _ => s
  | .attentionGet _ _ _ => s
  | .attentionAck _ _ body => (State.ackAttention (body.getD 0 0) s).1
  | .attentionMask _ _ body => (State.maskAttention (body.getD 0 0) s).1
  | .stationInit _ _ _ => (State.stationInit s).1
  | .unknownRequest port kind _ _ => if kindReachesPort port kind then s else s.readResponse port
  | .mainSupplyStart readings => (s.startUp readings)
  | .mainSupplyLoss => s.loseMain
  | .gateLeavesHome gate => State.makeAbnormal (gateSource gate) s
  | .dialSymbolSent => State.passDialPoint s
  | .backupSupplyLoss => s.loseBackup

/-- A law that the handing on of credit keeps, that a port's answer keeps and that every command's work keeps, every command
keeps. -/
theorem exec_keeps {P : State → Prop} (hand : ∀ a s, P s → P (s.handCredit a)) (answer : ∀ p r s, P s → P (s.answer p r))
    (work : ∀ c s, P s → P (Instr.work c s)) (c : Instr) (s t : State) (hs : P s) (h : exec c s = .next t) : P t := by
  have hw := fun s => work c s
  cases c <;> (injection h with h; subst h)
  case clockSecond | mainSupplyStart | mainSupplyLoss | backupSupplyLoss => exact hw _ hs
  case unknownRequest p k g b =>
    refine State.whilePowered_keeps (fun hs => ?_) hs
    have := hw s hs
    simp only [Instr.work] at this
    split
    · exact State.serve_keeps (fun h => h) (fun _ _ => answer _ _ _) hs
    · rename_i hk
      simpa [hk] using this
  all_goals refine State.whilePowered_keeps (fun hs => ?_) hs
  case conditionClear =>
    exact State.creditStep_keeps (State.serve_keeps (fun h => hw s h) (fun _ _ => answer _ _ _)) (fun _ _ => hand _ _) hs
  case columnEntryPulse | cashboxEntryPulse | refundCycleStart | collectGateHome | collectWindowTimeout | refundGateHome |
      refundWindowTimeout | cashboxRemoval | cashboxInsertion =>
    exact State.creditStep_keeps (hw s) (fun _ _ => hand _ _) hs
  case tallyGet | tariffGet | tariffFind | tariffScan | clockGet | holidayGet | bandGet | conditionGet | statusGet |
      coinClassGet | settingGet | attentionGet => exact State.serve_keeps (fun h => h) (fun _ _ => answer _ _ _) hs
  case tallyRelease | tariffPut | tariffWithdraw | clockSet | holidaySet | bandSet | flagsReadClear | reportNow |
      coinClassSet | settingSet | attentionAck | attentionMask | stationInit =>
    exact State.serve_keeps (fun h => hw s h) (fun _ _ => answer _ _ _) hs
  all_goals exact hw s hs

/-- A law that every command keeps and that rests neither on the queue nor on elapsed time, every step keeps. -/
theorem step_keeps {P : State → Prop} (hexec : ∀ c s t, P s → exec c s = .next t → P t)
    (hqueue : ∀ s q, P s → P (s.setPending q)) (htime : ∀ s n, P s → P (s.setNow n)) {s t : State} (hs : P s)
    (h : step s = .next t) : P t := by
  unfold step State.idle at h
  split at h
  · split at h
    · exact hexec _ _ _ hs h
    · cases h
      exact htime _ _ hs
  · exact hexec _ _ _ (hqueue _ _ hs) h

end Sys2Proof.Machine
end

