-- ==== Sys2Proof/Laws/Supervision.lean ====
section
/-! SUPPORT. What the supervision unit can do to a call. A change of a condition can derive a new service level, and a new
level can end the call held (R146); it does nothing else to the tariff table, the rating context, the line and the session.
So a law over these four that the ending of a call keeps, every operation on conditions keeps. -/

namespace Sys2Proof.Machine

/-- Either branch has a law. -/
theorem ite_holds {P : State → Prop} {c : Prop} [Decidable c] {a b : State} (ha : P a) (hb : P b) :
    P (if c then a else b) := by
  split <;> assumption

/-- A law that a fold's step keeps, the fold keeps. -/
theorem foldl_holds {β : Type} {P : State → Prop} {f : State → β → State} (h : ∀ s b, P s → P (f s b)) (l : List β)
    {s : State} (hs : P s) : P (l.foldl f s) := by
  induction l generalizing s with
  | nil => exact hs
  | cons b rest ih => exact ih (h _ _ hs)

/-- A law over a call: it rests on the tariff table, the rating unit, the line and the session alone, and the ending of a
call by a level drop keeps it. -/
structure CallKeeper (P : State → Prop) : Prop where
  congr : ∀ {s t : State}, t.tariff = s.tariff ∧ t.rating = s.rating ∧ t.line = s.line ∧ t.session = s.session → P s → P t
  levelDrop : ∀ {s : State}, s.session.decision.isSome = true → P s → P (s.endCallToEnded .levelDrop)

namespace CallKeeper

variable {P : State → Prop} (K : CallKeeper P) {s : State}
include K

theorem judgeLevel {level : ServiceLevel} (hs : P s) : P (s.judgeLevel level) := by
  unfold State.judgeLevel
  (repeat' split) <;> first | exact hs | exact K.levelDrop (by simp [*]) hs

theorem deriveLevel (hs : P s) : P s.deriveLevel := by
  unfold State.deriveLevel
  dsimp only
  split
  · exact hs
  · exact K.judgeLevel (K.congr (by simp) hs)

theorem retire {src : Source} (hs : P s) : P (s.retire src) := K.deriveLevel (K.congr (by simp) hs)

theorem retireIfDue {src : Source} (hs : P s) : P (s.retireIfDue src) := by
  unfold State.retireIfDue
  (repeat' split) <;> first | exact hs | exact K.retire hs

theorem clearRecord {src : Source} (hs : P s) : P (s.clearRecord src) := by
  unfold State.clearRecord
  split
  · exact hs
  · exact K.retireIfDue (K.deriveLevel (K.congr (by simp) hs))

theorem clearIfNormal {src : Source} (hs : P s) : P (s.clearIfNormal src) := by
  unfold State.clearIfNormal
  (repeat' split) <;> first | exact hs | exact K.clearRecord hs

theorem occurrence {src : Source} {type : ConditionType} {severity : Severity} (hs : P s) :
    P (s.occurrence src type severity) := K.clearIfNormal (K.deriveLevel (K.congr (by simp) hs))

theorem makeNormal {src : Source} (hs : P s) : P (s.makeNormal src) := K.clearIfNormal (K.congr (by simp) hs)

theorem becomeAbnormal {src : Source} {type : ConditionType} {severity : Severity} (hs : P s) :
    P (s.becomeAbnormal src type severity) := K.occurrence (K.congr (by simp) hs)

theorem judgeThreshold {src : Source} {type : ConditionType} {severity : Severity} {reached : Bool} (hs : P s) :
    P (s.judgeThreshold src type severity reached) := by
  unfold State.judgeThreshold
  (repeat' split)
  · exact K.becomeAbnormal hs
  · exact hs
  · exact hs
  · exact K.makeNormal hs

theorem judgeThresholds (hs : P s) : P s.judgeThresholds := K.judgeThreshold (K.judgeThreshold hs)

theorem countOverflow {cls : Fin 16} {value : Nat} (hs : P s) : P (s.countOverflow cls value) :=
  K.judgeThresholds (K.congr (by simp) hs)

theorem countUnexpected (hs : P s) : P s.countUnexpected := K.judgeThresholds (K.congr (by simp) hs)

theorem countCollected {generation : Nat} {c : HeldCoin} (hs : P s) : P (s.countCollected generation c) := by
  unfold State.countCollected
  (repeat' split)
  · exact K.judgeThresholds (K.congr (by simp) hs)
  · exact K.judgeThresholds (K.congr (by simp) hs)
  · exact K.occurrence (K.congr (by simp) hs)

theorem releaseClosedTally (hs : P s) : P s.releaseClosedTally :=
  K.congr (s := (s.setComp { s.comp with closedTally := none }).retire .collection) (by simp [State.releaseClosedTally])
    (K.retire (K.congr (by simp) hs))

theorem resolveWithheld {generation : Nat} (hs : P s) : P (s.resolveWithheld generation) := by
  unfold State.resolveWithheld
  (repeat' split)
  · exact hs
  · exact K.congr (by simp) hs
  · exact K.releaseClosedTally hs
  · exact hs

theorem countUnconfirmed (hs : P s) : P s.countUnconfirmed := by
  unfold State.countUnconfirmed
  split
  · exact K.congr (by simp) hs
  · exact K.occurrence (K.congr (by simp) hs)

theorem removeSnapshot {src : Source} (hs : P s) : P (s.removeSnapshot src) := by
  unfold State.removeSnapshot
  (repeat' split)
  · exact hs
  · exact hs
  · exact K.retireIfDue (K.congr (by simp) hs)

theorem removeSnapshots (hs : P s) : P s.removeSnapshots :=
  foldl_holds (f := fun s src => s.removeSnapshot src) (fun _ _ => K.removeSnapshot) Source.all hs

theorem ackRecord {src : Source} (hs : P s) : P (s.ackRecord src) := by
  unfold State.ackRecord
  cases s.record src with
  | none => exact hs
  | some r =>
    dsimp only
    cases r.snapshot with
    | none => exact hs
    | some snap =>
      dsimp only
      cases r.acknowledge s.clock.time snap with
      | none => exact K.retire hs
      | some r' =>
        dsimp only
        apply K.retireIfDue
        split
        · exact K.congr (by simp) hs
        · exact K.congr (by simp) hs

theorem ackCollection (hs : P s) : P s.ackCollection := by
  unfold State.ackCollection
  dsimp only
  (repeat' split)
  · exact hs
  · exact K.ackRecord (K.congr (by simp) hs)
  · exact K.releaseClosedTally hs
  · exact K.congr (by simp) hs
  · exact K.congr (by simp) hs
  · exact K.ackRecord hs

theorem ackIncluded {i : IncludedRecord} (hs : P s) : P (s.ackIncluded i) := by
  unfold State.ackIncluded
  split
  · exact K.ackCollection hs
  · exact K.ackRecord hs

theorem assignInput {i : Fin 8} {a : Assignment} (hs : P s) : P (s.assignInput i a) := K.deriveLevel (K.congr (by simp) hs)

theorem takeStaged {i : Fin 8} (hs : P s) : P (s.takeStaged i) := by
  unfold State.takeStaged
  (repeat' split)
  · exact K.assignInput hs
  · exact hs
  · exact hs

theorem unuseInput {i : Fin 8} {a : Assignment} (hs : P s) : P (s.unuseInput i a) :=
  ite_holds (K.clearRecord (K.congr (by simp) hs)) (K.congr (by simp) hs)

theorem inputOccurs {i : Fin 8} (hs : P s) : P (s.inputOccurs i) := K.becomeAbnormal (K.congr (by simp) hs)

theorem takeEdge {i : Fin 8} (hs : P s) : P (s.takeEdge i) := by
  unfold State.takeEdge
  split
  · exact K.inputOccurs hs
  · exact ite_holds (K.inputOccurs hs) hs
  · exact ite_holds (K.inputOccurs hs) (K.congr (by simp) hs)

theorem activeEdge {i : Fin 8} (hs : P s) : P (s.activeEdge i) := by
  unfold State.activeEdge
  dsimp only
  (repeat' split)
  · exact hs
  · exact K.takeEdge (K.congr (by simp) hs)
  · exact K.congr (by simp) hs

theorem inactiveChange {i : Fin 8} (hs : P s) : P (s.inactiveChange i) :=
  ite_holds (K.takeStaged (K.congr (by simp) hs)) hs

theorem endWindow {i : Fin 8} (hs : P s) : P (s.endWindow i) := by
  unfold State.endWindow
  dsimp only
  split
  · exact K.takeStaged (K.congr (by simp) hs)
  · exact hs

theorem endHoldOff {i : Fin 8} (hs : P s) : P (s.endHoldOff i) := by
  unfold State.endHoldOff
  dsimp only
  split
  · exact K.takeStaged (K.congr (by simp) hs)
  · exact hs

theorem endClearDelay {i : Fin 8} (hs : P s) : P (s.endClearDelay i) := by
  unfold State.endClearDelay
  dsimp only
  split
  · exact K.makeNormal (K.congr (by simp) hs)
  · exact hs

theorem applyAssignment {i : Fin 8} {a : Assignment} {clamped : Bool} (hs : P s) : P (s.applyAssignment i a clamped).1 := by
  unfold State.applyAssignment
  (repeat' split)
  · exact K.unuseInput hs
  · exact K.assignInput hs
  · exact K.congr (by simp) hs

theorem setEnable {src : Source} {on : Bool} (hs : P s) : P (s.setEnable src on) := by
  unfold State.setEnable
  dsimp only
  (repeat' split)
  · exact K.congr (by simp) hs
  · exact K.congr (by simp) hs
  · exact K.congr (by simp) hs
  · exact K.retireIfDue (K.congr (by simp) hs)

theorem setSetting {body : List Byte} (hs : P s) : P (s.setSetting body).1 := by
  have same : ∀ st : Settings, P (s.setSettings st) := fun st => K.congr (by simp) hs
  unfold State.setSetting
  split
  case h_8 =>
    unfold State.setThresholds
    split
    · exact K.judgeThresholds (same _)
    · exact hs
  case h_10 =>
    unfold State.setReportEnable
    split
    · exact K.setEnable hs
    · exact hs
  case h_11 =>
    unfold State.setAssignment
    (repeat' split)
    · exact K.applyAssignment hs
    · exact hs
    · exact hs
  case h_1 => exact K.congr (by simp) hs
  case h_2 => exact K.congr (by simp) hs
  case h_5 => exact same _
  case h_6 => exact same _
  case h_12 => exact hs
  all_goals split
  all_goals first | exact hs | exact same _

theorem readDoor {reading : DoorReading} (hs : P s) : P (s.readDoor reading) := by
  unfold State.readDoor
  dsimp only
  (repeat' split)
  · exact hs
  · exact K.makeNormal (K.congr (by simp) hs)
  · exact K.occurrence (K.congr (by simp) hs)
  · exact K.congr (by simp) hs

theorem settleRecord {src : Source} (hs : P s) : P (s.settleRecord src) :=
  K.retireIfDue (K.clearIfNormal (K.removeSnapshot hs))

/-- R192: every change of a start-up keeps the law. -/
theorem startChanges {readings : StartReadings} {lost : Nat} {changes : List (State → State)}
    (hc : ∀ f ∈ changes, f ∈ State.startChanges readings lost) (hs : P s) : P (s.makeChanges changes) := by
  refine State.startChanges_law (P := P) ?_ ?_ ?_ ?_ ?_ (fun _ _ => K.settleRecord) ?_ ?_ ?_ ?_ ?_ lost hc s hs
  case refine_6 => exact fun _ h => K.clearIfNormal (K.congr (by simp) h)
  case refine_7 => exact fun _ h => K.congr (by simp only [State.clockOccurrence]; split <;> simp) h
  all_goals exact fun _ h => K.congr (by simp) h

end CallKeeper

end Sys2Proof.Machine
end

