-- ==== Sys2Proof/Laws/Calendar.lean ====
section
/-! SUPPORT. The clock holds a valid time and the weekday of its date (section 5.1): the calendar lemmas this rests on, and that every command keeps it. -/

namespace Sys2Proof.Machine

theorem Weekday.next_ofIndex (n : Nat) : (Weekday.ofIndex (n % 7)).next = Weekday.ofIndex ((n + 1) % 7) := by
  have : n % 7 < 7 := Nat.mod_lt _ (by omega)
  have h : (n + 1) % 7 = (n % 7 + 1) % 7 := by omega
  rw [h]
  generalize n % 7 = k at this
  have : k = 0 ∨ k = 1 ∨ k = 2 ∨ k = 3 ∨ k = 4 ∨ k = 5 ∨ k = 6 := by omega
  rcases this with h | h | h | h | h | h | h <;> subst h <;> rfl

theorem daysBefore_succ (y m : Nat) (h1 : 1 ≤ m) (h2 : m < 12) :
    daysBefore y (m + 1) = daysBefore y m + daysIn y m := by
  have hm : m = 1 ∨ m = 2 ∨ m = 3 ∨ m = 4 ∨ m = 5 ∨ m = 6 ∨ m = 7 ∨ m = 8 ∨ m = 9 ∨ m = 10 ∨ m = 11 := by omega
  rcases hm with rfl | rfl | rfl | rfl | rfl | rfl | rfl | rfl | rfl | rfl | rfl <;>
    simp only [daysBefore, daysIn] <;> split <;> rfl

theorem daysIn_pos (y m : Nat) (h1 : 1 ≤ m) (h2 : m ≤ 12) : 28 ≤ daysIn y m := by
  have hm : m = 1 ∨ m = 2 ∨ m = 3 ∨ m = 4 ∨ m = 5 ∨ m = 6 ∨ m = 7 ∨ m = 8 ∨ m = 9 ∨ m = 10 ∨ m = 11 ∨ m = 12 :=
      by omega
  rcases hm with rfl | rfl | rfl | rfl | rfl | rfl | rfl | rfl | rfl | rfl | rfl | rfl <;>
    simp only [daysIn] <;> first | omega | (split <;> omega)

theorem daysBefore_december (y : Nat) : daysBefore y 12 = 334 + if y % 4 = 0 then 1 else 0 := by
  simp [daysBefore, isLeap]

theorem Date.next_dayNumber {d : Date} (h : d.valid = true) (hl : ¬ (d.year = 2099 ∧ d.month = 12 ∧ d.day = 31)) :
    d.next.valid = true ∧ d.next.dayNumber = d.dayNumber + 1 := by
  obtain ⟨y, m, dd⟩ := d
  simp only [Date.valid, Bool.and_eq_true, decide_eq_true_eq] at h
  obtain ⟨⟨⟨⟨⟨h1, h2⟩, h3⟩, h4⟩, h5⟩, h6⟩ := h
  simp only at hl
  have pos := daysIn_pos y (m + 1)
  have p1 := daysIn_pos (y + 1) 1 (by omega) (by omega)
  unfold Date.next
  dsimp only
  split
  · simp only [Date.valid, Date.dayNumber, Bool.and_eq_true, decide_eq_true_eq]
    omega
  · split
    · have := daysBefore_succ y m h3 (by assumption)
      simp only [Date.valid, Date.dayNumber, Bool.and_eq_true, decide_eq_true_eq]
      omega
    · have hm : m = 12 := by omega
      subst hm
      have h31 : daysIn y 12 = 31 := rfl
      have db := daysBefore_december y
      have d1 : daysBefore (y + 1) 1 = 0 := rfl
      split
      · simp only [Date.valid, Date.dayNumber, Bool.and_eq_true, decide_eq_true_eq]
        refine ⟨by omega, ?_⟩
        rw [db, d1]
        split <;> omega
      · exact absurd ⟨by omega, rfl, by omega⟩ hl

theorem ClockTime.tick_lawful {t : ClockTime} (h : t.valid = true) (hl : t.atEnd = false) :
    t.tick.valid = true ∧
        (t.tick.date = t.date ∨ t.tick.date = t.date.next ∧ t.date.next.dayNumber = t.date.dayNumber + 1 ∧
        t.date.next ≠ t.date) := by
  obtain ⟨d, hh, mm, ss⟩ := t
  simp only [ClockTime.valid, Bool.and_eq_true, decide_eq_true_eq] at h
  obtain ⟨⟨⟨h1, h2⟩, h3⟩, h4⟩ := h
  unfold ClockTime.tick ClockTime.valid
  dsimp only
  (repeat' split)
  · simp [h1]
    omega
  · simp [h1]
    omega
  · simp [h1]
    omega
  · have hn := Date.next_dayNumber (d := d) h1 (by
      simp only [ClockTime.atEnd] at hl
      intro hc
      have e1 : hh = 23 := by omega
      have e2 : mm = 59 := by omega
      have e3 : ss = 59 := by omega
      simp [hc, e1, e2, e3] at hl)
    refine ⟨by simp [hn.1], .inr ⟨rfl, hn.2, ?_⟩⟩
    intro hc
    have := hn.2
    rw [hc] at this
    omega

theorem ClockTime.regionDefault_weekday : ClockTime.regionDefault.date.weekday = .saturday := by
  decide

theorem StationClock.advance_lawful {c : StationClock} (h : c.Lawful) : c.advance.Lawful := by
  unfold StationClock.advance
  split
  · exact ⟨rfl, ClockTime.regionDefault_weekday.symm⟩
  · rename_i hl
    have := ClockTime.tick_lawful h.1 (by simpa using hl)
    refine ⟨this.1, ?_⟩
    dsimp only
    rcases this.2 with h2 | ⟨h2, h3, h4⟩
    · rw [if_pos h2, h2]
      exact h.2
    · rw [if_neg (by rw [h2]; exact h4), h2, h.2]
      unfold Date.weekday
      rw [h3, Weekday.next_ofIndex]
      rfl

/-- The clock is lawful. -/
def State.CalendarLaw (s : State) : Prop := s.clock.Lawful

theorem calendarLaw_congr {s t : State} (h : t.clock = s.clock) (hs : State.CalendarLaw s) : State.CalendarLaw t := by
  unfold State.CalendarLaw at *
  rw [h]
  exact hs

theorem calendarLaw_of2 {s t : State} (h : t.clock.time = s.clock.time) (h2 : t.clock.weekday = s.clock.weekday)
    (hs : State.CalendarLaw s) :
    State.CalendarLaw t := by
  unfold State.CalendarLaw StationClock.Lawful at *
  rw [h, h2]
  exact hs

theorem calendarLaw_advance {s : State} (hs : State.CalendarLaw s) : State.CalendarLaw s.advanceClock := by
  have := StationClock.advance_lawful hs
  exact this

theorem calendarLaw_minuteEvent {s : State} (hs : State.CalendarLaw s) : State.CalendarLaw s.minuteEvent := by
  refine calendarLaw_of2 ?_ ?_ hs
  all_goals
    unfold State.minuteEvent
    dsimp only
    split <;> simp [StationClock.formBand, StationClock.prune]

theorem calendarLaw_work (c : Instr) (s : State) (hs : State.CalendarLaw s) : State.CalendarLaw (Instr.work c s) := by
  cases c <;> dsimp only [Instr.work]
  case clockSecond =>
    unfold State.clockTick
    dsimp only
    have h : State.CalendarLaw
        (if s.advanceClock.clock.time.second = 0 then s.advanceClock.minuteEvent else s.advanceClock) := ite_holds
        (calendarLaw_minuteEvent (calendarLaw_advance hs)) (calendarLaw_advance hs)
    exact ite_holds (ite_holds (calendarLaw_congr (by simp) h) h) (ite_holds hs (calendarLaw_advance hs))
  case clockSet p g b =>
    unfold State.setTime
    dsimp only
    split
    · rename_i hv
      unfold State.CalendarLaw
      simp [StationClock.formBand]
      exact ⟨hv, rfl⟩
    · exact hs
  case holidaySet =>
    unfold State.setHolidays
    dsimp only
    split <;> exact hs
  case bandSet =>
    unfold State.setBands
    dsimp only
    (repeat' split)
    · rename_i d _ _ _ _
      cases d <;> exact hs
    · rename_i d _ _ _ _
      cases d <;> exact hs
    · exact hs
  case mainSupplyStart r =>
    have h : ∀ a b, (s.clock.restart s.now a b).Lawful := by
      intro a b
      unfold StationClock.restart
      cases b
      · cases a <;> exact hs
      · exact ⟨rfl, ClockTime.regionDefault_weekday.symm⟩
    have tables : (s.startTables r).CalendarLaw := by
      refine calendarLaw_congr (s := State.bankActive s |>.restartBlocks r |>.restartTables) (by simp [State.startTables]) ?_
      refine calendarLaw_of2 (s := State.bankActive s |>.restartBlocks r)
          (by simp [State.restartTables, StationClock.formBand]) (by simp [State.restartTables, StationClock.formBand])
          ?_
      exact h _ _
    unfold State.startUp
    split
    · exact calendarLaw_congr (by simp [State.fullStart]) tables
    next written _ =>
      exact calendarLaw_of2 (s := s.bankActive.restartWith (fun q => s.defaulted r q && q ∈ written) s.supplies)
        (by simp [State.cutJudging, State.cutTables]) (by simp [State.cutJudging, State.cutTables]) (h _ _)
    · exact calendarLaw_congr (by simp [State.cutAfter]) tables
  case symbolKeyPress =>
    exact State.pressKey_keeps (fun _ => calendarLaw_congr (by simp)) (fun _ => calendarLaw_congr (by simp)) hs
  case followOnPress =>
    exact State.pressKey_keeps (fun _ => calendarLaw_congr (by simp)) (fun _ => calendarLaw_congr (by simp)) hs
  case unknownRequest => exact ite_holds hs (calendarLaw_congr (by simp) hs)
  any_goals (refine calendarLaw_congr ?_ hs; simp; done)
  all_goals exact hs

end Sys2Proof.Machine
end

