-- ==== Sys2Proof/Laws/TariffTable.lean ====
section
/-! SUPPORT. The laws of section 4.3 over the tariff table: each operation on the table keeps them. -/

namespace Sys2Proof.Machine

/-! ## The pairwise law -/

/-- The two laws of section 4.3, of a pair of records. -/
def TariffRecord.Apart (a b : TariffRecord) : Prop :=
  a.content.pre = b.content.pre →
    ¬ (a.state = .live ∧ b.state = .live) ∧
      (a.state ≠ .retiring → b.state ≠ .retiring → windowsIntersect a.content b.content = false)

/-- A record's own law: its slot lies in 1..239, and it is RETIRING only while pinned. -/
def TariffRecord.InPlace (r : TariffRecord) : Prop :=
  1 ≤ r.slot ∧ r.slot ≤ 239 ∧ (r.state = .retiring → r.pinned = true)

theorem TariffTable.lawful_iff (t : TariffTable) :
    t.Lawful ↔ t.records.Pairwise (fun a b => a.slot < b.slot) ∧ (∀ r ∈ t.records, r.InPlace) ∧
      t.records.Pairwise TariffRecord.Apart := by
  unfold TariffTable.Lawful
  rw [List.pairwise_map]
  rfl

/-- Windows intersect in either order. -/
theorem windowsIntersect_comm (a b : TariffContent) : windowsIntersect a b = windowsIntersect b a := by
  unfold windowsIntersect
  exact Bool.and_comm _ _

theorem TariffRecord.Apart.symm {a b : TariffRecord} (h : a.Apart b) : b.Apart a := by
  intro hp
  obtain ⟨h1, h2⟩ := h hp.symm
  exact ⟨fun hc => h1 ⟨hc.2, hc.1⟩, fun hb ha => by rw [windowsIntersect_comm]; exact h2 ha hb⟩

/-- What an operation may make of a record: the same slot and content, in the same state or RETIRING. -/
def TariffRecord.Ages (r r' : TariffRecord) : Prop :=
  r'.slot = r.slot ∧ r'.content = r.content ∧ (r'.state = r.state ∨ r'.state = .retiring)

theorem TariffRecord.Apart.ages {a b a' b' : TariffRecord} (h : a.Apart b) (ha : a.Ages a') (hb : b.Ages b') :
    a'.Apart b' := by
  obtain ⟨_, ca, sa⟩ := ha
  obtain ⟨_, cb, sb⟩ := hb
  intro hp
  rw [ca, cb] at hp
  obtain ⟨h1, h2⟩ := h hp
  rw [ca, cb]
  refine ⟨fun hc => ?_, fun na nb => ?_⟩
  · rcases sa with sa | sa <;> rcases sb with sb | sb <;> simp_all
  · rcases sa with sa | sa <;> rcases sb with sb | sb <;> simp_all

/-- A table whose records are aged or removed one by one keeps its laws. -/
theorem lawful_filterMap {t : TariffTable} (f : TariffRecord → Option TariffRecord)
    (hf : ∀ r r', r.InPlace → f r = some r' → r.Ages r' ∧ r'.InPlace) (h : t.Lawful) :
    ({ t with records := t.records.filterMap f }).Lawful := by
  rw [TariffTable.lawful_iff] at *
  obtain ⟨h1, h2, h3⟩ := h
  refine ⟨?_, ?_, ?_⟩
  · refine List.pairwise_filterMap.2 ?_
    refine (List.Pairwise.and_mem.1 h1).imp ?_
    intro a b ⟨ma, mb, hab⟩ a' ha b' hb
    rw [(hf a a' (h2 a ma) ha).1.1, (hf b b' (h2 b mb) hb).1.1]
    exact hab
  · intro r hr
    obtain ⟨a, ha, hfa⟩ := List.mem_filterMap.1 hr
    exact (hf a r (h2 a ha) hfa).2
  · refine List.pairwise_filterMap.2 ?_
    refine (List.Pairwise.and_mem.1 h3).imp ?_
    intro a b ⟨ma, mb, hab⟩ a' ha b' hb
    exact hab.ages (hf a a' (h2 a ma) ha).1 (hf b b' (h2 b mb) hb).1

/-! ## Pins and withdrawals -/

theorem TariffRecord.withdrawn_ages {r r' : TariffRecord} (h : r.InPlace) (hw : r.withdrawn = some r') :
    r.Ages r' ∧ r'.InPlace := by
  unfold TariffRecord.withdrawn at hw
  split at hw
  · rename_i hc
    simp only [Bool.and_eq_true, decide_eq_true_eq] at hc
    cases hw
    exact ⟨⟨rfl, rfl, .inr rfl⟩, h.1, h.2.1, fun _ => hc.2⟩
  · cases hw

theorem TariffRecord.released_ages {r r' : TariffRecord} (h : r.InPlace) (hw : r.released = some r') :
    r.Ages r' ∧ r'.InPlace := by
  unfold TariffRecord.released at hw
  split at hw
  · cases hw
  · rename_i hc
    cases hw
    exact ⟨⟨rfl, rfl, .inl rfl⟩, h.1, h.2.1, fun hr => absurd hr hc⟩

/-- R66: pinning keeps the table's laws. -/
theorem TariffTable.pin_lawful {t : TariffTable} {slot : Nat} (h : t.Lawful) : (t.pin slot).Lawful := by
  unfold TariffTable.pin
  split
  · exact h
  · rw [← List.filterMap_eq_map]
    refine lawful_filterMap _ ?_ h
    intro r r' hr hf
    simp only [Function.comp_apply, Option.some.injEq] at hf
    subst hf
    split
    · exact ⟨⟨rfl, rfl, .inl rfl⟩, hr.1, hr.2.1, fun _ => rfl⟩
    · exact ⟨⟨rfl, rfl, .inl rfl⟩, hr⟩

/-- R67: the release of a pin keeps the table's laws. -/
theorem TariffTable.releasePin_lawful {t : TariffTable} {slot : Nat} (h : t.Lawful) : (t.releasePin slot).Lawful := by
  unfold TariffTable.releasePin
  split
  · exact h
  · refine lawful_filterMap _ ?_ h
    intro r r' hr hf
    split at hf
    · exact TariffRecord.released_ages hr hf
    · cases hf
      exact ⟨⟨rfl, rfl, .inl rfl⟩, hr⟩

/-- R76: clearing every pin at start-up keeps the table's laws. -/
theorem TariffTable.releaseAll_lawful {t : TariffTable} (h : t.Lawful) : t.releaseAll.Lawful :=
  lawful_filterMap (t := t) TariffRecord.released (fun _ _ hr hf => TariffRecord.released_ages hr hf) h

/-- R58, R63: TARIFF_WITHDRAW keeps the table's laws. -/
theorem TariffTable.withdraw_lawful {t : TariffTable} {slot : Nat} (h : t.Lawful) : (t.withdraw slot).1.Lawful := by
  unfold TariffTable.withdraw
  split
  · exact h
  · split
    · exact h
    · split
      · exact h
      · refine lawful_filterMap _ ?_ h
        intro r r' hr hf
        split at hf
        · exact TariffRecord.withdrawn_ages hr hf
        · cases hf
          exact ⟨⟨rfl, rfl, .inl rfl⟩, hr⟩

/-! ## The evaluation -/

/-- Two windows that both hold the clock's time intersect. -/
theorem intersect_of_now {now : MinuteTime} {a b : TariffContent} (ha : notYet now a.effectiveFrom = false)
    (hb : notYet now b.effectiveFrom = false) (ra : hasPassed now a.retireAt = false)
    (rb : hasPassed now b.retireAt = false) : windowsIntersect a b = true := by
  unfold windowsIntersect endsBefore
  unfold notYet at ha hb
  unfold hasPassed at ra rb
  generalize a.effectiveFrom = ea, b.effectiveFrom = eb, a.retireAt = pa, b.retireAt = pb at *
  cases ea <;> cases eb <;> cases pa <;> cases pb <;> simp at * <;> omega

/-- R64: the retirements keep the table's laws, and leave no PENDING or LIVE record whose retire-at has passed. -/
theorem TariffRecord.retired_ages {now : MinuteTime} {r r' : TariffRecord} (h : r.InPlace)
    (hf : r.retired now = some r') : r.Ages r' ∧ r'.InPlace := by
  unfold TariffRecord.retired at hf
  split at hf
  · exact TariffRecord.withdrawn_ages h hf
  · cases hf
    exact ⟨⟨rfl, rfl, .inl rfl⟩, h⟩

theorem TariffRecord.retired_not_passed {now : MinuteTime} {r r' : TariffRecord} (hf : r.retired now = some r')
    (hs : r'.state ≠ .retiring) : hasPassed now r'.content.retireAt = false := by
  unfold TariffRecord.retired at hf
  split at hf
  · unfold TariffRecord.withdrawn at hf
    split at hf
    · cases hf
      exact absurd rfl hs
    · cases hf
  · rename_i hc
    cases hf
    simp only [Bool.and_eq_true, decide_eq_true_eq, not_and, Bool.not_eq_true] at hc
    exact hc hs

/-- R64: an evaluation keeps the table's laws. -/
theorem TariffTable.evaluate_lawful {t : TariffTable} {now : MinuteTime} (h : t.Lawful) :
    ({ t with records := evaluate now t.records }).Lawful := by
  have hk := lawful_filterMap (t := t) (TariffRecord.retired now) (fun _ _ hr hf => TariffRecord.retired_ages hr hf) h
  unfold evaluate
  dsimp only
  rw [TariffTable.lawful_iff] at hk ⊢
  dsimp only at hk ⊢
  generalize hkept : t.records.filterMap (TariffRecord.retired now) = kept at hk ⊢
  have hnp : ∀ r ∈ kept, r.state ≠ .retiring → hasPassed now r.content.retireAt = false := by
    intro r hr hs
    rw [← hkept] at hr
    obtain ⟨a, _, hfa⟩ := List.mem_filterMap.1 hr
    exact TariffRecord.retired_not_passed hfa hs
  obtain ⟨h1, h2, h3⟩ := hk
  have slot : ∀ r, (TariffRecord.promoted now kept r).slot = r.slot := by
    intro r; unfold TariffRecord.promoted; split <;> rfl
  have content : ∀ r, (TariffRecord.promoted now kept r).content = r.content := by
    intro r; unfold TariffRecord.promoted; split <;> rfl
  refine ⟨?_, ?_, ?_⟩
  · rw [List.pairwise_map]
    exact h1.imp (fun hab => by rw [slot, slot]; exact hab)
  · intro r hr
    obtain ⟨a, ha, rfl⟩ := List.mem_map.1 hr
    have := h2 a ha
    unfold TariffRecord.promoted
    split
    · exact ⟨this.1, this.2.1, fun hc => by cases hc⟩
    · exact this
  · rw [List.pairwise_map]
    refine (List.Pairwise.and_mem.1 h3).imp ?_
    intro a b ⟨ma, mb, hab⟩
    intro hp
    rw [content, content] at hp
    obtain ⟨g1, g2⟩ := hab hp
    rw [content, content]
    have live_none : ∀ x ∈ kept, ∀ p, x.content.pre = p → liveWith p kept = false → x.state ≠ .live := by
      intro x hx p hxp hl hs
      unfold liveWith at hl
      rw [List.any_eq_false] at hl
      exact hl x hx (by simp [hs, hxp])
    unfold TariffRecord.promoted
    by_cases ca : (a.state = .pending && !notYet now a.content.effectiveFrom && !liveWith a.content.pre kept) = true <;>
      by_cases cb : (b.state = .pending && !notYet now b.content.effectiveFrom && !liveWith b.content.pre kept) = true
    · simp only [Bool.and_eq_true, decide_eq_true_eq, Bool.not_eq_eq_eq_not, Bool.not_true] at ca cb
      have hi := intersect_of_now ca.1.2 cb.1.2 (hnp a ma (by rw [ca.1.1]; simp)) (hnp b mb (by rw [cb.1.1]; simp))
      rw [g2 (by rw [ca.1.1]; simp) (by rw [cb.1.1]; simp)] at hi
      cases hi
    · simp only [ca, cb, if_true]
      simp only [Bool.and_eq_true, decide_eq_true_eq, Bool.not_eq_eq_eq_not, Bool.not_true] at ca
      exact ⟨fun hc => live_none b mb _ hp.symm ca.2 hc.2, fun _ nb => g2 (by rw [ca.1.1]; simp) nb⟩
    · simp only [ca, cb, if_true]
      simp only [Bool.and_eq_true, decide_eq_true_eq, Bool.not_eq_eq_eq_not, Bool.not_true] at cb
      exact ⟨fun hc => live_none a ma _ hp cb.2 hc.1, fun na _ => g2 na (by rw [cb.1.1]; simp)⟩
    · simp only [ca, cb]
      exact ⟨g1, g2⟩

/-! ## Putting a record -/

theorem mem_insertRecord {x r : TariffRecord} {l : List TariffRecord} : x ∈ insertRecord r l ↔ x = r ∨ x ∈ l := by
  induction l with
  | nil => simp [insertRecord]
  | cons q rest ih =>
    unfold insertRecord
    split
    · simp
    · simp only [List.mem_cons, ih]
      constructor <;> rintro (h | h | h) <;> simp [h]

/-- A record put in an empty slot leaves the slots strictly rising. -/
theorem insertRecord_sorted {r : TariffRecord} {l : List TariffRecord} (h : l.Pairwise (fun a b => a.slot < b.slot))
    (hf : ∀ q ∈ l, q.slot ≠ r.slot) : (insertRecord r l).Pairwise (fun a b => a.slot < b.slot) := by
  induction l with
  | nil => simp [insertRecord]
  | cons q rest ih =>
    obtain ⟨hq, hrest⟩ := List.pairwise_cons.1 h
    unfold insertRecord
    split
    · rename_i hlt
      refine List.pairwise_cons.2 ⟨fun x hx => ?_, h⟩
      rcases List.mem_cons.1 hx with rfl | hx
      · exact hlt
      · exact Nat.lt_trans hlt (hq x hx)
    · rename_i hge
      refine List.pairwise_cons.2 ⟨fun x hx => ?_, ih hrest (fun x hx => hf x (List.mem_cons_of_mem _ hx))⟩
      rcases mem_insertRecord.1 hx with rfl | hx
      · have := hf q List.mem_cons_self
        omega
      · exact hq x hx

theorem insertRecord_pairwise {R : TariffRecord → TariffRecord → Prop} (hsymm : ∀ a b, R a b → R b a) {r : TariffRecord}
    {l : List TariffRecord} (h : l.Pairwise R) (hr : ∀ q ∈ l, R r q) : (insertRecord r l).Pairwise R := by
  induction l with
  | nil => simp [insertRecord]
  | cons q rest ih =>
    obtain ⟨hq, hrest⟩ := List.pairwise_cons.1 h
    unfold insertRecord
    split
    · exact List.pairwise_cons.2 ⟨hr, h⟩
    · refine List.pairwise_cons.2 ⟨fun x hx => ?_, ih hrest (fun x hx => hr x (List.mem_cons_of_mem _ hx))⟩
      rcases mem_insertRecord.1 hx with rfl | hx
      · exact hsymm _ _ (hr q List.mem_cons_self)
      · exact hq x hx

/-- R60: the slot found lies in 1..239, and no record stands in it. -/
theorem lowestEmpty_spec {l : List TariffRecord} {n : Nat} (h : lowestEmpty l = some n) :
    1 ≤ n ∧ n ≤ 239 ∧ ∀ q ∈ l, q.slot ≠ n := by
  unfold lowestEmpty at h
  have hm := List.mem_of_find?_eq_some h
  have hp := List.find?_some h
  simp only [List.mem_range'_1] at hm
  refine ⟨hm.1, by omega, fun q hq hc => ?_⟩
  simp only [Bool.not_eq_eq_eq_not, Bool.not_true, List.any_eq_false, decide_eq_true_eq] at hp
  exact hp q hq hc

/-- R60, R61, R62: a record installed in the lowest empty slot of a lawful table that holds no clashing record. -/
theorem install_lawful {t : TariffTable} {now : MinuteTime} {c : TariffContent} {n : Nat} (h : t.Lawful)
    (hc : ∀ q ∈ t.records, q.clashes c = false) (hn : lowestEmpty t.records = some n) :
    ({ t with records := insertRecord ⟨n, c, installState now t.records c, false⟩ t.records }).Lawful := by
  obtain ⟨n1, n2, n3⟩ := lowestEmpty_spec hn
  rw [TariffTable.lawful_iff] at *
  obtain ⟨h1, h2, h3⟩ := h
  refine ⟨insertRecord_sorted h1 n3, ?_, insertRecord_pairwise (fun _ _ => TariffRecord.Apart.symm) h3 ?_⟩
  · intro r hr
    rcases mem_insertRecord.1 hr with rfl | hr
    · refine ⟨n1, n2, fun hs => ?_⟩
      unfold installState at hs
      dsimp only at hs
      (repeat' split at hs) <;> cases hs
    · exact h2 r hr
  · intro q hq hp
    have hcl := hc q hq
    dsimp only at hp
    refine ⟨fun hl => ?_, fun _ nq => ?_⟩
    · dsimp only at hl
      have hlive : liveWith c.pre t.records = true := by
        unfold liveWith
        rw [List.any_eq_true]
        exact ⟨q, hq, by simp [hl.2, hp]⟩
      unfold installState at hl
      (repeat' split at hl) <;> simp_all
    · unfold TariffRecord.clashes at hcl
      rw [windowsIntersect_comm]
      simp_all

/-- R60: TARIFF_PUT with mode NEW keeps the table's laws. -/
theorem TariffTable.putNew_lawful {t : TariffTable} {now : MinuteTime} {c : TariffContent} (h : t.Lawful) :
    (t.putNew now c).1.Lawful := by
  unfold TariffTable.putNew
  split
  · exact h
  · rename_i hc
    split
    · exact h
    · rename_i n hn
      refine install_lawful h (fun q hq => ?_) hn
      rw [Bool.not_eq_true, List.any_eq_false] at hc
      simpa using hc q hq

/-- R61: TARIFF_PUT with mode REPLACE keeps the table's laws. -/
theorem TariffTable.putReplace_lawful {t : TariffTable} {now : MinuteTime} {c : TariffContent} (h : t.Lawful) :
    (t.putReplace now c).1.Lawful := by
  unfold TariffTable.putReplace
  dsimp only
  split
  · exact h
  · rename_i n hn
    have hk : ({ t with records := t.records.filterMap (fun r : TariffRecord => if r.clashes c then r.withdrawn else some r) }).Lawful := by
      refine lawful_filterMap _ ?_ h
      intro r r' hr hf
      split at hf
      · exact TariffRecord.withdrawn_ages hr hf
      · cases hf
        exact ⟨⟨rfl, rfl, .inl rfl⟩, hr⟩
    refine install_lawful hk (fun q hq => ?_) hn
    obtain ⟨a, _, hf⟩ := List.mem_filterMap.1 hq
    split at hf
    · unfold TariffRecord.withdrawn at hf
      split at hf
      · cases hf
        simp [TariffRecord.clashes]
      · cases hf
    · rename_i hcl
      cases hf
      simpa using hcl

/-- R57: TARIFF_PUT for slot 0 keeps the table's laws. -/
theorem TariffTable.putDefault_lawful {t : TariffTable} {c : TariffContent} (h : t.Lawful) : (t.putDefault c).1.Lawful := by
  unfold TariffTable.putDefault
  split <;> exact h

end Sys2Proof.Machine
end

