-- ==== Sys2Proof/Laws/Calls.lean ====
section
/-! SUPPORT. The laws of a call (sections 4.6, 6.1, 7.1 and 8.1): the session, its decision, its pin, its rating context and its hold of the line stand together. What each operation on a call keeps of them, and that every command keeps them. -/

namespace Sys2Proof.Machine

/-- everything the laws rest on, but the timer -/
structure State.Around (s : State) : Prop where
  table : s.tariff.Lawful
  pins : s.PinLaw
  line : s.line.call.isSome = s.line.state.seized

/-- The tariff table, the call and the pins are lawful. -/
def State.CallLaws (s : State) : Prop := s.tariff.Lawful ∧ s.CallLaw ∧ s.PinLaw

theorem State.CallLaws.around {s : State} (h : State.CallLaws s) : State.Around s := ⟨h.1, h.2.2, h.2.1.2.2.2.1⟩

theorem callLaws_of {s t : State} (h1 : t.tariff = s.tariff) (h2 : t.rating.context.stage = s.rating.context.stage)
    (h3 : t.line.call = s.line.call) (h4 : t.line.state = s.line.state)
    (h5 : t.line.sessionRequest = s.line.sessionRequest) (h6 : t.session.decision = s.session.decision)
    (h7 : t.session.state = s.session.state) (h8 : t.session.timer = s.session.timer) (hs : State.CallLaws s) :
    State.CallLaws t := by
  unfold State.CallLaws State.CallLaw State.PinLaw State.lineOwner at *
  rw [h1, h2, h3, h4, h5, h6, h7, h8]
  exact hs

theorem callLaws_congr {s t : State}
    (h : t.tariff = s.tariff ∧ t.rating = s.rating ∧ t.line = s.line ∧ t.session = s.session) (hs : State.CallLaws s)
    :
    State.CallLaws t :=
  callLaws_of h.1 (by rw [h.2.1]) (by rw [h.2.2.1]) (by rw [h.2.2.1]) (by rw [h.2.2.1]) (by rw [h.2.2.2])
      (by rw [h.2.2.2]) (by rw [h.2.2.2]) hs

theorem pinLaw_congr {s t : State} (h1 : t.tariff = s.tariff) (h6 : t.session.decision = s.session.decision)
    (hs : s.PinLaw) :
    t.PinLaw := by
  unfold State.PinLaw at *
  rw [h1, h6]
  exact hs

@[simp] theorem recordEvent_session_decision (e a b c d) (s : State) :
    (State.recordEvent e a b c d s).session.decision = s.session.decision := rfl
@[simp] theorem recordEvent_session_state (e a b c d) (s : State) :
    (State.recordEvent e a b c d s).session.state = s.session.state := rfl
@[simp] theorem recordEvent_session_timer (e a b c d) (s : State) :
    (State.recordEvent e a b c d s).session.timer = s.session.timer := rfl

theorem Rating.endCall_stage (n r) : (Rating.endCall n r).context.stage = 0 := by
  unfold Rating.endCall
  split
  · rename_i h
    rw [h]
    rfl
  all_goals rfl

theorem lineOwner_def (s : State) : s.lineOwner = s.line.call.map LineCall.owner := rfl

theorem pinLaw_release {s : State} {d : Decision} (hl : s.tariff.Lawful) (hp : s.PinLaw)
    (hd : s.session.decision = some d) {t : State} (ht : t.tariff = s.tariff.releasePin d.slot)
    (hn : t.session.decision = none) :
    t.PinLaw := by
  obtain ⟨p1, p2, p3, p4⟩ := hp
  rw [hd] at p1 p2
  simp only [Option.map_some, Option.some.injEq] at p1 p2
  unfold State.PinLaw
  rw [ht, hn]
  unfold TariffTable.releasePin
  by_cases h0 : d.slot = 0
  · rw [if_pos h0]
    refine ⟨fun r hr => ?_, by simp, by simp, by simp⟩
    have := p1 r hr
    simp
    -- slot ≠ 0?
    cases hb : r.pinned with
    | false => simp
    | true =>
      have h1 := (hl.2.1 r hr).1
      have h2 := this.1.1 hb
      omega
  · rw [if_neg h0]
    refine ⟨fun r hr => ?_, by simp; cases h : s.tariff.basePinned <;> simp_all, p3, by simp⟩
    obtain ⟨a, ha, hf⟩ := List.mem_filterMap.1 hr
    have := p1 a ha
    split at hf
    · rename_i hs
      unfold TariffRecord.released at hf
      split at hf
      · cases hf
      · cases hf; simp
    · cases hf
      have hf2 : r.pinned = false := by
        cases hb : r.pinned with
        | false => rfl
        | true => exact absurd (this.1.1 hb).symm (by assumption)
      simp [hf2]

theorem askRelease_spec {u : State} (o : LineOwner) (h : u.line.call.isSome = u.line.state.seized) :
    (u.askRelease o).line.sessionRequest = u.line.sessionRequest ∧ (u.askRelease o).line.call.isSome =
        (u.askRelease o).line.state.seized ∧
    (u.askRelease o).lineOwner ≠ some o ∧ (∀ o', (u.askRelease o).lineOwner = some o' → u.lineOwner = some o') := by
  unfold State.askRelease
  split
  · exact ⟨rfl, rfl, by simp [lineOwner_def, Line.release], by simp [lineOwner_def, Line.release]⟩
  · rename_i hc
    refine ⟨rfl, h, fun ho => hc ⟨ho, ?_⟩, fun _ h => h⟩
    rw [← h]
    rw [lineOwner_def] at ho
    cases hcall : u.line.call with
    | none => rw [hcall] at ho; cases ho
    | some _ => rfl

/-- what the end of a call leaves -/
theorem endCall_spec {s : State} {d : Decision} (c : EndCause) (ha : State.Around s)
    (hd : s.session.decision = some d) :
    (s.endCall c).tariff.Lawful ∧ (s.endCall c).PinLaw ∧ (s.endCall c).session.decision = none ∧
    (s.endCall c).session.state = s.session.state ∧ (s.endCall c).session.timer = s.session.timer ∧
    (s.endCall c).rating.context.stage = 0 ∧ (s.endCall c).line.sessionRequest = none ∧
    (s.endCall c).line.call.isSome = (s.endCall c).line.state.seized ∧ (s.endCall c).lineOwner ≠ some .session ∧
    ((s.endCall c).lineOwner = some .report → s.lineOwner = some .report) := by
  have e : s.endCall c = State.recordEvent (.ended c) (some d.slot) (some d.category) none
      (if s.session.state = .awaitCredit then none else some s.rating.callNumber)
      ((((s.setRating (s.rating.endCall s.now)).withdrawRequest .session).askRelease .session).setTariff
        (((s.setRating (s.rating.endCall s.now)).withdrawRequest .session).askRelease .session |>.tariff.releasePin
            d.slot) |> fun u =>
        u.setSession { u.session with decision := none, threshold := none }) := by
    unfold State.endCall
    rw [hd]
  generalize hu : (s.setRating (s.rating.endCall s.now)).withdrawRequest .session = u at e
  have hr : u.line.sessionRequest = none := by subst hu; rfl
  have hl : u.line.call.isSome = u.line.state.seized := by subst hu; exact ha.line
  have ho : u.lineOwner = s.lineOwner := by subst hu; rfl
  have ht : u.tariff = s.tariff := by subst hu; rfl
  have hst : u.session = s.session := by subst hu; rfl
  have hra : u.rating.context.stage = 0 := by subst hu; exact Rating.endCall_stage _ _
  obtain ⟨b1, b2, b3, b4⟩ := askRelease_spec .session hl
  have bt : (u.askRelease .session).tariff = s.tariff := by rw [← ht]; simp
  have bs : (u.askRelease .session).session = s.session := by rw [← hst]; simp
  have br : (u.askRelease .session).rating = u.rating := by simp
  rw [e]
  generalize u.askRelease .session = w at *
  refine ⟨?_, ?_, rfl, ?_, ?_, ?_, ?_, ?_, ?_, ?_⟩
  · simp [bt]
    exact TariffTable.releasePin_lawful ha.table
  · exact pinLaw_release ha.table ha.pins hd (by simp [bt]) rfl
  · simp [bs]
  · simp [bs]
  · simp [br, hra]
  · simp [b1, hr]
  · simpa using b2
  · exact b3
  · intro h
    rw [← ho]
    exact b4 _ h

/-- a state with no call held, from its parts -/
theorem callLaws_noCall {t : State} (h1 : t.tariff.Lawful) (h2 : t.PinLaw) (h3 : t.session.decision = none)
    (h4 : t.session.state.holdsCall = false) (h5 : t.session.timer.map SessionTimer.kind = t.session.state.timerKind)
    (h6 : t.rating.context.stage = 0) (h7 : t.line.sessionRequest = none)
        (h8 : t.line.call.isSome = t.line.state.seized)
    (h9 : t.lineOwner ≠ some .session) (h10 : t.lineOwner = some .report → t.session.state = .idle) : State.CallLaws
        t := by
  have hst : t.session.state.stage = 0 :=
      by cases hs : t.session.state <;> simp_all [SessionState.stage, SessionState.holdsCall]
  exact ⟨h1, ⟨by simp [h3, h4], h5, by rw [h6, hst], h8, fun h => absurd h h9, by simp [h7], h10⟩, h2⟩

theorem callLaws_endTo {s : State} {d : Decision} {c : EndCause} (ha : State.Around s)
    (hd : s.session.decision = some d) (hr : s.lineOwner ≠ some .report) :
    State.CallLaws (s.endCallToEnded c) := by
  obtain ⟨a1, a2, a3, a4, a5, a6, a7, a8, a9, a10⟩ := endCall_spec c ha hd
  unfold State.endCallToEnded State.enterEnded
  exact callLaws_noCall a1 (pinLaw_congr rfl rfl a2) a3 rfl rfl a6 a7 a8 a9 (fun h => absurd (a10 h) hr)

theorem State.CallLaws.free {s : State} (h : State.CallLaws s) (hd : s.session.decision = none) :
    s.session.state.holdsCall = false ∧ s.rating.context.stage = 0 ∧ s.line.sessionRequest = none ∧ s.lineOwner ≠
    some .session := by
  obtain ⟨_, ⟨c1, c2, c3, c4, c5, c6, c7⟩, _⟩ := h
  have hh : s.session.state.holdsCall = false := by rw [← c1, hd]; rfl
  have hst : s.session.state.stage = 0 :=
      by cases hs : s.session.state <;> simp_all [SessionState.stage, SessionState.holdsCall]
  refine ⟨hh, by rw [c3, hst], ?_, fun h => c5 h hst⟩
  cases hq : s.line.sessionRequest with
  | none => rfl
  | some r => have := (c6 (by simp [hq])).1; simp [this, SessionState.holdsCall] at hh

theorem State.CallLaws.held {s : State} (h : State.CallLaws s) {d} (hd : s.session.decision = some d) :
    s.session.state.holdsCall = true ∧ s.lineOwner ≠ some .report := by
  obtain ⟨_, ⟨c1, c2, c3, c4, c5, c6, c7⟩, _⟩ := h
  have hh : s.session.state.holdsCall = true := by rw [← c1, hd]; rfl
  refine ⟨hh, fun h => ?_⟩
  rw [c7 h] at hh; cases hh

theorem State.CallLaws.decision_none {s : State} (h : State.CallLaws s) (hh : s.session.state.holdsCall = false) :
    s.session.decision = none := by
  have := h.2.1.1
  rw [hh] at this
  simpa using this

theorem State.CallLaws.decision_some {s : State} (h : State.CallLaws s) (hh : s.session.state.holdsCall = true) :
    ∃ d, s.session.decision = some d := by
  have := h.2.1.1
  rw [hh] at this
  exact Option.isSome_iff_exists.1 this

theorem callLaws_endCallToEnded {s : State} {c} (h : State.CallLaws s) (hd : s.session.decision.isSome = true) :
    State.CallLaws (s.endCallToEnded c) := by
  obtain ⟨d, hd⟩ := Option.isSome_iff_exists.1 hd
  exact callLaws_endTo h.around hd (h.held hd).2

theorem callLaws_keeper : CallKeeper State.CallLaws := ⟨callLaws_congr, fun hd h => callLaws_endCallToEnded h hd⟩

theorem callLaws_ownerKeeper :
    CallKeeper (fun s => State.CallLaws s ∧ s.lineOwner ≠ some .report) :=
    ⟨fun h hs => ⟨callLaws_congr h hs.1, by unfold State.lineOwner at *; rw [h.2.2.1]; exact hs.2⟩, fun hd h => by
  refine ⟨callLaws_endCallToEnded h.1 hd, ?_⟩
  obtain ⟨d, hd⟩ := Option.isSome_iff_exists.1 hd
  have := (endCall_spec .levelDrop h.1.around hd).2.2.2.2.2.2.2.2.2
  exact fun hc => h.2 (this hc)⟩

/-- no call held, in ENDED -/
theorem callLaws_refuse {s : State} {c r} (ha : State.Around s) (hd : s.session.decision = none)
    (h6 : s.rating.context.stage = 0) (h7 : s.line.sessionRequest = none)
    (h9 : s.lineOwner ≠ some .session) (h10 : s.lineOwner ≠ some .report) : State.CallLaws (s.refuseNumber c r) := by
  unfold State.refuseNumber State.enterEnded
  refine callLaws_noCall (by simpa using ha.table) (pinLaw_congr (by simp) (by simp) ha.pins) (by simpa using hd)
      (by simp [SessionState.holdsCall]) (by simp [SessionState.timerKind]) (by simpa using h6) (by simpa using h7)
      (by simpa using ha.line) ?_ ?_
  · simpa [lineOwner_def] using h9
  · intro h
    exact absurd (by simpa [lineOwner_def] using h) h10

theorem callLaws_place {s : State} {d : Decision} (ha : State.Around s) (hd : s.session.decision = some d)
    (h7 : s.line.sessionRequest = none)
    (h9 : s.lineOwner ≠ some .session) (h10 : s.lineOwner ≠ some .report) : State.CallLaws (s.place d) := by
  have key : ∀ s₂ : State, s₂ = (s.setSession { s.session with state := .placing, timer := none }).setRating
      ((s.setSession { s.session with state := .placing, timer := none }).rating.openContext d) →
      State.CallLaws (if diallable s₂.settings.method d.symbols then (s₂.requestLine .session d.symbols).recordEvent
          .placed (some d.slot) (some d.category) none (some s₂.rating.callNumber)
        else (s₂.recordEvent .placed (some d.slot) (some d.category) none (some s₂.rating.callNumber)).endCallToEnded
            .undiallable) := by
    intro s₂ hs3
    have t2 : s₂.tariff = s.tariff := by subst hs3; rfl
    have d2 : s₂.session.decision = some d := by subst hs3; exact hd
    have st2 : s₂.session.state = .placing := by subst hs3; rfl
    have ti2 : s₂.session.timer = none := by subst hs3; rfl
    have l2 : s₂.line = s.line := by subst hs3; rfl
    have c2 : s₂.rating.context.stage = 1 := by subst hs3; rfl
    have o2 : s₂.lineOwner = s.lineOwner := by unfold State.lineOwner; rw [l2]
    have k2 : State.CallLaws s₂ := by
      refine ⟨by rw [t2]; exact ha.table,
          ⟨by rw [d2, st2]; rfl, by rw [ti2, st2]; rfl, by rw [c2, st2]; rfl, by rw [l2]; exact ha.line, fun h =>
          absurd (o2 ▸ h) h9, by rw [l2, h7]; simp, fun h => absurd (o2 ▸ h) h10⟩, pinLaw_congr t2 (by rw [d2, hd])
          ha.pins⟩
    split
    · have : State.CallLaws (s₂.requestLine .session d.symbols) := by
        unfold State.requestLine
        split
        · exact k2
        · obtain ⟨a, ⟨b1, b2, b3, b4, b5, b6, b7⟩, c⟩ := k2
          exact ⟨a, ⟨b1, b2, b3, b4, b5, fun _ => ⟨st2, o2 ▸ h9⟩, b7⟩, c⟩
      exact callLaws_of rfl rfl rfl rfl rfl rfl rfl rfl this
    · exact callLaws_endCallToEnded (callLaws_of (s := s₂) rfl rfl rfl rfl rfl rfl rfl rfl k2) (by simp [d2])
  have k := key _ rfl
  unfold State.place
  dsimp only at k ⊢
  split at k
  · rename_i h
    simp only [if_pos h]
    exact callLaws_of rfl (by simp) rfl rfl rfl rfl rfl rfl k
  · rename_i h
    simp only [if_neg h]
    exact k

theorem callLaws_awaitCredit {s : State} {d : Decision} {n} (ha : State.Around s) (hd : s.session.decision = some d)
    (h7 : s.line.sessionRequest = none) (h6 : s.rating.context.stage = 0)
    (h9 : s.lineOwner ≠ some .session) (h10 : s.lineOwner ≠ some .report) : State.CallLaws (s.awaitCredit d n) := by
  unfold State.awaitCredit
  refine callLaws_of (s := s.setSession
      { s.session with state := .awaitCredit, threshold := some n, timer := some ⟨.creditWait, s.now + Config.creditWaitMs⟩ }) (by simp) (by simp) (by simp) (by simp) (by simp) (by simp) (by simp) (by simp) ?_
  refine ⟨ha.table, ⟨?_, rfl, h6, ha.line, fun h => absurd h h9, by simp [h7], fun h => absurd h h10⟩, pinLaw_congr
      rfl rfl ha.pins⟩
  simp [hd, SessionState.holdsCall]

theorem longest_mem {l : List TariffRecord} {r} (h : longest l = some r) : r ∈ l := by
  induction l generalizing r with
  | nil => simp [longest] at h
  | cons a l ih =>
    unfold longest at h
    split at h
    · cases h; simp
    · rename_i q hq
      split at h
      · cases h; exact List.mem_cons_of_mem _ (ih hq)
      · cases h; simp

theorem chosen_spec (t : TariffTable) (x : List Symbol) :
    (t.chosen x).slot = 0 ∨ ∃ r ∈ t.records, r.slot = (t.chosen x).slot ∧ r.state = .live := by
  unfold TariffTable.chosen
  split
  · rename_i r hr
    have := longest_mem hr
    unfold TariffTable.matching at this
    simp at this
    exact .inr ⟨r, this.1, rfl, this.2.1⟩
  · exact .inl rfl

theorem sorted_inj {l : List TariffRecord} (h : l.Pairwise (fun a b => a.slot < b.slot)) {a b} (ha : a ∈ l)
    (hb : b ∈ l) (he : a.slot = b.slot) :
    a = b := by
  induction l with
  | nil => simp at ha
  | cons x l ih =>
    obtain ⟨h1, h2⟩ := List.pairwise_cons.1 h
    rcases List.mem_cons.1 ha with rfl | ha <;> rcases List.mem_cons.1 hb with rfl | hb
    · rfl
    · have := h1 _ (by assumption)
      omega
    · have := h1 _ (by assumption)
      omega
    · exact ih h2 ha hb

theorem pinLaw_pin {s t : State} {d : Decision} (hl : s.tariff.Lawful) (hp : s.PinLaw)
    (hn : s.session.decision = none)
    (hs : d.slot = 0 ∨ ∃ r ∈ s.tariff.records, r.slot = d.slot ∧ r.state = .live)
        (ht : t.tariff = s.tariff.pin d.slot) (hd : t.session.decision = some d) : t.PinLaw := by
  obtain ⟨p1, p2, p3, p4⟩ := hp
  rw [hn] at p1 p2
  simp only [Option.map_none] at p1 p2
  have hl2 := ((TariffTable.lawful_iff _).1 hl).1
  unfold State.PinLaw
  rw [ht, hd]
  unfold TariffTable.pin
  by_cases h0 : d.slot = 0
  · rw [if_pos h0]
    refine ⟨fun r hr => ?_, by simp [h0], by simp, fun d' hd' => by cases hd'; exact .inl h0⟩
    have := p1 r hr
    have h1 := (hl.2.1 r hr).1
    simp at this
    simp [this, h0]
    omega
  · rw [if_neg h0]
    rcases hs with hs | ⟨q, hq, hqs, hql⟩
    · exact absurd hs h0
    · refine ⟨fun r hr => ?_, ?_, p3, fun d' hd' => ?_⟩
      · obtain ⟨a, ha, rfl⟩ := List.mem_map.1 hr
        split
        · rename_i hs'
          have : a = q := sorted_inj hl2 ha hq (by omega)
          subst this
          simp [hs', hql]
        · have := p1 a ha
          simp at this
          simp [this]
          omega
      · simp at p2
        simp [p2, h0]
      · cases hd'
        exact .inr ⟨{ q with pinned := true }, List.mem_map.2 ⟨q, hq, by simp [hqs]⟩, hqs⟩

theorem callLaws_judgeDecision {s : State} {r : Chosen} (ha : State.Around s) (hd : s.session.decision = none)
    (h6 : s.rating.context.stage = 0) (h7 : s.line.sessionRequest = none)
    (h9 : s.lineOwner ≠ some .session) (h10 : s.lineOwner ≠ some .report)
        (hr : r.slot = 0 ∨ ∃ q ∈ s.tariff.records, q.slot = r.slot ∧ q.state = .live) : State.CallLaws
        (s.judgeDecision r) := by
  unfold State.judgeDecision
  dsimp only
  generalize hdd : r.decision s.session.buffer = d
  have hds : d.slot = r.slot := by subst hdd; rfl
  split
  · generalize hu : ((s.setTariff (s.tariff.pin d.slot)).setSession
      { (s.setTariff (s.tariff.pin d.slot)).session with decision := some d, timer := none }) = u
    have au : State.Around u := by
      subst hu
      exact ⟨TariffTable.pin_lawful ha.table, pinLaw_pin ha.table ha.pins hd (by rw [hds]; exact hr) rfl rfl, ha.line⟩
    have du : u.session.decision = some d := by subst hu; rfl
    have c7 : u.line.sessionRequest = none := by subst hu; exact h7
    have c6 : u.rating.context.stage = 0 := by subst hu; exact h6
    have c9 : u.lineOwner ≠ some .session := by subst hu; exact h9
    have c10 : u.lineOwner ≠ some .report := by subst hu; exact h10
    (repeat' split)
    · exact callLaws_place au du c7 c9 c10
    · exact callLaws_awaitCredit au du c7 c6 c9 c10
    · exact callLaws_place au du c7 c9 c10
  · exact callLaws_refuse ha hd h6 h7 h9 h10

theorem callLaws_takeVerdict {s : State} {v : Verdict} (hk : v = .continue → State.CallLaws s) (ha : State.Around s)
    (hd : s.session.decision = none) (h6 : s.rating.context.stage = 0) (h7 : s.line.sessionRequest = none)
    (h9 : s.lineOwner ≠ some .session) (h10 : s.lineOwner ≠ some .report)
        (hv : ∀ r, v = .complete r → r.slot = 0 ∨ ∃ q ∈ s.tariff.records, q.slot = r.slot ∧ q.state = .live) :
        State.CallLaws (s.takeVerdict v) := by
  unfold State.takeVerdict
  split
  · exact hk rfl
  · exact callLaws_refuse ha hd h6 h7 h9 h10
  · exact callLaws_judgeDecision ha hd h6 h7 h9 h10 (hv _ rfl)

theorem forMethod_complete {v : Verdict} {m x r} (h : v.forMethod m x = .complete r) : v = .complete r := by
  unfold Verdict.forMethod at h
  (repeat' split at h) <;> simp_all

theorem dialledVerdict_complete {t : TariffTable} {x r} (h : t.dialledVerdict x = .complete r) : r = t.chosen x := by
  unfold TariffTable.dialledVerdict TariffTable.analyse at h
  dsimp only at h
  by_cases h1 : t.expectsMore x <;> by_cases h2 : (t.chosen x).content.category = .blocked <;> by_cases h3 :
      t.matching x = [] <;>
    simp only [h1, h2, h3, if_true, if_false] at h <;> (repeat' split at h) <;> simp_all

theorem timeoutVerdict_complete {t : TariffTable} {x r} (h : t.timeoutVerdict x = .complete r) : r = t.chosen x := by
  unfold TariffTable.timeoutVerdict at h
  dsimp only at h
  (repeat' split at h) <;> simp_all

theorem timeoutVerdict_ne {t : TariffTable} {x} {m} : (t.timeoutVerdict x).forMethod m x ≠ .continue := by
  unfold Verdict.forMethod TariffTable.timeoutVerdict
  dsimp only
  (repeat' split) <;> simp_all

theorem State.CallLaws.timerState {s : State} {k t} (h : State.CallLaws s) (ht : s.session.timerOf k = some t) :
    s.session.state.timerKind = some k := by
  have := h.2.1.2.1
  unfold Session.timerOf at ht
  split at ht
  · rename_i x hx
    split at ht
    · rename_i hk
      rw [← this, hx, ← hk]
      rfl
    · cases ht
  · cases ht

theorem callLaws_recheck {s : State} (h : State.CallLaws s) : State.CallLaws s.recheck := by
  unfold State.recheck
  split
  · rename_i d hst hd
    dsimp only
    obtain ⟨_, ⟨c1, c2, c3, c4, c5, c6, c7⟩, _⟩ := id h
    have hq : s.line.sessionRequest = none := by
      cases hq : s.line.sessionRequest with
      | none => rfl
      | some r => have := (c6 (by simp [hq])).1; simp [hst] at this
    have ho : s.lineOwner ≠ some .session := fun ho => c5 ho (by rw [hst]; rfl)
    have ho2 : s.lineOwner ≠ some .report := fun ho => by have := c7 ho; simp [hst] at this
    split
    · refine callLaws_place ⟨h.1, pinLaw_congr rfl rfl h.2.2, c4⟩ hd hq ho ho2
    · exact callLaws_of rfl rfl rfl rfl rfl rfl rfl rfl h
  · exact h

theorem lookAhead_stage (s : State) : s.lookAhead.rating.context.stage = s.rating.context.stage := by
  unfold State.lookAhead
  split
  · rename_i h
    dsimp only
    rw [h]
    split <;> rfl
  · rfl

theorem callLaws_lookAhead {s : State} (h : State.CallLaws s) : State.CallLaws s.lookAhead :=
  callLaws_of (by simp) (lookAhead_stage s) (by simp) (by simp) (by simp) (by simp) (by simp) (by simp) h

theorem callLaws_hand {a} {s : State} (h : State.CallLaws s) : State.CallLaws (s.handCredit a) := by
  unfold State.handCredit
  split
  · exact h
  · exact callLaws_recheck (callLaws_lookAhead h)

theorem placeUnrecovered_stage (n r) : (Rating.placeUnrecovered n r).context.stage = r.context.stage := by
  unfold Rating.placeUnrecovered
  dsimp only
  (repeat' split) <;> rename_i h <;> simp_all [RatingContext.stage]

theorem writeOffEntry_stage (e s) : (State.writeOffEntry e s).rating.context.stage = s.rating.context.stage := by
  unfold State.writeOffEntry
  simp [placeUnrecovered_stage]

theorem writeOff_stage (s : State) : s.writeOff.rating.context.stage = s.rating.context.stage := by
  unfold State.writeOff
  exact foldl_keeps (fun s => s.rating.context.stage) (fun s e => State.writeOffEntry e s)
      (fun s e => writeOffEntry_stage e s) _ _

theorem callLaws_rating {s t : State} (h2 : t.rating.context.stage = s.rating.context.stage)
    (h : t.tariff = s.tariff ∧ t.line = s.line ∧ t.session = s.session) (hs : State.CallLaws s) :
    State.CallLaws t :=
  callLaws_of h.1 h2 (by rw [h.2.1]) (by rw [h.2.1]) (by rw [h.2.1]) (by rw [h.2.2]) (by rw [h.2.2]) (by rw [h.2.2])
      hs

theorem settle_stage (s : State) : s.settle.rating.context.stage = s.rating.context.stage := by
  unfold State.settle State.requestCollect
  dsimp only
  (repeat' split) <;> simp [writeOff_stage]

theorem takeCharge_stage (c x) (s : State) : (s.takeCharge c x).rating.context.stage = s.rating.context.stage := by
  unfold State.takeCharge State.makeRoom
  split
  · rfl
  · dsimp only
    rw [settle_stage]
    (repeat' split) <;> simp [writeOffEntry_stage]

theorem callLaws_settle {s : State} (h : State.CallLaws s) :
    State.CallLaws s.settle := callLaws_rating (settle_stage s) (by simp) h

theorem callLaws_writeOff {s : State} (h : State.CallLaws s) :
    State.CallLaws s.writeOff := callLaws_rating (writeOff_stage s) (by simp) h

theorem callLaws_takeCharge {c x} {s : State} (h : State.CallLaws s) :
    State.CallLaws (s.takeCharge c x) := callLaws_rating (takeCharge_stage c x s) (by simp) h

theorem callLaws_cutOff {s : State} (ha : State.Around s) {d} (hd : s.session.decision = some d)
    (hh : s.session.state.holdsCall = true) (hr : s.lineOwner ≠ some .report) :
    State.CallLaws s.cutOff := by
  unfold State.cutOff
  dsimp only
  rw [if_pos (show (s.setRating (s.rating.endCall s.now)).session.state.holdsCall = true from hh)]
  exact callLaws_endTo ⟨ha.table, pinLaw_congr rfl rfl ha.pins, ha.line⟩ hd hr

theorem State.CallLaws.stageState {s : State} (h : State.CallLaws s) (hs : s.rating.context.stage = 2) :
    s.session.state = .connected := by
  have := h.2.1.2.2.1
  rw [hs] at this
  cases hst : s.session.state <;> rw [hst] at this <;> simp_all [SessionState.stage]

theorem callLaws_cut {s : State} (h : State.CallLaws s) (hs : s.rating.context.stage = 2) :
    State.CallLaws s.cutOff := by
  have hst := h.stageState hs
  obtain ⟨d, hd⟩ := h.decision_some (by rw [hst]; rfl)
  exact callLaws_cutOff h.around hd (by rw [hst]; rfl) (h.held hd).2

theorem callLaws_stepBoundary {s : State} (h : State.CallLaws s) : State.CallLaws s.stepBoundary := by
  unfold State.stepBoundary State.beginStep
  split
  · rename_i call c hc
    dsimp only
    split
    · refine callLaws_cut (callLaws_of (s := s) rfl (by rw [hc]; rfl) rfl rfl rfl rfl rfl rfl h) rfl
    · refine callLaws_lookAhead (callLaws_takeCharge (callLaws_of (s := s) rfl ?_ rfl rfl rfl rfl rfl rfl h))
      rw [hc]
      rfl
  all_goals exact h

theorem callLaws_startWarningTone {s : State} (h : State.CallLaws s) : State.CallLaws s.startWarningTone := by
  unfold State.startWarningTone
  split
  · rename_i call c hc
    dsimp only
    (repeat' split)
    · exact h
    · exact callLaws_of (s := s) rfl (by rw [hc]; rfl) rfl rfl rfl rfl rfl rfl h
    · exact h
  all_goals exact h

theorem rateAnswer_stage {p} {s : State} {call} (h : s.rating.context = .placed call) :
    (s.rateAnswer p).1.rating.context.stage = 2 := by
  unfold State.rateAnswer
  simp only [h]
  (repeat' split)
  · rfl
  · rw [lookAhead_stage, takeCharge_stage, takeCharge_stage]
    rfl
  · rfl

theorem callLaws_sessionAnswered {p} {s : State} (h : State.CallLaws s) (ho : s.lineOwner = some .session) :
    State.CallLaws (s.sessionAnswered p) := by
  have hstage := h.2.1.2.2.1
  obtain ⟨a, ⟨c1, c2, c3, c4, c5, c6, c7⟩, c⟩ := id h
  have hq : s.line.sessionRequest = none := by
    cases hq : s.line.sessionRequest with
    | none => rfl
    | some r => exact absurd ho (c6 (by simp [hq])).2
  have main : ∀ d, s.session.decision = some d → s.session.state.stage = 1 → s.session.timer = none →
      State.CallLaws (let rated := (s.setSession { s.session with state := .connected }).rateAnswer p
          let s₁ := rated.1.recordEvent .answered (some d.slot) (some d.category) none
              (some rated.1.rating.callNumber)
          if rated.2 then s₁.cutOff else s₁) := by
    intro d hd h1 htm
    have hx : ∃ call, s.rating.context = .placed call := by
      rw [h1] at c3
      cases hx : s.rating.context <;> simp_all [RatingContext.stage]
    obtain ⟨call, hcall⟩ := hx
    have base : ∀ t : State, t.tariff = s.tariff → t.line = s.line → t.session =
        { s.session with state := .connected } → t.rating.context.stage = 2 → State.CallLaws t := by
      intro t h1 h2 h3 h4
      have ol : t.lineOwner = s.lineOwner := by unfold State.lineOwner; rw [h2]
      refine ⟨by rw [h1]; exact a,
          ⟨by rw [h3]; simp [hd, SessionState.holdsCall], by rw [h3]; simp [htm, SessionState.timerKind],
          by rw [h3, h4]; rfl, by rw [h2]; exact c4, fun _ => by rw [h3]; simp [SessionState.stage],
          by rw [h2, hq]; simp, fun hr => by rw [ol, ho] at hr; cases hr⟩, pinLaw_congr h1 (by rw [h3]) c⟩
    have ev : ∀ (t : State) n, State.CallLaws t → State.CallLaws
        (t.recordEvent .answered (some d.slot) (some d.category) none n) := fun t n ht => callLaws_of rfl rfl rfl rfl
        rfl rfl rfl rfl ht
    generalize hrs : (s.setSession { s.session with state := .connected }).rateAnswer p = rated
    have hst2 : rated.1.rating.context.stage = 2 := by subst hrs; exact rateAnswer_stage hcall
    have k := base rated.1 (by subst hrs; simp) (by subst hrs; simp) (by subst hrs; simp) hst2
    dsimp only
    split
    · exact callLaws_cut (ev _ _ k) hst2
    · exact ev _ _ k
  have hds : s.session.state = .placing ∨ s.session.state = .ringing → s.session.timer = none := by
    intro hst
    rcases hst with hst | hst <;> rw [hst] at c2 <;> simpa [SessionState.timerKind] using c2
  unfold State.sessionAnswered
  split
  · rename_i hst hd
    exact main _ hd (by rw [hst]; rfl) (hds (.inl hst))
  · rename_i hst hd
    exact main _ hd (by rw [hst]; rfl) (hds (.inr hst))
  · exact h

theorem callLaws_release {s : State} (h : State.CallLaws s) :
    (s.lineOwner ≠ some .session ∨ s.session.state.stage = 0) → State.CallLaws (s.setLine (s.line.release s.now)) :=
    by
  intro _
  obtain ⟨a, ⟨c1, c2, c3, c4, c5, c6, c7⟩, c⟩ := id h
  refine ⟨a, ⟨c1, c2, c3, rfl, ?_, ?_, ?_⟩, pinLaw_congr rfl rfl c⟩
  · intro hc
    simp [lineOwner_def, Line.release] at hc
  · intro hq
    exact ⟨(c6 hq).1, by simp [lineOwner_def, Line.release]⟩
  · intro hc
    simp [lineOwner_def, Line.release] at hc

theorem callLaws_afterAttempt {s : State} (h : State.CallLaws s) :
    State.CallLaws s.afterAttempt := callLaws_keeper.congr (by simp) h

theorem callLaws_removeSnapshots {s : State} (h : State.CallLaws s) :
    State.CallLaws s.removeSnapshots := callLaws_keeper.removeSnapshots h

theorem callLaws_reportFail {b} {s : State} (h : State.CallLaws s)
    (ho : s.lineOwner ≠ some .report ∨ s.session.state = .idle) :
    State.CallLaws (s.reportFail b) := by
  unfold State.reportFail
  dsimp only
  generalize hr : ({ s.removeSnapshots.report with attempts := min 5 (s.removeSnapshots.report.attempts + 1), snapshot := none, repeated := false, replyEnds := none, outcome := some ReportOutcome.failed } : ReportUnit) = r
  have k : State.CallLaws (s.removeSnapshots.setReport r) := callLaws_keeper.congr (by simp)
      (callLaws_removeSnapshots h)
  split
  · refine callLaws_keeper.congr (s := (s.removeSnapshots.setReport r).askRelease .report) (by simp) ?_
    unfold State.askRelease
    split
    · exact callLaws_release k (.inl (by rename_i hc; rw [hc.1]; simp))
    · exact k
  · exact callLaws_afterAttempt k

theorem callLaws_reportLineEnded {s : State} (h : State.CallLaws s) (ho : s.lineOwner ≠ some .report) :
    State.CallLaws s.reportLineEnded :=
  ite_holds (callLaws_reportFail h (.inl ho)) h

theorem callLaws_lineEnds {c} {s : State} (h : State.CallLaws s) : State.CallLaws (s.lineEnds c) := by
  unfold State.lineEnds
  dsimp only
  have hrel := callLaws_release h
  split
  · rename_i ho
    exact hrel (.inl (by rw [ho]; simp))
  · rename_i ho
    have hst := h.2.1.2.2.2.2.1 ho
    have hh : s.session.state.holdsCall = true := by
      cases hs : s.session.state <;> simp_all [SessionState.stage, SessionState.holdsCall]
    rw [if_pos (show (s.setLine (s.line.release s.now)).session.state.holdsCall = true from hh)]
    obtain ⟨d, hd⟩ := h.decision_some hh
    exact callLaws_endTo (d := d) ⟨h.1, pinLaw_congr rfl rfl h.2.2, rfl⟩ hd (by simp [lineOwner_def, Line.release])
  · rename_i ho
    exact callLaws_reportLineEnded (hrel (.inl (by rw [ho]; simp))) (by simp [lineOwner_def, Line.release])

theorem callLaws_lineAnswered {p} {s : State} (h : State.CallLaws s) (hst : s.line.state = .awaitAnswer) :
    State.CallLaws (s.lineAnswered p) := by
  unfold State.lineAnswered
  dsimp only
  have k : State.CallLaws (s.setLine s.line.answered) := by
    obtain ⟨a, ⟨c1, c2, c3, c4, c5, c6, c7⟩, c⟩ := id h
    exact ⟨a, ⟨c1, c2, c3, by rw [hst] at c4; exact c4, c5, c6, c7⟩, c⟩
  split
  · exact k
  · rename_i ho
    exact callLaws_sessionAnswered k ho
  · unfold State.reportAnswered
    dsimp only
    split
    · have hf : ∀ l (t : State), State.CallLaws t → State.CallLaws
          (List.foldl (fun s i => State.placeSnapshot i s) t l) := fun l t ht =>
        foldl_holds (f := fun s i => State.placeSnapshot i s) (fun s i hs => callLaws_keeper.congr (by simp) hs) l ht
      have hf2 := hf (s.setLine s.line.answered).reportSnapshot.records _ k
      refine callLaws_of (s := List.foldl (fun s i => State.placeSnapshot i s) (s.setLine s.line.answered)
          (s.setLine s.line.answered).reportSnapshot.records) ?_ ?_ ?_ ?_ ?_ ?_ ?_ ?_ hf2
      all_goals
        unfold State.sendTones
        (repeat' split) <;> simp
    · exact k

theorem callLaws_failDialTone {s : State} (h : State.CallLaws s) : State.CallLaws s.failDialTone := by
  unfold State.failDialTone State.countDialToneFailure
  dsimp only
  have k := callLaws_lineEnds (c := .dialToneFailure) (s := s.reach s.line.deadline)
      (callLaws_keeper.congr (by simp) h)
  have k2 : State.CallLaws
      ((State.lineEnds .dialToneFailure (s.reach s.line.deadline)).setLine
      { (State.lineEnds .dialToneFailure (s.reach s.line.deadline)).line with streak := min 3 ((State.lineEnds .dialToneFailure (s.reach s.line.deadline)).line.streak + 1) }) :=
    callLaws_of rfl rfl rfl rfl rfl rfl rfl rfl k
  exact ite_holds (callLaws_keeper.becomeAbnormal k2) k2

theorem callLaws_departIdle {s : State} (h1 : s.tariff.Lawful) (h2 : s.PinLaw) (h3 : s.session.decision = none)
    (h4 : s.session.state.holdsCall = false) (h5 : s.session.timer.map SessionTimer.kind = s.session.state.timerKind)
    (h6 : s.rating.context.stage = 0) (h7 : s.line.sessionRequest = none)
        (h8 : s.line.call.isSome = s.line.state.seized)
    (h9 : s.lineOwner ≠ some .session) : State.CallLaws s.departIdle := by
  have e : ∀ (t : State) r, State.CallLaws t → State.CallLaws (t.setReport r) := fun t r ht => callLaws_keeper.congr
      (by simp) ht
  unfold State.departIdle
  dsimp only
  apply e
  split
  · have k : State.CallLaws (s.setLine (s.line.release s.now)) :=
      callLaws_noCall h1 (pinLaw_congr rfl rfl h2) h3 h4 h5 h6 h7 rfl (by simp [lineOwner_def, Line.release])
          (by simp [lineOwner_def, Line.release])
    split
    · unfold State.reportPreempted State.schedule
      exact e _ _ (e _ _ (callLaws_removeSnapshots k))
    · exact k
  · rename_i hc
    refine callLaws_noCall h1 h2 h3 h4 h5 h6 h7 h8 h9 (fun ho => absurd ⟨ho, ?_⟩ hc)
    rw [← h8]
    rw [lineOwner_def] at ho
    cases hcall : s.line.call with
    | none => rw [hcall] at ho; cases ho
    | some _ => rfl

theorem callLaws_openSession {s : State} (h : State.CallLaws s) (hst : s.session.state = .idle) :
    State.CallLaws s.openSession := by
  unfold State.openSession
  dsimp only
  have hd := h.decision_none (by rw [hst]; rfl)
  obtain ⟨f1, f2, f3, f4⟩ := h.free hd
  have := callLaws_departIdle
      (s := s.openAccount.enterDialWait.setSession
      { s.openAccount.enterDialWait.session with decision := none, threshold := none })
    h.1 (pinLaw_congr (s := s) rfl hd.symm h.2.2) rfl rfl rfl f2 f3 h.2.1.2.2.2.1 f4
  exact callLaws_of rfl rfl rfl rfl rfl rfl rfl rfl this

theorem callLaws_endSession {c} {s : State} (h : State.CallLaws s) (ho : s.lineOwner ≠ some .report) :
    State.CallLaws (s.endSession c) := by
  have fin : ∀ t : State, State.CallLaws (t.setSession { t.session with state := .clearing, timer := none }) →
      State.CallLaws (((t.setSession
      { t.session with state := .clearing, timer := none }).closeAccount).requestRefund false true) := by
    intro t ht
    exact callLaws_keeper.congr (by simp) ht
  unfold State.endSession
  dsimp only
  apply fin
  cases hd : s.session.decision with
  | none =>
    obtain ⟨f1, f2, f3, f4⟩ := h.free hd
    have e : State.endCall c s = s := by unfold State.endCall; rw [hd]
    rw [e]
    exact callLaws_noCall h.1 (pinLaw_congr rfl rfl h.2.2) hd rfl rfl f2 f3 h.2.1.2.2.2.1 f4 (fun h => absurd h ho)
  | some d =>
    obtain ⟨a1, a2, a3, a4, a5, a6, a7, a8, a9, a10⟩ := endCall_spec c h.around hd
    exact callLaws_noCall a1 (pinLaw_congr rfl rfl a2) a3 rfl rfl a6 a7 a8 a9 (fun h => absurd (a10 h) ho)

theorem State.CallLaws.notReport {s : State} (h : State.CallLaws s) (hst : s.session.state ≠ .idle) :
    s.lineOwner ≠ some .report := fun ho => hst (h.2.1.2.2.2.2.2.2 ho)

theorem callLaws_appendSymbol {x} {s : State} (h : State.CallLaws s)
    (hst : s.session.state = .dialWait ∨ s.session.state = .ended ∨ s.session.state = .collecting) :
    State.CallLaws (s.appendSymbol x) := by
  have hd := h.decision_none (by rcases hst with h | h | h <;> rw [h] <;> rfl)
  have hr := h.notReport (by rcases hst with h | h | h <;> rw [h] <;> simp)
  obtain ⟨f1, f2, f3, f4⟩ := h.free hd
  unfold State.appendSymbol
  dsimp only
  have k : State.CallLaws
      (s.setSession { s.session with state := .collecting, buffer := s.session.buffer ++ [x], timer := some ⟨.interSymbol, s.now + Config.interSymbolMs⟩ }) :=
    callLaws_noCall h.1 (pinLaw_congr rfl rfl h.2.2) hd rfl rfl f2 f3 h.2.1.2.2.2.1 f4 (fun h => absurd h hr)
  refine callLaws_takeVerdict (fun _ => k) k.around hd f2 f3 f4 hr (fun r hv => ?_)
  have := dialledVerdict_complete (forMethod_complete hv)
  rw [this]
  exact chosen_spec _ _

theorem callLaws_takeSymbol {x} {s : State} (h : State.CallLaws s) : State.CallLaws (s.takeSymbol x) := by
  unfold State.takeSymbol
  split
  · exact h
  · split
    · rename_i hst
      exact callLaws_appendSymbol (s := s.setSession { s.session with buffer := [] })
          (callLaws_of rfl rfl rfl rfl rfl rfl rfl rfl h) (.inl hst)
    · rename_i hst
      exact callLaws_appendSymbol (s := s.setSession { s.session with buffer := [] })
          (callLaws_of rfl rfl rfl rfl rfl rfl rfl rfl h) (.inr (.inl hst))
    · rename_i hst
      exact ite_holds (callLaws_appendSymbol h (.inr (.inr hst))) h
    · unfold State.sendTones
      split
      · exact callLaws_of rfl rfl rfl rfl rfl rfl rfl rfl h
      · exact h
    all_goals exact h

theorem callLaws_enterDialWait {s : State} (h1 : s.tariff.Lawful) (h2 : s.PinLaw) (h3 : s.session.decision = none)
    (h6 : s.rating.context.stage = 0) (h7 : s.line.sessionRequest = none)
        (h8 : s.line.call.isSome = s.line.state.seized)
    (h9 : s.lineOwner ≠ some .session) (h10 : s.lineOwner ≠ some .report) : State.CallLaws s.enterDialWait :=
  callLaws_noCall h1 (pinLaw_congr rfl rfl h2) h3 rfl rfl h6 h7 h8 h9 (fun h => absurd h h10)

theorem callLaws_takeFollowOn {s : State} (h : State.CallLaws s) : State.CallLaws s.takeFollowOn := by
  unfold State.takeFollowOn
  have held : s.session.state.holdsCall = true → State.CallLaws (s.endCall .followOn).enterDialWait := by
    intro hh
    obtain ⟨d, hd⟩ := h.decision_some hh
    obtain ⟨a1, a2, a3, a4, a5, a6, a7, a8, a9, a10⟩ := endCall_spec .followOn h.around hd
    exact callLaws_enterDialWait a1 a2 a3 a6 a7 a8 a9 (fun ho => (h.held hd).2 (a10 ho))
  have free : s.session.state.holdsCall = false → s.session.state ≠ .idle → State.CallLaws s.enterDialWait := by
    intro hh hi
    have hd := h.decision_none hh
    obtain ⟨f1, f2, f3, f4⟩ := h.free hd
    exact callLaws_enterDialWait h.1 h.2.2 hd f2 f3 h.2.1.2.2.2.1 f4 (h.notReport hi)
  split
  any_goals exact h
  any_goals (rename_i hst; exact held (by rw [hst]; rfl))
  all_goals (rename_i hst; exact free (by rw [hst]; rfl) (by rw [hst]; simp))

theorem callLaws_table {s t : State} (h : State.CallLaws s) (ht : t.tariff.Lawful) (hp : t.PinLaw)
    (h2 : t.rating = s.rating ∧ t.line = s.line ∧ t.session = s.session) :
    State.CallLaws t := by
  obtain ⟨a, b, c⟩ := h
  refine ⟨ht, ?_, hp⟩
  unfold State.CallLaw State.lineOwner at *
  rw [h2.1, h2.2.1, h2.2.2]
  exact b

/-- records aged one by one keep the pins, where pinned ones stay -/
theorem pinLaw_filterMap {s t : State} (f : TariffRecord → Option TariffRecord)
    (hf : ∀ r r', f r = some r' → r'.slot = r.slot ∧ r'.pinned = r.pinned ∧
        (r'.state = .pending → r.state = .pending))
    (hk : ∀ r, r.pinned = true → r.state ≠ .pending → ∃ r', f r = some r')
    (hp : s.PinLaw) (ht : t.tariff = { s.tariff with records := s.tariff.records.filterMap f })
        (hd : t.session.decision = s.session.decision) : t.PinLaw := by
  obtain ⟨p1, p2, p3, p4⟩ := hp
  unfold State.PinLaw
  rw [ht, hd]
  refine ⟨fun r hr => ?_, p2, p3, fun d hd' => ?_⟩
  · obtain ⟨a, ha, hfa⟩ := List.mem_filterMap.1 hr
    obtain ⟨h1, h2, h3⟩ := hf a r hfa
    rw [h1, h2]
    exact ⟨(p1 a ha).1, fun hb hc => (p1 a ha).2 hb (h3 hc)⟩
  · rcases p4 d hd' with h0 | ⟨r, hr, hs⟩
    · exact .inl h0
    · have hpin := (p1 r hr).1.2 (by rw [hd']; simp [hs])
      obtain ⟨r', hr'⟩ := hk r hpin ((p1 r hr).2 hpin)
      exact .inr ⟨r', List.mem_filterMap.2 ⟨r, hr, hr'⟩, by rw [(hf r r' hr').1, hs]⟩

theorem withdrawn_some {r r' : TariffRecord} (h : r.withdrawn = some r') :
    r'.slot = r.slot ∧ r'.pinned = r.pinned ∧ (r'.state = .pending → r.state = .pending) := by
  unfold TariffRecord.withdrawn at h
  split at h
  · cases h; simp
  · cases h

theorem withdrawn_pinned {r : TariffRecord} (h : r.pinned = true) (hs : r.state = .live) :
    ∃ r', r.withdrawn = some r' := by
  unfold TariffRecord.withdrawn
  simp [h, hs]

theorem not_pending {r : TariffRecord} (h : r.state ≠ .pending) (h2 : r.state ≠ .retiring) : r.state = .live := by
  cases hs : r.state <;> simp_all

theorem pinLaw_evaluate {s : State} (hp : s.PinLaw) (now : MinuteTime) {t : State}
    (ht : t.tariff = { s.tariff with records := evaluate now s.tariff.records })
    (hd : t.session.decision = s.session.decision) :
    t.PinLaw := by
  have k : State.PinLaw
      (s.setTariff { s.tariff with records := s.tariff.records.filterMap (TariffRecord.retired now) }) := by
    refine pinLaw_filterMap (s := s) (TariffRecord.retired now) ?_ ?_ hp rfl rfl
    · intro r r' h
      unfold TariffRecord.retired at h
      split at h
      · exact withdrawn_some h
      · cases h; simp
    · intro r hb hs
      unfold TariffRecord.retired
      split
      · rename_i hc
        simp at hc
        exact withdrawn_pinned hb (not_pending hs hc.1)
      · exact ⟨r, rfl⟩
  have k2 := pinLaw_filterMap
      (s := s.setTariff { s.tariff with records := s.tariff.records.filterMap (TariffRecord.retired now) }) (t := t)
    (fun r => some (TariffRecord.promoted now (s.tariff.records.filterMap (TariffRecord.retired now)) r)) ?_ ?_ k ?_
        hd
  · exact k2
  · intro r r' h
    cases h
    unfold TariffRecord.promoted
    split <;> simp
  · intro r _ _
    exact ⟨_, rfl⟩
  · rw [ht]
    unfold evaluate
    simp only [List.filterMap_eq_map', State.setTariff_tariff]

theorem pinLaw_insert {s t : State} {r : TariffRecord} (hp : s.PinLaw) (h1 : r.pinned = false) (h2 : r.slot ≠ 0)
    (h3 : ∀ q ∈ s.tariff.records, q.slot ≠ r.slot)
    (ht : t.tariff = { s.tariff with records := insertRecord r s.tariff.records })
        (hd : t.session.decision = s.session.decision) : t.PinLaw := by
  obtain ⟨p1, p2, p3, p4⟩ := hp
  unfold State.PinLaw
  rw [ht, hd]
  refine ⟨fun q hq => ?_, p2, p3, fun d hd' => ?_⟩
  · rcases mem_insertRecord.1 hq with rfl | hq
    · refine ⟨⟨fun h => absurd (h1.symm.trans h) (by simp), fun h => ?_⟩, fun h => absurd (h1.symm.trans h) (by simp)⟩
      exfalso
      obtain ⟨d, hd1, hd2⟩ := Option.map_eq_some_iff.1 h
      rcases p4 d hd1 with h0 | ⟨x, hx, hxs⟩
      · omega
      · exact h3 x hx (by omega)
    · exact p1 q hq
  · rcases p4 d hd' with h0 | ⟨x, hx, hxs⟩
    · exact .inl h0
    · exact .inr ⟨x, mem_insertRecord.2 (.inr hx), hxs⟩

theorem callLaws_putTariff {b} {s : State} (h : State.CallLaws s) : State.CallLaws (s.putTariff b).1 := by
  unfold State.putTariff
  dsimp only
  split
  · exact h
  · rename_i o _
    split
    · refine callLaws_table h ?_ ?_ ⟨rfl, rfl, rfl⟩
      · simp only [State.setTariff_tariff]
        (repeat' split)
        · exact TariffTable.putDefault_lawful h.1
        · exact TariffTable.putReplace_lawful h.1
        · exact TariffTable.putNew_lawful h.1
      · (repeat' split)
        · unfold TariffTable.putDefault
          obtain ⟨_, _, p1, p2, p3, p4⟩ := h
          split
          · exact ⟨p1, p2, fun _ => by assumption, p4⟩
          · exact ⟨p1, p2, p3, p4⟩
        · unfold TariffTable.putReplace
          dsimp only
          split
          · exact pinLaw_congr rfl rfl h.2.2
          · rename_i n hn
            obtain ⟨n1, n2, n3⟩ := lowestEmpty_spec hn
            have k : State.PinLaw
                (s.setTariff { s.tariff with records := s.tariff.records.filterMap (fun r : TariffRecord => if r.clashes o.content then r.withdrawn else some r) }) := by
              refine pinLaw_filterMap (s := s) _ ?_ ?_ h.2.2 rfl rfl
              · intro r r' h
                split at h
                · exact withdrawn_some h
                · cases h; simp
              · intro r hb hs
                split
                · rename_i hc
                  unfold TariffRecord.clashes at hc
                  simp at hc
                  exact withdrawn_pinned hb (not_pending hs hc.1.2)
                · exact ⟨r, rfl⟩
            exact pinLaw_insert (r := ⟨n, o.content, _, false⟩) k rfl (by dsimp only; omega) (fun q hq => n3 q hq)
                rfl rfl
        · unfold TariffTable.putNew
          dsimp only
          (repeat' split)
          · exact pinLaw_congr rfl rfl h.2.2
          · exact pinLaw_congr rfl rfl h.2.2
          · rename_i n hn
            obtain ⟨n1, n2, n3⟩ := lowestEmpty_spec hn
            exact pinLaw_insert h.2.2 rfl (by dsimp only; omega) n3 rfl rfl
    · exact h

theorem callLaws_withdrawTariff {n} {s : State} (h : State.CallLaws s) : State.CallLaws (s.withdrawTariff n).1 := by
  unfold State.withdrawTariff
  dsimp only
  refine callLaws_table h (TariffTable.withdraw_lawful h.1) ?_ ⟨rfl, rfl, rfl⟩
  unfold TariffTable.withdraw
  split
  · exact pinLaw_congr rfl rfl h.2.2
  split
  · exact pinLaw_congr rfl rfl h.2.2
  split
  · exact pinLaw_congr rfl rfl h.2.2
  · rename_i r hr hret
    have hmem := List.mem_of_find?_eq_some hr
    have hrs : r.slot = n := by have := List.find?_some hr; simpa using this
    have srt := ((TariffTable.lawful_iff _).1 h.1).1
    obtain ⟨p1, p2, p3, p4⟩ := id h.2.2
    dsimp only
    refine ⟨fun q hq => ?_, p2, p3, fun d hd => ?_⟩
    · obtain ⟨a, ha, hfa⟩ := List.mem_filterMap.1 hq
      split at hfa
      · obtain ⟨w1, w2, w3⟩ := withdrawn_some hfa
        rw [w1, w2]; exact ⟨(p1 a ha).1, fun hb hc => (p1 a ha).2 hb (w3 hc)⟩
      · cases hfa; exact p1 q ha
    · replace hd : s.session.decision = some d := hd
      rcases p4 d hd with h0 | ⟨x, hx, hxs⟩
      · exact .inl h0
      · by_cases hxn : x.slot = n
        · have hxr := sorted_inj srt hx hmem (by omega)
          subst hxr
          have hpin := (p1 x hx).1.2 (by rw [hd]; simp [hxs])
          obtain ⟨x', hx'⟩ := withdrawn_pinned hpin (not_pending ((p1 x hx).2 hpin) hret)
          exact .inr ⟨x', List.mem_filterMap.2 ⟨x, hx, by simp [hxn, hx']⟩, by rw [(withdrawn_some hx').1, hxs]⟩
        · exact .inr ⟨x, List.mem_filterMap.2 ⟨x, hx, by simp [hxn]⟩, hxs⟩

theorem callLaws_evaluateTable {s : State} (h : State.CallLaws s) : State.CallLaws s.evaluateTable := by
  unfold State.evaluateTable
  dsimp only
  split
  · exact h
  · exact callLaws_table h (TariffTable.evaluate_lawful h.1) (pinLaw_evaluate h.2.2 _ rfl rfl) ⟨rfl, rfl, rfl⟩

theorem callLaws_judgeThresholds {s : State} (h : State.CallLaws s) :
    State.CallLaws s.judgeThresholds := callLaws_keeper.judgeThresholds h

theorem callLaws_coin {s t : State}
    (h : t.tariff = s.tariff ∧ t.rating = s.rating ∧ t.line = s.line ∧ t.session = s.session) (hs : State.CallLaws s)
    :
    State.CallLaws t := callLaws_congr h hs

theorem callLaws_countCollected {g c} {s : State} (h : State.CallLaws s) :
    State.CallLaws (s.countCollected g c) := callLaws_keeper.countCollected h

theorem callLaws_completeCollect {g} {s : State} (h : State.CallLaws s) : State.CallLaws (s.completeCollect g) := by
  unfold State.completeCollect
  dsimp only
  split
  · exact callLaws_settle (callLaws_coin (by simp) h)
  · rename_i c rest _
    have k : State.CallLaws (State.countCollected g c (s.setCoin { s.coin with cycle := .idle, column := rest })) :=
        callLaws_countCollected (callLaws_coin (by simp) h)
    split
    · exact callLaws_settle (callLaws_coin (by simp) k)
    · exact callLaws_settle k

theorem callLaws_cashboxArrival {s : State} (h : State.CallLaws s) : State.CallLaws s.cashboxArrival := by
  unfold State.cashboxArrival
  dsimp only
  split
  · refine callLaws_coin (s := State.countOverflow _ _ (State.settle _)) (by simp; exact ⟨rfl, rfl, rfl, rfl⟩) ?_
    exact callLaws_keeper.countOverflow (callLaws_settle (callLaws_coin (by simp) h))
  · exact callLaws_keeper.countUnexpected h

theorem callLaws_closeTally {s : State} (h : State.CallLaws s) : State.CallLaws s.closeTally := by
  unfold State.closeTally
  dsimp only
  apply callLaws_keeper.judgeThresholds
  have k := callLaws_keeper.becomeAbnormal (src := .collection) (type := .cashboxCollected) (severity := .notice)
      (s := s.setComp (s.comp.close s.comp.forcedNow)) (callLaws_coin (by simp) h)
  split
  · exact callLaws_coin (by simp)
        (callLaws_keeper.occurrence (src := .compartment) (type := .compartmentForced) (severity := .alarm) k)
  · exact callLaws_coin (by simp) k

theorem callLaws_clockTick {s : State} (h : State.CallLaws s) : State.CallLaws s.clockTick := by
  unfold State.clockTick
  dsimp only
  have k : State.CallLaws
      (if s.advanceClock.clock.time.second = 0 then s.advanceClock.minuteEvent else s.advanceClock) := by
    refine ite_holds ?_ (callLaws_coin (by simp) h)
    unfold State.minuteEvent State.dailyReport
    dsimp only
    have k2 := callLaws_evaluateTable
        (s := s.advanceClock.setClock
        ((if s.advanceClock.clock.time.minuteOfDay = 0 then s.advanceClock.clock.prune else
        s.advanceClock.clock).formBand)) (callLaws_coin (by simp) h)
    exact ite_holds (callLaws_coin (by simp) k2) k2
  exact ite_holds (callLaws_keeper.becomeAbnormal k) k

theorem pinLaw_none {t : State} (hd : t.session.decision = none) (h : ∀ r ∈ t.tariff.records, r.pinned = false)
    (hb : t.tariff.basePinned = false) (hs : t.tariff.staging = none) :
    t.PinLaw := by
  unfold State.PinLaw
  rw [hd]
  exact ⟨fun r hr => by simp [h r hr], by simp [hb], by simp [hs], by simp⟩

/-- R76, R192: a start-up's blocks, with every pin cleared, keep the laws over a call. -/
theorem callLaws_restartWith {s u : State} {lost : Region → Bool} (h : State.CallLaws s)
    (hu : u.session = .startUp ∧ u.line = .startUp ∧ u.rating = .startUp ∧
      u.tariff = if lost .tariff then .regionDefault else s.tariff) : State.CallLaws (u.setTariff u.tariff.releaseAll) := by
  obtain ⟨e1, e2, e3, e5⟩ := hu
  have e4 : u.tariff.Lawful := by
    rw [e5]
    split
    · exact ⟨List.Pairwise.nil, by simp [TariffTable.regionDefault], List.Pairwise.nil⟩
    · exact h.1
  have k1 : State.PinLaw (u.setTariff u.tariff.releaseAll) := by
    refine pinLaw_none (by show u.session.decision = none; rw [e1]; rfl) ?_ rfl rfl
    intro q hq
    obtain ⟨a, ha, hf⟩ := List.mem_filterMap.1 hq
    unfold TariffRecord.released at hf
    split at hf
    · cases hf
    · cases hf; rfl
  refine callLaws_noCall (TariffTable.releaseAll_lawful e4) k1 ?_ ?_ ?_ ?_ ?_ ?_ ?_ ?_
  all_goals simp only [State.setTariff_session, State.setTariff_line, State.setTariff_rating, lineOwner_def, e1, e2, e3]
  all_goals simp [Session.startUp, Line.startUp, Rating.startUp, SessionState.holdsCall, SessionState.timerKind, RatingContext.stage, LineState.seized]

/-- R192 steps 1 to 3 keep the laws over a call. -/
theorem callLaws_startTables {r} {s : State} (h : State.CallLaws s) : State.CallLaws (s.startTables r) := by
  have k := callLaws_restartWith (u := s.bankActive.restartBlocks r) (lost := s.bankActive.defaulted r) h ⟨rfl, rfl, rfl, rfl⟩
  obtain ⟨k1, k2, k3⟩ := k
  unfold State.startTables
  refine callLaws_coin (s := (s.bankActive.restartBlocks r).restartTables) (by simp) ?_
  exact ⟨TariffTable.evaluate_lawful k1, k2, pinLaw_evaluate k3 _ rfl rfl⟩

theorem callLaws_startUp {r} {s : State} (h : State.CallLaws s) : State.CallLaws (s.startUp r) := by
  unfold State.startUp
  split
  · exact callLaws_coin (s := (s.startTables r).makeChanges (State.startChanges r (s.retentionCount r)))
      (by simp [State.fullStart]) (callLaws_keeper.startChanges (fun _ hf => hf) (callLaws_startTables h))
  · next written _ =>
    cases hl : s.defaulted r .tariff && decide (Region.tariff ∈ written)
    · exact callLaws_coin (s := s)
        (by simp [State.cutJudging, State.cutTables, hl]; simp only [State.restartWith, hl]; simp) h
    · exact callLaws_coin (s := (s.bankActive.restartWith (fun _ => true) s.supplies).setTariff TariffTable.regionDefault.releaseAll)
        (by simp [State.cutJudging, State.cutTables, hl]; simp [State.restartWith, hl]; rfl)
        (callLaws_restartWith (lost := fun _ => true) h ⟨rfl, rfl, rfl, rfl⟩)
  · next n _ =>
    exact callLaws_coin (s := (s.startTables r).makeChanges ((State.startChanges r (s.retentionCount r)).take n))
      (by simp [State.cutAfter]) (callLaws_keeper.startChanges (State.mem_of_take n) (callLaws_startTables h))

theorem callLaws_resetReport {s : State} (h : State.CallLaws s) :
    State.CallLaws s.resetReport ∧ s.resetReport.lineOwner ≠ some .report := by
  unfold State.resetReport
  dsimp only
  have k1 : State.CallLaws (s.askRelease .report) ∧ (s.askRelease .report).lineOwner ≠ some .report := by
    refine ⟨?_, (askRelease_spec .report h.around.line).2.2.1⟩
    unfold State.askRelease
    split
    · exact callLaws_release h (.inl (by rename_i hc; rw [hc.1]; simp))
    · exact h
  have k2 : State.CallLaws ((s.askRelease .report).withdrawRequest .report) ∧
      ((s.askRelease .report).withdrawRequest .report).lineOwner ≠ some .report :=
    ⟨callLaws_of rfl rfl rfl rfl rfl rfl rfl rfl k1.1, k1.2⟩
  have k3 := callLaws_ownerKeeper.removeSnapshots k2
  split
  · exact ⟨callLaws_coin (by simp) k3.1, by simpa [lineOwner_def] using k3.2⟩
  · exact ⟨callLaws_coin (by simp) k3.1, by simpa [lineOwner_def] using k3.2⟩

theorem callLaws_line {s t : State} (h : t.tariff = s.tariff ∧ t.rating = s.rating ∧ t.session = s.session)
    (h3 : t.line.call.isSome = s.line.call.isSome) (ho : t.lineOwner = s.lineOwner)
    (h4 : t.line.state.seized = s.line.state.seized) (h5 : t.line.sessionRequest = s.line.sessionRequest)
    (hs : State.CallLaws s) :
    State.CallLaws t := by
  obtain ⟨a, b, c⟩ := hs
  refine ⟨by rw [h.1]; exact a, ?_, pinLaw_congr h.1 (by rw [h.2.2]) c⟩
  unfold State.CallLaw at *
  rw [h.2.1, h.2.2, h3, ho, h4, h5]
  exact b

theorem callLaws_enterWaitLine {s : State} (h : State.CallLaws s)
    (ho : s.lineOwner ≠ some .report ∨ s.session.state = .idle) :
    State.CallLaws s.enterWaitLine := by
  unfold State.enterWaitLine
  dsimp only
  have k : ∀ r, State.CallLaws (s.setReport r) := fun r => callLaws_coin (by simp) h
  split
  · unfold State.requestLine
    split
    · exact k _
    · exact callLaws_line ⟨rfl, rfl, rfl⟩ rfl rfl rfl rfl h
  · exact callLaws_reportFail (k _) ho

theorem callLaws_beginAttempt {s : State} (h : State.CallLaws s)
    (ho : s.lineOwner ≠ some .report ∨ s.session.state = .idle) : State.CallLaws s.beginAttempt :=
  ite_holds (callLaws_reportFail (callLaws_coin (by simp) h) ho) (callLaws_enterWaitLine h ho)

theorem callLaws_stationInit {s : State} (h : State.CallLaws s) : State.CallLaws s.stationInit.1 := by
  have fin : ∀ u : State, State.CallLaws u → u.session.state.timerKind = none → ∀ r l c a, r.context =
      u.rating.context → l.call = u.line.call → l.state = u.line.state → l.sessionRequest = u.line.sessionRequest →
      State.CallLaws (((((u.setSession { u.session with buffer := [], timer := none }).setRating r).setLine
          l).setCoin c).setAttention a) := by
    intro u ku ht r l c a h1 h2 h3 h4
    refine callLaws_of (s := u) rfl (by show r.context.stage = _; rw [h1]) h2 h3 h4 rfl rfl ?_ ku
    have := ku.2.1.2.1
    rw [ht] at this
    exact (Option.map_eq_none_iff.1 this).symm
  obtain ⟨k1, k2⟩ := callLaws_resetReport h
  have k3 : State.CallLaws s.resetReport.initSession ∧ s.resetReport.initSession.session.state.timerKind = none := by
    unfold State.initSession
    generalize s.resetReport = u at *
    split
    · rename_i hst
      have k := callLaws_endSession (c := .stationInit) k1 k2
      have hc : (u.endSession .stationInit).session.state = .clearing := by simp [State.endSession]
      have hd := k.decision_none (by rw [hc]; rfl)
      obtain ⟨f1, f2, f3, f4⟩ := k.free hd
      refine ⟨callLaws_departIdle k.1 k.2.2 hd f1 k.2.1.2.1 f2 f3 k.around.line f4, ?_⟩
      have hno := k.notReport (by rw [hc]; simp)
      unfold State.departIdle
      rw [if_neg (fun h => hno h.1)]
      show (u.endSession .stationInit).session.state.timerKind = none
      rw [hc]
      rfl
    · rename_i hst
      exact ⟨callLaws_coin (by simp) k1, by simp [hst, SessionState.timerKind]⟩
    all_goals exact ⟨callLaws_endSession k1 k2, by simp [State.endSession, SessionState.timerKind]⟩
  unfold State.stationInit
  generalize s.resetReport.initSession = u at k3
  exact fin u k3.1 k3.2 _ _ _ _ rfl rfl rfl rfl

theorem callLaws_clearCode {c} {s : State} (h : State.CallLaws s) : State.CallLaws (s.clearCode c).1 := by
  unfold State.clearCode State.judgeClear State.clearCondition
  dsimp only
  (repeat' split)
  any_goals exact h
  · rename_i src _ _ _ _ _ _ _ _
    exact callLaws_coin (by simp) (callLaws_keeper.clearRecord (src := src) h)
  · exact callLaws_keeper.clearRecord h

theorem callLaws_applyAck {s : State} (h : State.CallLaws s) (ho : s.lineOwner = some .report) :
    State.CallLaws s.applyAck := by
  unfold State.applyAck
  dsimp only
  split
  · exact h
  · rename_i snap _
    have k1 : State.CallLaws (List.foldl (fun s i => State.ackIncluded i s) s snap.records) := foldl_holds
        (f := fun s i => State.ackIncluded i s) (fun s i hs => callLaws_keeper.ackIncluded hs) _ h
    generalize List.foldl (fun s i => State.ackIncluded i s) s snap.records = u at k1
    have k2 := fun r => (callLaws_coin (t := (u.raise .reportDone).setReport r) (by simp) k1)
    have k3 : ∀ r, State.CallLaws (((u.raise .reportDone).setReport r).askRelease .report) := by
      intro r
      unfold State.askRelease
      split
      · exact callLaws_release (k2 _) (.inl (by rename_i hc; rw [hc.1]; simp))
      · exact k2 _
    exact callLaws_coin (by simp)
        (k3 { u.report with attempts := 0, snapshot := none, repeated := false, replyEnds := none, outcome := some .acknowledged })

theorem callLaws_work (c : Instr) (s : State) (hs : State.CallLaws s) : State.CallLaws (Instr.work c s) := by
  cases c <;> dsimp only [Instr.work]
  case validatorAccepted => exact ite_holds (callLaws_coin (by simp) hs) (callLaws_keeper.countUnconfirmed hs)
  case columnEntryPulse =>
    unfold State.columnPulse State.enterColumn
    (repeat' split) <;> first | exact callLaws_keeper.countUnconfirmed hs | exact callLaws_coin (by simp) hs
  case cashboxEntryPulse =>
    unfold State.cashboxPulse
    split
    · exact callLaws_coin (by simp) hs
    · exact callLaws_completeCollect hs
    all_goals exact callLaws_cashboxArrival hs
  case transitWindowEnd =>
    unfold State.expireTransit
    split
    · exact hs
    · exact callLaws_keeper.countUnconfirmed (callLaws_coin (by simp) hs)
  case collectGateHome =>
    unfold State.collectHome
    dsimp only
    have k := callLaws_keeper.makeNormal (src := .collectGate) hs
    split
    · exact callLaws_completeCollect k
    · exact callLaws_coin (by simp) k
    all_goals exact k
  case collectWindowTimeout =>
    unfold State.timeOutCollect
    dsimp only
    split
    · rename_i g e _ _ _
      exact callLaws_keeper.resolveWithheld
          (callLaws_coin (by simp)
          (callLaws_writeOff (callLaws_keeper.occurrence (src := .collectGate) (type := .gateJam)
          (severity := .fault) (s := s.reach e) (callLaws_coin (by simp) hs))))
    all_goals exact hs
  case refundGateHome =>
    unfold State.refundHome
    dsimp only
    have k := callLaws_keeper.makeNormal (src := .refundGate) hs
    split
    · exact ite_holds (callLaws_coin (by simp) k) (callLaws_coin (by simp) k)
    all_goals exact k
  case refundWindowTimeout =>
    unfold State.timeOutRefund
    dsimp only
    split
    · rename_i e _ _ _
      exact callLaws_coin (by simp)
          (callLaws_keeper.occurrence (src := .refundGate) (type := .gateJam) (severity := .fault) (s := s.reach e)
          (callLaws_coin (by simp) hs))
    all_goals exact hs
  case returnCupWatchEnd =>
    unfold State.endWatch
    split
    · exact hs
    · exact callLaws_keeper.occurrence (callLaws_coin (by simp) hs)
  case slotObstructed10s => exact ite_holds (callLaws_keeper.becomeAbnormal hs) hs
  case slotClear5s => exact callLaws_keeper.makeNormal hs
  case doorReading r => exact callLaws_keeper.readDoor hs
  case cashboxRemoval =>
    unfold State.removeCashbox State.dropHeldCollect
    have k := callLaws_closeTally (s := s.setComp { s.comp with presence := .absent }) (callLaws_coin (by simp) hs)
    refine ite_holds ?_ hs
    exact ite_holds (callLaws_writeOff (callLaws_coin (by simp) k)) k
  case tallyRelease =>
    unfold State.releaseTally
    (repeat' split)
    any_goals exact hs
    exact callLaws_keeper.releaseClosedTally hs
  case tariffPut => exact callLaws_putTariff hs
  case tariffWithdraw => exact callLaws_withdrawTariff hs
  case clockSecond => exact ite_holds (callLaws_clockTick hs) (ite_holds hs (callLaws_coin (by simp) hs))
  case clockSet p g b =>
    unfold State.setTime
    dsimp only
    split
    · have k : ∀ c, State.CallLaws ((s.setClock c).makeNormal .clock).evaluateTable := fun c =>
          callLaws_evaluateTable (callLaws_keeper.makeNormal (callLaws_coin (by simp) hs))
      exact callLaws_coin (by simp)
          (k { s.clock with time := clockTimeAt b 0, weekday := (clockTimeAt b 0).date.weekday, unset := false, nextSecond := s.now + Config.secondMs })
    · exact hs
  case stepBoundary => exact callLaws_stepBoundary hs
  case warningToneStart => exact callLaws_startWarningTone hs
  case flagsReadClear => exact callLaws_of rfl rfl rfl rfl rfl rfl rfl rfl hs
  case lineGrant =>
    unfold State.makeGrant State.grantable
    dsimp only
    split
    · exact hs
    · rename_i o r hg
      split at hg
      · obtain ⟨a, ⟨c1, c2, c3, c4, c5, c6, c7⟩, c⟩ := id hs
        split at hg
        · rename_i r' hq
          cases hg
          dsimp only
          have hp := c6 (by rw [hq]; rfl)
          refine ⟨a, ⟨c1, c2, c3, rfl, fun _ => ?_, ?_, ?_⟩, pinLaw_congr rfl rfl c⟩
          · simp [hp.1, SessionState.stage]
          · simp [Line.grant]
          · simp [lineOwner_def, Line.grant]
        · rename_i r' hq hq2
          split at hg
          · cases hg
            rename_i hidle
            dsimp only
            have k : State.CallLaws (s.setLine (s.line.grant s.now .report r)) := by
              refine ⟨a, ⟨c1, c2, c3, rfl, ?_, ?_, fun _ => hidle⟩, pinLaw_congr rfl rfl c⟩
              · simp [lineOwner_def, Line.grant]
              · simp [Line.grant, hq]
            exact ite_holds (callLaws_coin (by simp) k) k
          · cases hg
        · cases hg
      · cases hg
  case loopCurrentSeen =>
    unfold State.seeCurrent
    split
    · rename_i h
      exact callLaws_line (s := s) ⟨rfl, rfl, rfl⟩ rfl rfl (by rw [h]; rfl) rfl hs
    · exact hs
  case seizureTimeout => exact ite_holds (callLaws_failDialTone hs) hs
  case dialToneTimeout => exact ite_holds (callLaws_failDialTone hs) hs
  case dialToneClassified =>
    unfold State.hearDialTone
    dsimp only
    split
    · rename_i h
      have e : ((s.setLine { s.line with streak := 0 }).makeNormal .dialtone) =
          ((s.setLine { s.line with streak := 0 }).makeNormal .dialtone) := rfl
      have k := callLaws_keeper.makeNormal (src := .dialtone) (s := s.setLine { s.line with streak := 0 })
          (callLaws_of rfl rfl rfl rfl rfl rfl rfl rfl hs)
      generalize (s.setLine { s.line with streak := 0 }).makeNormal .dialtone = u at k
      unfold Line.startDialling
      split
      · exact callLaws_of rfl rfl rfl rfl rfl rfl rfl rfl k
      · rename_i c hc
        have hsz := k.2.1.2.2.2.1
        rw [hc] at hsz
        exact callLaws_line ⟨rfl, rfl, rfl⟩ (s := u) (by simp [hc]) (by simp [lineOwner_def, hc])
            (by rw [← hsz]; rfl) rfl k
    · exact hs
  case dialSymbolSent =>
    unfold State.passDialPoint
    split
    · unfold Line.dialPoint
      split
      · exact callLaws_of rfl rfl rfl rfl rfl rfl rfl rfl hs
      · rename_i c hc
        exact callLaws_line ⟨rfl, rfl, rfl⟩ (s := s) (by simp [hc]) (by simp [lineOwner_def, hc]) rfl rfl hs
    · exact hs
  case diallingEnd =>
    unfold State.endDialling
    dsimp only
    split
    · have k : ∀ n, State.CallLaws ((s.reach n).setLine ((s.reach n).line.awaitAnswer (s.reach n).now)) := by
        intro n
        unfold Line.awaitAnswer
        split
        · exact callLaws_of rfl rfl rfl rfl rfl rfl rfl rfl hs
        · rename_i c hc
          replace hc : s.line.call = some c := hc
          have hsz := hs.2.1.2.2.2.1
          rw [hc] at hsz
          exact callLaws_line ⟨rfl, rfl, rfl⟩ (s := s) (by simp [hc]) (by simp [lineOwner_def, hc])
              (by rw [← hsz]; rfl) rfl hs
      have k := k s.line.diallingEnds
      unfold State.startRinging
      split
      · rename_i h
        obtain ⟨a, ⟨c1, c2, c3, c4, c5, c6, c7⟩, c⟩ := id k
        rw [h.2] at c1 c2 c3 c7
        refine ⟨a, ⟨c1, c2, c3, c4, fun _ => by simp [SessionState.stage], fun hq => absurd h.1 (c6 hq).2, fun ho =>
            by have := c7 ho; cases this⟩, pinLaw_congr rfl rfl c⟩
      · exact k
    · exact hs
  case busyClassified =>
    unfold State.hearBusy
    split
    · exact callLaws_lineEnds hs
    · exact callLaws_lineEnds hs
    · exact ite_holds (callLaws_lineEnds hs) hs
    all_goals exact hs
  case polarityReversal =>
    unfold State.reversePolarity
    (repeat' split)
    · rename_i h
      exact callLaws_lineAnswered hs h
    · exact callLaws_lineEnds hs
    all_goals exact hs
  case presumedDelayEnd =>
    unfold State.endPresumedDelay
    split
    · rename_i h _
      exact callLaws_lineAnswered (callLaws_coin (by simp) hs) h
    · exact hs
  case answerWaitEnd =>
    unfold State.endAnswerWait
    split
    · exact callLaws_lineEnds (callLaws_coin (by simp) hs)
    · exact hs
  case acknowledgeClassified =>
    unfold State.hearAcknowledge State.awaitsReply
    split
    · rename_i h
      simp at h
      exact callLaws_applyAck hs h.1.2
    · exact hs
  case refuseClassified =>
    unfold State.hearRefuse State.awaitsReply State.repeatReport
    split
    · rename_i h
      simp at h
      split
      · exact callLaws_reportFail hs (.inr (hs.2.1.2.2.2.2.2.2 h.1.2))
      · dsimp only
        split
        · unfold State.sendTones
          split
          · exact callLaws_of rfl rfl rfl rfl rfl rfl rfl rfl hs
          · exact callLaws_coin (by simp) hs
        · exact callLaws_coin (by simp) hs
    · exact hs
  case toneStringSent =>
    unfold State.endToneString State.reportSent
    dsimp only
    (repeat' split)
    any_goals exact hs
    all_goals exact callLaws_of (s := s) (by simp) (by simp) (by simp) (by simp) (by simp) (by simp) (by simp) (by simp) hs
  case releaseGuardEnd =>
    unfold State.endGuard
    dsimp only
    split
    · rename_i h
      have k : ∀ n, State.CallLaws ((s.reach n).setLine { s.line with state := .free }) := fun n => callLaws_line
          (s := s) ⟨rfl, rfl, rfl⟩ rfl rfl (by rw [h]; rfl) rfl hs
      exact ite_holds (callLaws_afterAttempt (k _)) (k _)
    · exact hs
  case loopCurrentLoss =>
    unfold State.loseLine
    (repeat' split) <;> first | exact callLaws_lineEnds hs | exact hs
  case lineAbsent5s => exact ite_holds (callLaws_keeper.becomeAbnormal hs) hs
  case linePresent10s =>
    unfold State.linePresent
    dsimp only
    have k := callLaws_keeper.makeNormal (src := .line) hs
    refine ite_holds (callLaws_beginAttempt k ?_) k
    by_cases h : (s.makeNormal .line).lineOwner = some .report
    · exact .inr (k.2.1.2.2.2.2.2.2 h)
    · exact .inl h
  case offHook =>
    unfold State.liftHandset
    dsimp only
    have k : State.CallLaws (s.setSession { s.session with hook := .off }) := callLaws_of rfl rfl rfl rfl rfl rfl rfl
        rfl hs
    (repeat' split)
    · exact hs
    · rename_i h
      exact callLaws_openSession k h
    · exact k
  case onHook =>
    unfold State.replaceHandset
    dsimp only
    have k : State.CallLaws (s.setSession { s.session with hook := .on }) := callLaws_of rfl rfl rfl rfl rfl rfl rfl
        rfl hs
    split
    · exact hs
    · split
      any_goals exact k
      all_goals (rename_i h; exact callLaws_endSession k (k.notReport (by rw [h]; simp)))
  case clearingEnd =>
    unfold State.endClearing State.clearingStands
    dsimp only
    split
    · rename_i h
      simp at h
      have hd := hs.decision_none (by rw [h.1.1]; rfl)
      obtain ⟨f1, f2, f3, f4⟩ := hs.free hd
      have k : State.CallLaws
          (State.returnIdle (State.recordEvent .closed none none none none
          (s.setSession { s.session with state := .idle }))) := by
        have ht : s.session.timer = none := by
          have := hs.2.1.2.1
          rw [h.1.1] at this
          simpa [SessionState.timerKind] using this
        exact callLaws_noCall hs.1 (pinLaw_congr rfl rfl hs.2.2) hd rfl
            (by show s.session.timer.map _ = none; rw [ht]; rfl) f2 f3 hs.around.line f4 (fun _ => rfl)
      split
      · exact callLaws_openSession k rfl
      · exact k
    · exact hs
  case symbolKeyPress =>
    exact State.pressKey_keeps (fun _ => callLaws_takeSymbol)
        (fun _ h => callLaws_of rfl rfl rfl rfl rfl rfl rfl rfl h) hs
  case followOnPress =>
    exact State.pressKey_keeps (fun _ => callLaws_takeFollowOn)
        (fun _ h => callLaws_of rfl rfl rfl rfl rfl rfl rfl rfl h) hs
  case keyStuck k =>
    unfold State.stickKey
    dsimp only
    split
    · have k : ∀ t, State.CallLaws ((s.reach t).setKey k .stuck) := fun t => callLaws_of rfl rfl rfl rfl rfl rfl rfl
          rfl hs
      exact ite_holds (callLaws_keeper.becomeAbnormal (k _)) (k _)
    all_goals exact hs
  case keyRelease k =>
    unfold State.releaseKey
    dsimp only
    have k : State.CallLaws (s.setKey k .released) := callLaws_of rfl rfl rfl rfl rfl rfl rfl rfl hs
    exact ite_holds k (callLaws_keeper.makeNormal k)
  case firstSymbolTimeout =>
    unfold State.expireFirstSymbol
    split
    · rename_i t ht
      have h1 := hs.timerState ht
      have hst : s.session.state = .dialWait :=
          by cases hst : s.session.state <;> rw [hst] at h1 <;> simp_all [SessionState.timerKind]
      have hd := hs.decision_none (by rw [hst]; rfl)
      obtain ⟨f1, f2, f3, f4⟩ := hs.free hd
      exact callLaws_refuse (s := s.reach t) ⟨hs.1, pinLaw_congr rfl rfl hs.2.2, hs.around.line⟩ hd f2 f3 f4
          (hs.notReport (by rw [hst]; simp))
    · exact hs
  case interSymbolTimeout =>
    unfold State.expireInterSymbol
    split
    · rename_i t ht
      have h1 := hs.timerState ht
      have hst : s.session.state = .collecting :=
          by cases hst : s.session.state <;> rw [hst] at h1 <;> simp_all [SessionState.timerKind]
      have hd := hs.decision_none (by rw [hst]; rfl)
      obtain ⟨f1, f2, f3, f4⟩ := hs.free hd
      dsimp only
      refine callLaws_takeVerdict (s := (s.reach t).setSession { s.session with timer := none })
          (fun hv => absurd hv timeoutVerdict_ne) ⟨hs.1, pinLaw_congr rfl rfl hs.2.2, hs.around.line⟩ hd f2 f3 f4
          (hs.notReport (by rw [hst]; simp)) (fun r hv => ?_)
      rw [timeoutVerdict_complete (forMethod_complete hv)]
      exact chosen_spec _ _
    · exact hs
  case creditWaitTimeout =>
    unfold State.expireCreditWait
    split
    · rename_i t ht
      have h1 := hs.timerState ht
      have hst : s.session.state = .awaitCredit :=
          by cases hst : s.session.state <;> rw [hst] at h1 <;> simp_all [SessionState.timerKind]
      obtain ⟨d, hd⟩ := hs.decision_some (by rw [hst]; rfl)
      exact callLaws_endCallToEnded (s := s.reach t) (callLaws_coin (by simp) hs)
          (by show s.session.decision.isSome = true; rw [hd]; rfl)
    · exact hs
  case inputActiveEdge => exact callLaws_keeper.activeEdge hs
  case inputInactiveChange => exact callLaws_keeper.inactiveChange hs
  case countWindowEnd => exact callLaws_keeper.endWindow hs
  case holdOffEnd => exact callLaws_keeper.endHoldOff hs
  case clearDelayEnd => exact callLaws_keeper.endClearDelay hs
  case conditionClear => exact callLaws_clearCode hs
  case retryTimerExpiry =>
    unfold State.expireRetry State.retryExpired
    have h0 : s.lineOwner ≠ some .report ∨ s.session.state = .idle := by
      by_cases h : s.lineOwner = some .report
      · exact .inr (hs.2.1.2.2.2.2.2.2 h)
      · exact .inl h
    split
    · rename_i t _ _
      have k : State.CallLaws (s.reach t) := callLaws_coin (by simp) hs
      have kr : ∀ r, State.CallLaws ((s.reach t).setReport r) := fun r => callLaws_coin (by simp) hs
      exact ite_holds (callLaws_beginAttempt k h0) (kr _)
    · exact hs
  case replyWaitEnd =>
    unfold State.endReplyWait
    split
    · refine callLaws_reportFail (callLaws_coin (by simp) hs) ?_
      by_cases h : s.lineOwner = some .report
      · exact .inr (hs.2.1.2.2.2.2.2.2 h)
      · exact .inl h
    · exact hs
  case settingSet => exact callLaws_keeper.setSetting hs
  case stationInit => exact callLaws_stationInit hs
  case mainSupplyStart => exact callLaws_startUp hs
  case gateLeavesHome g => cases g <;> exact callLaws_coin (by simp) hs
  case unknownRequest => exact ite_holds hs (callLaws_coin (by simp) hs)
  any_goals (refine callLaws_coin ?_ hs; simp; done)
  all_goals exact hs

end Sys2Proof.Machine
end

