-- ==== Sys2Proof/Laws/Coins.lean ====
section
/-! SUPPORT. The First Law of the coin path (section 1.3) and its bounds, kept by the coin path operations and by every command. -/

namespace Sys2Proof.Machine

/-- The First Law, with the law that a collect cycle has a coin to drop. -/
def State.CoinLaws (s : State) : Prop := s.coin.FirstLaw ∧ s.coin.CollectHasCoin

/-- The transits bound for the column. -/
def columnBound (l : List TransitEntry) : Nat := (l.filter (fun e => e.dest = .column)).length

/-- Whether a gate cycle is a collect cycle. -/
def GateCycle.collects : GateCycle → Bool | .collectHeld | .collectStarted _ _ _ _ => true | _ => false
@[simp] theorem collects_held : GateCycle.collects .collectHeld = true := rfl
@[simp] theorem collects_started {a b c d} : GateCycle.collects (.collectStarted a b c d) = true := rfl
@[simp] theorem collects_idle : GateCycle.collects .idle = false := rfl
@[simp] theorem collects_refund {a b c} : GateCycle.collects (.refund a b c) = false := rfl
@[simp] theorem columnBound_nil : columnBound [] = 0 := rfl
@[simp] theorem columnBound_app (a b) : columnBound (a ++ b) = columnBound a + columnBound b := by
  simp [columnBound]
@[simp] theorem columnBound_map (l) : columnBound (l.map (fun e => { e with noted := true })) = columnBound l := by
  simp [columnBound, List.filter_map, Function.comp_def]

theorem fill_eq (c : CoinPath) : c.fill = c.column.length + columnBound c.transit := rfl

theorem coinLaws_iff (s) :
    State.CoinLaws s ↔ (s.coin.column.length + columnBound s.coin.transit ≤ 12 ∧ s.coin.transit.length ≤ 4 ∧
    s.coin.streak ≤ 2) ∧ (GateCycle.collects s.coin.cycle = true → s.coin.column ≠ []) := Iff.rfl

theorem coinLaws_congr {s t : State} (h : t.coin = s.coin) (hs : State.CoinLaws s) : State.CoinLaws t := by
  unfold State.CoinLaws at *
  rw [h]
  exact hs

theorem takeOldest_spec {d l e r} (h : takeOldest d l = some (e, r)) : l.length = r.length + 1 ∧
   columnBound l = columnBound r + if d = .column then 1 else 0 := by
  induction l generalizing e r with
  | nil => simp [takeOldest] at h
  | cons x xs ih =>
    unfold takeOldest at h
    split at h
    · cases h; rename_i hd; simp only [List.filter_cons, columnBound]; subst hd; refine ⟨rfl, ?_⟩; split <;> simp_all
    · cases hx : takeOldest d xs with
      | none => simp [hx] at h
      | some p =>
        simp [hx] at h
        obtain ⟨h1, h2⟩ := h
        subst h2
        have := ih (e := p.1) (r := p.2) hx
        subst h1
        simp only [List.filter_cons, columnBound] at *
        split <;> split at this <;> simp_all <;> omega

theorem coinLaws_requestRefund {a b s} (hs : State.CoinLaws s) : State.CoinLaws (State.requestRefund a b s) := by
  unfold State.requestRefund
  split <;> simpa [coinLaws_iff] using hs

theorem coinLaws_countUnconfirmed {s} (hs : State.CoinLaws s) : State.CoinLaws (State.countUnconfirmed s) := by
  unfold State.countUnconfirmed
  split
  all_goals
    simp [coinLaws_iff] at *
    grind

theorem coinLaws_requestCollect {s} (hs : State.CoinLaws s) : State.CoinLaws (State.requestCollect s) := by
  unfold State.requestCollect State.collectCanStart
  (repeat' split) <;> simp [coinLaws_iff] at * <;> grind

theorem coinLaws_settle {s} (hs : State.CoinLaws s) : State.CoinLaws (State.settle s) := by
  dsimp only [State.settle]
  (repeat' split)
  · simpa [coinLaws_iff] using hs
  · simpa [coinLaws_iff] using hs
  · simpa [coinLaws_iff] using hs
  · apply coinLaws_requestCollect
    simpa [coinLaws_iff] using hs

theorem coinLaws_completeCollect {g s} (hs : State.CoinLaws s) : State.CoinLaws (State.completeCollect g s) := by
  dsimp only [State.completeCollect]
  (repeat' split)
  all_goals apply coinLaws_settle
  all_goals simp_all [coinLaws_iff]; try grind

theorem coinLaws_takeCharge {a b s} (hs : State.CoinLaws s) : State.CoinLaws (State.takeCharge a b s) := by
  dsimp only [State.takeCharge]
  split
  · exact hs
  · apply coinLaws_settle
    simpa [coinLaws_iff] using hs

theorem takeOldest_none {d l} (h : takeOldest d l = none) : d = .column → columnBound l = 0 := by
  induction l with
  | nil => simp
  | cons x xs ih =>
    unfold takeOldest at h
    split at h
    · simp at h
    · simp only [Option.map_eq_none_iff] at h
      intro hd
      have := ih h hd
      subst hd
      simp_all [columnBound]
@[simp] theorem columnBound_single (e) : columnBound [e] = if e.dest = .column then 1 else 0 := by
  unfold columnBound
  split <;> simp_all

theorem coinLaws_acceptCoin {cls s} (hs : State.CoinLaws s) : State.CoinLaws (State.acceptCoin cls s) := by
  dsimp only [State.acceptCoin]
  split
  · simp [coinLaws_iff, fill_eq] at *
    grind
  · exact coinLaws_countUnconfirmed hs

theorem coinLaws_columnPulse {s} (hs : State.CoinLaws s) : State.CoinLaws (State.columnPulse s) := by
  unfold State.columnPulse State.passToCup State.enterColumn State.refundBetweenSessions
  cases h : takeOldest .column s.coin.transit with
  | none =>
    have := takeOldest_none h rfl
    (repeat' split) <;> (try apply coinLaws_requestRefund) <;> (try apply coinLaws_countUnconfirmed) <;> simp
        [coinLaws_iff] at * <;> grind
  | some p =>
    have := takeOldest_spec (e := p.1) (r := p.2) h
    dsimp only
    simp only [if_true] at this
    (repeat' split) <;> (try apply coinLaws_requestRefund) <;> (try apply coinLaws_countUnconfirmed) <;> simp
        [coinLaws_iff] at * <;> grind

theorem coinLaws_cashboxPulse {s} (hs : State.CoinLaws s) : State.CoinLaws (State.cashboxPulse s) := by
  unfold State.cashboxPulse State.cashboxArrival
  split
  · simp_all [coinLaws_iff]
  · exact coinLaws_completeCollect hs
  all_goals
    cases h : takeOldest .overflow s.coin.transit with
    | none => simpa [coinLaws_iff] using hs
    | some p =>
      have := takeOldest_spec (e := p.1) (r := p.2) h
      dsimp only
      have hk : State.CoinLaws ((s.setCoin { s.coin with transit := p.2 }).addBanked p.1.value).settle := by
        apply coinLaws_settle
        simp [coinLaws_iff] at *
        grind
      simp [coinLaws_iff] at *
      grind

theorem coinLaws_expireTransit {s} (hs : State.CoinLaws s) : State.CoinLaws (State.expireTransit s) := by
  unfold State.expireTransit
  split
  · exact hs
  · rename_i h
    apply coinLaws_countUnconfirmed
    simp [coinLaws_iff] at *
    simp [h, columnBound, List.filter_cons] at *
    grind

theorem coinLaws_startRefund {s} (hs : State.CoinLaws s) : State.CoinLaws (State.startRefund s) := by
  unfold State.startRefund State.orphanColumn
  (repeat' split) <;> simp [coinLaws_iff] at * <;> grind

theorem coinLaws_startCollect {s} (hs : State.CoinLaws s) : State.CoinLaws (State.startCollect s) := by
  unfold State.startCollect State.collectStarts
  (repeat' split) <;> simp [coinLaws_iff] at * <;> grind [collects_held]

theorem coinLaws_collectHome {s} (hs : State.CoinLaws s) : State.CoinLaws (State.collectHome s) := by
  dsimp only [State.collectHome]
  (repeat' split)
  · apply coinLaws_completeCollect
    simpa [coinLaws_iff] using hs
  · simp_all [coinLaws_iff]
  all_goals simpa [coinLaws_iff] using hs

theorem coinLaws_timeOutCollect {s} (hs : State.CoinLaws s) : State.CoinLaws (State.timeOutCollect s) := by
  dsimp only [State.timeOutCollect]
  (repeat' split) <;> simp_all [coinLaws_iff]

theorem coinLaws_refundHome {s} (hs : State.CoinLaws s) : State.CoinLaws (State.refundHome s) := by
  dsimp only [State.refundHome]
  (repeat' split) <;> simp [coinLaws_iff] at * <;> grind

theorem coinLaws_timeOutRefund {s} (hs : State.CoinLaws s) : State.CoinLaws (State.timeOutRefund s) := by
  dsimp only [State.timeOutRefund, State.orphanColumn]
  (repeat' split) <;> simp_all [coinLaws_iff]

theorem coinLaws_removeCashbox {s} (hs : State.CoinLaws s) : State.CoinLaws (State.removeCashbox s) := by
  dsimp only [State.removeCashbox, State.dropHeldCollect]
  (repeat' split) <;> simp_all [coinLaws_iff]

theorem coinLaws_rateAnswer {p s} (hs : State.CoinLaws s) : State.CoinLaws (State.rateAnswer p s).1 := by
  dsimp only [State.rateAnswer]
  (repeat' split)
  · simpa [coinLaws_iff] using hs
  · apply coinLaws_congr (s := State.takeCharge _ _ (State.takeCharge _ _ _)) (by simp; rfl)
    apply coinLaws_takeCharge
    apply coinLaws_takeCharge
    simpa [coinLaws_iff] using hs
  · simpa [coinLaws_iff] using hs
  · exact hs

theorem coinLaws_lineAnswered {p s} (hs : State.CoinLaws s) : State.CoinLaws (State.lineAnswered p s) := by
  dsimp only [State.lineAnswered, State.sessionAnswered]
  (repeat' split)
  all_goals first
    | (apply coinLaws_congr (by simp; rfl); apply coinLaws_rateAnswer; simpa [coinLaws_iff] using hs)
    | simpa [coinLaws_iff] using hs

theorem coinLaws_stepBoundary {s} (hs : State.CoinLaws s) : State.CoinLaws (State.stepBoundary s) := by
  dsimp only [State.stepBoundary, State.beginStep]
  (repeat' split)
  · simpa [coinLaws_iff] using hs
  · apply coinLaws_congr (s := State.takeCharge _ _ _) (by simp; rfl)
    apply coinLaws_takeCharge
    simpa [coinLaws_iff] using hs
  all_goals exact hs

theorem coinLaws_endSession {p s} (hs : State.CoinLaws s) : State.CoinLaws (State.endSession p s) := by
  dsimp only [State.endSession]
  apply coinLaws_requestRefund
  simpa [coinLaws_iff] using hs

theorem coinLaws_stationInit {s} (hs : State.CoinLaws s) : State.CoinLaws (State.stationInit s).1 := by
  have h : State.CoinLaws (s.resetReport.initSession) := by
    dsimp only [State.initSession]
    (repeat' split)
    · apply coinLaws_congr (by simp; rfl)
      apply coinLaws_endSession
      simpa [coinLaws_iff] using hs
    · apply coinLaws_requestRefund
      simpa [coinLaws_iff] using hs
    all_goals apply coinLaws_endSession; simpa [coinLaws_iff] using hs
  dsimp only [State.stationInit]
  simp [coinLaws_iff] at *
  grind

/-- R192: a start-up's coin path, with the column retained or lost, keeps the laws. -/
theorem coinLaws_restartWith {lost u s} (hs : State.CoinLaws s) : State.CoinLaws (s.restartWith lost u) := by
  simp only [coinLaws_iff, State.restartWith, CoinPath.startUp] at *
  cases lost .escrow <;> simp <;> omega

theorem coinLaws_startUp {r s} (hs : State.CoinLaws s) : State.CoinLaws (State.startUp r s) := by
  have hb : State.CoinLaws s.bankActive := coinLaws_congr (by simp) hs
  have tables : State.CoinLaws (s.startTables r) :=
    coinLaws_congr (s := s.bankActive.restartBlocks r) (by simp [State.startTables]) (coinLaws_restartWith hb)
  unfold State.startUp
  split
  · refine coinLaws_congr (s := State.requestRefund true false _) (by simp [State.fullStart]; rfl) (coinLaws_requestRefund ?_)
    exact coinLaws_congr (by simp) tables
  · exact coinLaws_congr (s := s.bankActive.restartWith _ s.supplies) (by simp [State.cutJudging, State.cutTables]; rfl)
      (coinLaws_restartWith hb)
  · exact coinLaws_congr (by simp [State.cutAfter]) tables

theorem coinLaws_clearCode {c s} (hs : State.CoinLaws s) : State.CoinLaws (State.clearCode c s).1 := by
  dsimp only [State.clearCode, State.judgeClear, State.clearCondition]
  (repeat' split)
  all_goals (try apply coinLaws_requestRefund)
  all_goals simpa [coinLaws_iff] using hs

/-- Every command's work keeps the First Law. -/
theorem coinLaws_work (c : Instr) (s : State) (hs : State.CoinLaws s) : State.CoinLaws (Instr.work c s) := by
  cases c <;> dsimp only [Instr.work]
  case validatorAccepted => exact coinLaws_acceptCoin hs
  case columnEntryPulse => exact coinLaws_columnPulse hs
  case cashboxEntryPulse => exact coinLaws_cashboxPulse hs
  case transitWindowEnd => exact coinLaws_expireTransit hs
  case refundCycleStart => exact coinLaws_startRefund hs
  case collectCycleStart => exact coinLaws_startCollect hs
  case collectGateHome => exact coinLaws_collectHome hs
  case collectWindowTimeout => exact coinLaws_timeOutCollect hs
  case refundGateHome => exact coinLaws_refundHome hs
  case refundWindowTimeout => exact coinLaws_timeOutRefund hs
  case cashboxRemoval => exact coinLaws_removeCashbox hs
  case stepBoundary => exact coinLaws_stepBoundary hs
  case stationInit => exact coinLaws_stationInit hs
  case conditionClear => exact coinLaws_clearCode hs
  case mainSupplyStart => exact coinLaws_startUp hs
  case onHook =>
    dsimp only [State.replaceHandset]
    (repeat' split)
    case _ => exact hs
    case _ => simpa [coinLaws_iff] using hs
    case _ => simpa [coinLaws_iff] using hs
    all_goals apply coinLaws_endSession; simpa [coinLaws_iff] using hs
  case polarityReversal =>
    unfold State.reversePolarity
    (repeat' split)
    case _ => exact coinLaws_lineAnswered hs
    all_goals simpa [coinLaws_iff] using hs
  case presumedDelayEnd =>
    unfold State.endPresumedDelay
    (repeat' split)
    · apply coinLaws_lineAnswered
      simpa [coinLaws_iff] using hs
    · exact hs
  case validatorRejected => simpa [coinLaws_iff, State.rejectCoin] using hs
  case returnCupPulse => simpa [coinLaws_iff, State.cupPulse] using hs
  case returnCupWatchEnd => unfold State.endWatch; split <;> simpa [coinLaws_iff] using hs
  case symbolKeyPress =>
    exact State.pressKey_keeps (fun _ => coinLaws_congr (by simp)) (fun _ => coinLaws_congr (by simp)) hs
  case followOnPress =>
    exact State.pressKey_keeps (fun _ => coinLaws_congr (by simp)) (fun _ => coinLaws_congr (by simp)) hs
  case clockSecond => exact coinLaws_congr (by (repeat' split) <;> simp) hs
  case unknownRequest => exact ite_holds hs (coinLaws_congr (by simp) hs)
  any_goals (refine coinLaws_congr ?_ hs; simp; done)
  all_goals exact hs

end Sys2Proof.Machine
end

