-- ==== Sys2Proof/Laws/Records.lean ====
section
/-! SUPPORT. The condition table as a table by source: what putting one record does to the others, and what the operations
on a record keep of it (its activity, its type). -/

namespace Sys2Proof.Machine

/-! ## Sources -/

/-- A source stands in code order at its own place. -/
theorem Source.all_idx (a : Source) : Source.all[a.idx.val]? = some a := by
  cases a with
  | input i => revert i; decide
  | _ => rfl

/-- Two sources have two places. -/
theorem Source.idx_injective {a b : Source} (h : a.idx = b.idx) : a = b := by
  have ha := Source.all_idx a
  rw [h, Source.all_idx b] at ha
  exact (Option.some.inj ha).symm

/-- Every source is one of the 22. -/
theorem Source.mem_all (a : Source) : a ∈ Source.all := List.mem_of_getElem? (Source.all_idx a)

/-! ## One source's record and normality -/

/-- A record put is the record read back, and no other source's record changes. -/
theorem State.record_putRecord (s : State) (src src' : Source) (r : Option ConditionRecord) :
    (s.putRecord src r).record src' = if src = src' then r else s.record src' := by
  unfold State.putRecord State.record
  simp only [State.setSup_sup, Fin.getElem_fin, Vector.getElem_set]
  by_cases h : src = src'
  · subst h; simp
  · have : ¬ src.idx.val = src'.idx.val := fun hc => h (Source.idx_injective (Fin.ext hc))
    simp [h, this]

/-- Recounting the active seconds changes neither activity nor type. -/
theorem ConditionRecord.recount_same (n : Nat) (b : Bool) (r : ConditionRecord) :
    (r.recount n b).active = r.active ∧ (r.recount n b).type = r.type := by
  unfold ConditionRecord.recount
  (repeat' split) <;> exact ⟨rfl, rfl⟩

/-- R164: an acknowledgement that leaves a record leaves its activity and type. -/
theorem ConditionRecord.acknowledge_some {now : ClockTime} {snap : RecordSnapshot} {r r' : ConditionRecord}
    (h : r.acknowledge now snap = some r') : r'.active = r.active ∧ r'.type = r.type := by
  unfold ConditionRecord.acknowledge at h
  dsimp only at h
  split at h
  · cases h
  · cases h
    refine ⟨?_, rfl⟩
    unfold ConditionRecord.active
    dsimp only
    split
    · rename_i hc
      have := hc.1
      simp at this
      simp [this]
    · rfl

/-- R164: an acknowledgement retires no active record. -/
theorem ConditionRecord.acknowledge_none {now : ClockTime} {snap : RecordSnapshot} {r : ConditionRecord}
    (h : r.acknowledge now snap = none) : r.active = false := by
  unfold ConditionRecord.acknowledge at h
  dsimp only at h
  split at h
  · rename_i hc
    simp [ConditionRecord.active, hc.2.1]
  · cases h

/-- The normality of a source just set. -/
theorem State.normal_setNormality (s : State) (src : Source) (b : Bool) : (s.setNormality src b).normal src = !b := by
  have : (s.setNormality src b).sup.abnormal = s.sup.abnormal.set src.idx b := by
    unfold State.setNormality State.recount
    split <;> rfl
  unfold State.normal
  rw [this]
  simp

/-- A change of normality creates and removes no record. -/
theorem State.record_setNormality (s : State) (src : Source) (b : Bool) (x : Source) :
    ((s.setNormality src b).record x).isSome = (s.record x).isSome := by
  unfold State.setNormality State.recount
  split
  · rfl
  · rename_i h
    rw [State.record_putRecord]
    split
    · rename_i hc
      subst hc
      have : s.record src = _ := h
      rw [this]
      rfl
    · rfl

/-! ## Two states that agree on a source -/

/-- Two states agree on a source: on its record and on its normality. -/
def Same (x : Source) (s t : State) : Prop := t.record x = s.record x ∧ t.normal x = s.normal x

theorem Same.refl {x : Source} {s : State} : Same x s s := ⟨rfl, rfl⟩

theorem Same.trans {x : Source} {s t u : State} (h : Same x s t) (h' : Same x t u) : Same x s u :=
  ⟨h'.1.trans h.1, h'.2.trans h.2⟩

theorem same_tables {x : Source} {s t : State} (h : t.sup.records = s.sup.records) (h' : t.sup.abnormal = s.sup.abnormal) :
    Same x s t := by
  unfold Same State.record State.normal
  rw [h, h']
  exact ⟨rfl, rfl⟩

theorem same_sup {x : Source} {s t : State} (h : t.sup = s.sup) : Same x s t := same_tables (by rw [h]) (by rw [h])

section
variable {x src : Source} {s : State} (h : src ≠ x)
include h

theorem same_putRecord {r : Option ConditionRecord} : Same x s (s.putRecord src r) := by
  refine ⟨?_, rfl⟩
  rw [State.record_putRecord, if_neg h]

theorem same_recount : Same x s (s.recount src) := by
  unfold State.recount
  split
  · exact .refl
  · exact same_putRecord h

theorem same_setNormality {b : Bool} : Same x s (s.setNormality src b) := by
  refine Same.trans (t := s.setSup { s.sup with abnormal := s.sup.abnormal.set src.idx b }) ⟨rfl, ?_⟩ (same_recount h)
  unfold State.normal
  have : ¬ src.idx.val = x.idx.val := fun hc => h (Source.idx_injective (Fin.ext hc))
  simp [this]

end

theorem same_raise {x : Source} {f : AttentionFlag} {s : State} : Same x s (s.raise f) := same_sup (by simp)

theorem same_deriveLevel {x : Source} {s : State} : Same x s s.deriveLevel := by
  unfold State.deriveLevel
  dsimp only
  split
  · exact .refl
  · exact same_tables (by simp) (by simp)

section
variable {x src : Source} {s : State} (h : src ≠ x)
include h

theorem same_retire : Same x s (s.retire src) :=
  ((same_putRecord h).trans same_raise).trans same_deriveLevel

theorem same_retireIfDue : Same x s (s.retireIfDue src) := by
  unfold State.retireIfDue
  (repeat' split) <;> first | exact .refl | exact same_retire h

theorem same_clearRecord : Same x s (s.clearRecord src) := by
  unfold State.clearRecord
  split
  · exact .refl
  · exact (((same_putRecord h).trans same_raise).trans same_deriveLevel).trans (same_retireIfDue h)

theorem same_clearIfNormal : Same x s (s.clearIfNormal src) := by
  unfold State.clearIfNormal
  (repeat' split) <;> first | exact .refl | exact same_clearRecord h

theorem same_recordOccurrence {type : ConditionType} {severity : Severity} :
    Same x s (s.recordOccurrence src type severity) :=
  ((same_putRecord h).trans (same_recount h)).trans same_raise

theorem same_occurrence {type : ConditionType} {severity : Severity} : Same x s (s.occurrence src type severity) :=
  (((same_recordOccurrence h).trans (same_sup (s := s.recordOccurrence src type severity)
    (t := (s.recordOccurrence src type severity).reportTrigger severity) (by simp))).trans same_deriveLevel).trans
    (same_clearIfNormal h)

theorem same_makeNormal : Same x s (s.makeNormal src) := (same_setNormality h).trans (same_clearIfNormal h)

theorem same_becomeAbnormal {type : ConditionType} {severity : Severity} : Same x s (s.becomeAbnormal src type severity) :=
  (same_setNormality h).trans (same_occurrence h)

theorem same_judgeThreshold {type : ConditionType} {severity : Severity} {reached : Bool} :
    Same x s (s.judgeThreshold src type severity reached) := by
  unfold State.judgeThreshold
  (repeat' split)
  · exact same_becomeAbnormal h
  · exact .refl
  · exact .refl
  · exact same_makeNormal h

end

theorem same_setInput {x : Source} {i : Fin 8} {v : SupervisedInput} {s : State} : Same x s (s.setInput i v) :=
  same_tables rfl rfl

end Sys2Proof.Machine
end

