-- ==== Sys2Proof/Laws/Conditions.lean ====
section
/-! SUPPORT. What the commands can do to the condition table. A law over the supervision unit (and over whether a closed
tally is held) that the operations named here keep, every command's work keeps. -/

namespace Sys2Proof.Machine

/-! ## The closed tally is kept held -/

/-- Whether a closed tally is held. -/
def State.tallyHeld (s : State) : Bool := s.comp.closedTally.isSome

theorem tallyHeld_congr {s t : State} (h : t.comp = s.comp) : t.tallyHeld = s.tallyHeld := by
  unfold State.tallyHeld
  rw [h]

@[simp] theorem tallyHeld_setCurrent (s : State) (t : Tally) : (s.setCurrent t).tallyHeld = s.tallyHeld := rfl

@[simp] theorem tallyHeld_addForfeit (s : State) (a : Nat) : (s.addForfeit a).tallyHeld = s.tallyHeld := by
  unfold State.addForfeit
  exact tallyHeld_setCurrent _ _

@[simp] theorem tallyHeld_addBanked (s : State) (a : Nat) : (s.addBanked a).tallyHeld = s.tallyHeld := by
  unfold State.addBanked
  split
  · exact tallyHeld_addForfeit _ _
  · exact tallyHeld_addForfeit _ _
  · exact tallyHeld_addForfeit _ _

@[simp] theorem tallyHeld_writeOffEntry (s : State) (e : OwedEntry) : (s.writeOffEntry e).tallyHeld = s.tallyHeld := rfl

@[simp] theorem tallyHeld_writeOff (s : State) : s.writeOff.tallyHeld = s.tallyHeld :=
  foldl_keeps State.tallyHeld (fun s e => s.writeOffEntry e) (fun _ _ => rfl) _ s

@[simp] theorem tallyHeld_requestCollect (s : State) : s.requestCollect.tallyHeld = s.tallyHeld := by
  unfold State.requestCollect
  (repeat' split) <;> first | rfl | exact tallyHeld_writeOff s

@[simp] theorem tallyHeld_settle (s : State) : s.settle.tallyHeld = s.tallyHeld := by
  unfold State.settle
  dsimp only
  (repeat' split) <;> first | rfl | exact tallyHeld_writeOff _ | exact tallyHeld_requestCollect _

@[simp] theorem tallyHeld_makeRoom (s : State) (c : Nat) : (s.makeRoom c).tallyHeld = s.tallyHeld := by
  unfold State.makeRoom
  (repeat' split) <;> rfl

@[simp] theorem tallyHeld_takeCharge (s : State) (c x : Nat) : (s.takeCharge c x).tallyHeld = s.tallyHeld := by
  unfold State.takeCharge
  dsimp only
  split
  · rfl
  · rw [tallyHeld_settle]
    exact tallyHeld_makeRoom s c

theorem tallyHeld_lookAhead (s : State) : s.lookAhead.tallyHeld = s.tallyHeld := tallyHeld_congr (by simp)

theorem tallyHeld_rateAnswer (s : State) (p : Bool) : (s.rateAnswer p).1.tallyHeld = s.tallyHeld := by
  unfold State.rateAnswer
  dsimp only
  (repeat' split)
  · rfl
  · rw [tallyHeld_lookAhead, tallyHeld_takeCharge, tallyHeld_takeCharge]
    rfl
  · rfl
  · rfl

theorem tallyHeld_sessionAnswered (s : State) (p : Bool) : (s.sessionAnswered p).tallyHeld = s.tallyHeld := by
  have h : ∀ u : State, (u.setSession { s.session with state := .connected }).tallyHeld = u.tallyHeld := fun _ => rfl
  unfold State.sessionAnswered
  dsimp only
  (repeat' split)
  all_goals first
    | rfl
    | (refine (tallyHeld_congr ?_).trans ((tallyHeld_rateAnswer _ p).trans (h s)); simp; done)

theorem tallyHeld_stepBoundary (s : State) : s.stepBoundary.tallyHeld = s.tallyHeld := by
  unfold State.stepBoundary State.beginStep
  dsimp only
  (repeat' split)
  · exact tallyHeld_congr (by simp)
  · rw [tallyHeld_lookAhead, tallyHeld_takeCharge]
    rfl
  all_goals rfl

theorem tallyHeld_closeSessionAccount (s : State) : s.closeSessionAccount.tallyHeld = s.tallyHeld := by
  unfold State.closeSessionAccount
  split <;> rfl

/-! ## The keeper -/

/-- A law over the condition table, the normality of its sources and whether a closed tally is held, which the operations of
the supervision unit keep. -/
structure TableKeeper (P : State → Prop) : Prop where
  congr : ∀ {s t : State}, t.sup = s.sup → t.tallyHeld = s.tallyHeld → P s → P t
  occurrence : ∀ {s : State} {src : Source} {type : ConditionType} {severity : Severity}, src ≠ .collection →
    src.raises type severity = true → P s → P (s.occurrence src type severity)
  setNormality : ∀ {s : State} {src : Source} {b : Bool}, src ≠ .collection → P s → P (s.setNormality src b)
  clearIfNormal : ∀ {s : State} {src : Source}, P s → P (s.clearIfNormal src)
  clearRecord : ∀ {s : State} {src : Source}, s.normal src = true → P s → P (s.clearRecord src)
  retireIfDue : ∀ {s : State} {src : Source}, P s → P (s.retireIfDue src)
  removeSnapshot : ∀ {s : State} {src : Source}, P s → P (s.removeSnapshot src)
  placeSnapshot : ∀ {s : State} {i : IncludedRecord}, P s → P (s.placeSnapshot i)
  ackIncluded : ∀ {s : State} {i : IncludedRecord}, P s → P (s.ackIncluded i)
  releaseClosedTally : ∀ {s : State}, P s → P s.releaseClosedTally
  lateCoin : ∀ {s : State} {t : ClosedTally}, s.comp.closedTally.isSome = true → P s →
    P ((s.setComp { s.comp with closedTally := some t }).occurrence .collection .cashboxCollected .notice)
  closure : ∀ {s : State}, P s →
    P ((s.setComp (s.comp.close s.comp.forcedNow)).becomeAbnormal .collection .cashboxCollected .notice)
  activeEdge : ∀ {s : State} {i : Fin 8}, P s → P (s.activeEdge i)
  inactiveChange : ∀ {s : State} {i : Fin 8}, P s → P (s.inactiveChange i)
  endWindow : ∀ {s : State} {i : Fin 8}, P s → P (s.endWindow i)
  endHoldOff : ∀ {s : State} {i : Fin 8}, P s → P (s.endHoldOff i)
  endClearDelay : ∀ {s : State} {i : Fin 8}, P s → P (s.endClearDelay i)
  applyAssignment : ∀ {s : State} {i : Fin 8} {a : Assignment} {b : Bool}, P s → P (s.applyAssignment i a b).1
  bankActive : ∀ {s : State}, P s → P s.bankActive
  startUp : ∀ {s : State} {r : StartReadings}, P s → P (s.startUp r)

namespace TableKeeper

variable {P : State → Prop} (K : TableKeeper P) {s : State}
include K

/-- A law kept where the supervision unit and the compartment stand as they were. -/
theorem same {t : State} (h : t.sup = s.sup ∧ t.comp = s.comp) (hs : P s) : P t := K.congr h.1 (tallyHeld_congr h.2) hs

theorem makeNormal {src : Source} (h : src ≠ .collection) (hs : P s) : P (s.makeNormal src) :=
  K.clearIfNormal (K.setNormality h hs)

theorem becomeAbnormal {src : Source} {type : ConditionType} {severity : Severity} (h : src ≠ .collection)
    (hr : src.raises type severity = true) (hs : P s) : P (s.becomeAbnormal src type severity) :=
  K.occurrence h hr (K.setNormality h hs)

theorem judgeThreshold {src : Source} {type : ConditionType} {severity : Severity} {reached : Bool}
    (h : src ≠ .collection) (hr : src.raises type severity = true) (hs : P s) :
    P (s.judgeThreshold src type severity reached) := by
  unfold State.judgeThreshold
  (repeat' split)
  · exact K.becomeAbnormal h hr hs
  · exact hs
  · exact hs
  · exact K.makeNormal h hs

theorem judgeThresholds (hs : P s) : P s.judgeThresholds :=
  K.judgeThreshold (by simp) rfl (K.judgeThreshold (by simp) rfl hs)

theorem countUnconfirmed (hs : P s) : P s.countUnconfirmed := by
  unfold State.countUnconfirmed
  split
  · exact K.same (by simp) hs
  · exact K.occurrence (by simp) rfl (K.same (by simp) hs)

theorem writeOff (hs : P s) : P s.writeOff := K.congr (by simp) (by simp) hs

theorem settle (hs : P s) : P s.settle := K.congr (by simp) (by simp) hs

theorem countCollected {generation : Nat} {c : HeldCoin} (hs : P s) : P (s.countCollected generation c) := by
  unfold State.countCollected
  (repeat' split)
  · exact K.judgeThresholds (K.congr (by simp) (by simp) hs)
  · exact K.judgeThresholds (K.congr (by simp) (by simp) hs)
  · rename_i h
    exact K.lateCoin (by rw [h]; rfl) hs

theorem completeCollect {generation : Nat} (hs : P s) : P (s.completeCollect generation) := by
  unfold State.completeCollect
  dsimp only
  split
  · exact K.settle (K.same (by simp) hs)
  · rename_i c rest _
    have k : P ((s.setCoin { s.coin with cycle := .idle, column := rest }).countCollected generation c) :=
      K.countCollected (K.same (by simp) hs)
    split
    · exact K.settle (K.congr (by simp) (by simp) k)
    · exact K.settle k

theorem cashboxArrival (hs : P s) : P s.cashboxArrival := by
  unfold State.cashboxArrival
  dsimp only
  split
  · rename_i e rest _
    have k : P (((s.setCoin { s.coin with transit := rest }).addBanked e.value).settle) :=
      K.settle (K.congr (by simp) (by simp; rfl) hs)
    generalize ((s.setCoin { s.coin with transit := rest }).addBanked e.value).settle = u at k ⊢
    have k' : P (u.countOverflow e.cls e.value) := by
      refine K.judgeThresholds (s := u.setCurrent _) (K.congr (s := u) ?_ ?_ k)
      · rfl
      · rfl
    exact K.same (by simp) k'
  · exact K.judgeThresholds (K.congr (by simp) (by simp) hs)

theorem resolveWithheld {generation : Nat} (hs : P s) : P (s.resolveWithheld generation) := by
  unfold State.resolveWithheld
  (repeat' split)
  · exact hs
  · rename_i h _ _
    exact K.congr (by simp) (by unfold State.tallyHeld; simp [h]) hs
  · exact K.releaseClosedTally hs
  · exact hs

theorem closeTally (hs : P s) : P s.closeTally := by
  unfold State.closeTally
  dsimp only
  have k := K.closure hs
  apply K.judgeThresholds
  split
  · exact K.same (by simp) (K.occurrence (src := .compartment) (type := .compartmentForced) (severity := .alarm) (by simp) rfl k)
  · exact K.same (by simp) k

theorem removeSnapshots (hs : P s) : P s.removeSnapshots :=
  foldl_holds (f := fun s src => s.removeSnapshot src) (fun _ _ => K.removeSnapshot) Source.all hs

theorem reportFail {b : Bool} (hs : P s) : P (s.reportFail b) := by
  have k := K.removeSnapshots hs
  have h : ∀ r, P (s.removeSnapshots.setReport r) := fun r => K.same (by simp) k
  unfold State.reportFail
  dsimp only
  split
  · exact K.same (by simp) (h { s.removeSnapshots.report with
      attempts := min 5 (s.removeSnapshots.report.attempts + 1), snapshot := none, repeated := false, replyEnds := none,
      outcome := some .failed })
  · exact K.same (by simp) (h { s.removeSnapshots.report with
      attempts := min 5 (s.removeSnapshots.report.attempts + 1), snapshot := none, repeated := false, replyEnds := none,
      outcome := some .failed })

theorem reportPreempted (hs : P s) : P s.reportPreempted := by
  have k := K.removeSnapshots hs
  unfold State.reportPreempted
  dsimp only
  exact K.same (by simp) k

theorem enterWaitLine (hs : P s) : P s.enterWaitLine := by
  unfold State.enterWaitLine
  dsimp only
  split
  · exact K.same (by simp) hs
  · exact K.reportFail (K.same (by simp) hs)

theorem beginAttempt (hs : P s) : P s.beginAttempt :=
  ite_holds (K.reportFail (K.same (by simp) hs)) (K.enterWaitLine hs)

theorem retryExpired (hs : P s) : P s.retryExpired := ite_holds (K.beginAttempt hs) (K.same (by simp) hs)

theorem reportAnswered (hs : P s) : P s.reportAnswered := by
  unfold State.reportAnswered
  dsimp only
  split
  · have k : P (s.reportSnapshot.records.foldl (fun s i => s.placeSnapshot i) s) :=
      foldl_holds (f := fun s i => s.placeSnapshot i) (fun _ _ => K.placeSnapshot) s.reportSnapshot.records hs
    generalize s.reportSnapshot.records.foldl (fun s i => s.placeSnapshot i) s = u at k
    split
    · have k2 : P u.clearChangedMark := K.congr (by simp) (by simp [State.tallyHeld, State.clearChangedMark]) k
      exact K.same (by simp) k2
    · exact K.same (by simp) k
  · exact hs

theorem applyAck (hs : P s) : P s.applyAck := by
  unfold State.applyAck
  dsimp only
  split
  · exact hs
  · rename_i snap _
    have k : P (snap.records.foldl (fun s i => s.ackIncluded i) s) :=
      foldl_holds (f := fun s i => s.ackIncluded i) (fun _ _ => K.ackIncluded) snap.records hs
    generalize snap.records.foldl (fun s i => s.ackIncluded i) s = u at k
    exact K.same (by simp) k

theorem resetReport (hs : P s) : P s.resetReport := by
  have k : P (((s.askRelease .report).withdrawRequest .report).removeSnapshots) := K.removeSnapshots (K.same (by simp) hs)
  unfold State.resetReport
  dsimp only
  split
  · exact K.same (by simp) k
  · exact K.same (by simp) k

theorem departIdle (hs : P s) : P s.departIdle := by
  have k : ∀ l, P ((s.setLine l).reportPreempted) := fun l => K.reportPreempted (K.same (by simp) hs)
  unfold State.departIdle
  dsimp only
  refine K.same (State.setReport_sup _ _ |> fun h => ⟨h, State.setReport_comp _ _⟩) ?_
  (repeat' split)
  · exact k _
  · exact K.same (by simp) hs
  · exact hs

theorem openSession (hs : P s) : P s.openSession := by
  unfold State.openSession
  dsimp only
  have k : ∀ x, P ((s.openAccount.enterDialWait.setSession x).departIdle) := fun x => K.departIdle (K.same (by simp) hs)
  exact K.same (by simp) (k { s.openAccount.enterDialWait.session with decision := none, threshold := none })

theorem lineEnds {cause : EndCause} (hs : P s) : P (s.lineEnds cause) := by
  unfold State.lineEnds State.reportLineEnded
  dsimp only
  (repeat' split)
  · exact K.same (by simp) hs
  · exact K.same (by simp) hs
  · exact K.same (by simp) hs
  · exact K.reportFail (K.same (by simp) hs)
  · exact K.same (by simp) hs

theorem lineAnswered {presumed : Bool} (hs : P s) : P (s.lineAnswered presumed) := by
  unfold State.lineAnswered
  dsimp only
  (repeat' split)
  · exact K.same (by simp) hs
  · exact K.congr (s := s) (by simp) ((tallyHeld_sessionAnswered _ _).trans rfl) hs
  · exact K.reportAnswered (K.same (by simp) hs)

theorem failDialTone (hs : P s) : P s.failDialTone := by
  unfold State.failDialTone State.countDialToneFailure
  dsimp only
  have k : P ((s.reach s.line.deadline).lineEnds .dialToneFailure) := K.lineEnds (K.same (by simp) hs)
  generalize (s.reach s.line.deadline).lineEnds .dialToneFailure = u at k
  split
  · exact K.becomeAbnormal (by simp) rfl (K.same (by simp) k)
  · exact K.same (by simp) k

theorem setEnable {src : Source} {on : Bool} (hs : P s) : P (s.setEnable src on) := by
  unfold State.setEnable
  dsimp only
  (repeat' split)
  · exact K.same (by simp) hs
  · exact K.same (by simp) hs
  · exact K.same (by simp) hs
  · exact K.retireIfDue (K.same (by simp) hs)

theorem setSetting {body : List Byte} (hs : P s) : P (s.setSetting body).1 := by
  have set : ∀ st : Settings, P (s.setSettings st) := fun st => K.same (by simp) hs
  unfold State.setSetting
  split
  case h_8 =>
    unfold State.setThresholds
    split
    · exact K.judgeThresholds (set _)
    · exact hs
  case h_10 =>
    unfold State.setReportEnable
    split
    · exact K.setEnable hs
    · exact hs
  case h_11 =>
    unfold State.setAssignment
    (repeat' split)
    · exact K.applyAssignment hs
    · exact hs
    · exact hs
  case h_1 => exact K.same (by simp) hs
  case h_2 => exact K.same (by simp) hs
  case h_5 => exact set _
  case h_6 => exact set _
  case h_12 => exact hs
  all_goals split
  all_goals first | exact hs | exact set _

theorem clearCode {code : Nat} (hs : P s) : P (s.clearCode code).1 := by
  unfold State.clearCode State.judgeClear State.clearCondition
  dsimp only
  (repeat' split)
  any_goals exact hs
  · rename_i src _ _ _ _ _ _ hn _
    exact K.same (by simp) (K.clearRecord (src := src) hn hs)
  · rename_i hn _
    exact K.clearRecord hn hs

theorem readDoor {reading : DoorReading} (hs : P s) : P (s.readDoor reading) := by
  have k : P (s.setComp { s.comp with door := reading }) := K.congr (s := s) (by simp) rfl hs
  unfold State.readDoor
  dsimp only
  (repeat' split)
  · exact hs
  · exact K.makeNormal (by simp) k
  · exact K.occurrence (by simp) rfl (K.setNormality (by simp) k)
  · exact K.setNormality (by simp) k

theorem clockTick (hs : P s) : P s.clockTick := by
  unfold State.clockTick
  dsimp only
  have k : P (if s.advanceClock.clock.time.second = 0 then s.advanceClock.minuteEvent else s.advanceClock) :=
    ite_holds (K.same (by simp) hs) (K.same (by simp) hs)
  exact ite_holds (K.becomeAbnormal (by simp) rfl k) k

/-- A law over the condition table that its keeper's operations keep, every command's work keeps. -/
theorem work (c : Instr) (s : State) (hs : P s) : P (Instr.work c s) := by
  cases c <;> dsimp only [Instr.work]
  case validatorAccepted => exact ite_holds (K.same (by simp) hs) (K.countUnconfirmed hs)
  case columnEntryPulse =>
    unfold State.columnPulse State.enterColumn
    (repeat' split)
    · exact K.same (by simp) hs
    · exact K.same (by simp) hs
    · exact K.same (by simp) hs
    · exact K.countUnconfirmed hs
  case cashboxEntryPulse =>
    unfold State.cashboxPulse
    split
    · exact K.same (by simp) hs
    · exact K.completeCollect hs
    all_goals exact K.cashboxArrival hs
  case transitWindowEnd =>
    unfold State.expireTransit
    split
    · exact hs
    · exact K.countUnconfirmed (K.same (by simp) hs)
  case collectGateHome =>
    unfold State.collectHome
    dsimp only
    have k : P (s.makeNormal .collectGate) := K.makeNormal (by simp) hs
    split
    · exact K.completeCollect k
    · exact K.same (by simp) k
    all_goals exact k
  case collectWindowTimeout =>
    unfold State.timeOutCollect
    dsimp only
    split
    · rename_i g e _ _ _
      have k : P ((s.reach e).occurrence .collectGate .gateJam .fault).writeOff :=
        K.writeOff (K.occurrence (by simp) rfl (K.same (by simp) hs))
      exact K.resolveWithheld (K.same (by simp) k)
    all_goals exact hs
  case refundGateHome =>
    unfold State.refundHome
    dsimp only
    have k : P (s.makeNormal .refundGate) := K.makeNormal (by simp) hs
    split
    · exact ite_holds (K.congr (by simp) (by simp; rfl) k) (K.same (by simp) k)
    all_goals exact k
  case refundWindowTimeout =>
    unfold State.timeOutRefund
    dsimp only
    split
    · rename_i e _ _ _
      have k : P ((s.reach e).occurrence .refundGate .gateJam .fault) := K.occurrence (by simp) rfl (K.same (by simp) hs)
      exact K.same (by simp) k
    all_goals exact hs
  case returnCupWatchEnd =>
    unfold State.endWatch
    split
    · exact hs
    · exact K.occurrence (by simp) rfl (K.same (by simp) hs)
  case slotObstructed10s => exact ite_holds (K.becomeAbnormal (by simp) rfl hs) hs
  case slotClear5s => exact K.makeNormal (by simp) hs
  case sessionEndClose => exact K.congr (by simp) (tallyHeld_closeSessionAccount s) hs
  case doorReading => exact K.readDoor hs
  case keyReading => exact K.congr (s := s) (by simp) rfl hs
  case cashboxRemoval =>
    unfold State.removeCashbox State.dropHeldCollect
    have k : P (s.setComp { s.comp with presence := .absent }).closeTally := K.closeTally (K.congr (s := s) (by simp) rfl hs)
    refine ite_holds ?_ hs
    exact ite_holds (K.writeOff (K.same (by simp) k)) k
  case cashboxInsertion => exact K.congr (s := s) (by simp) rfl hs
  case tallyRelease =>
    unfold State.releaseTally
    (repeat' split)
    any_goals exact hs
    exact K.releaseClosedTally hs
  case clockSecond => exact ite_holds (K.clockTick hs) (ite_holds hs (K.same (by simp) hs))
  case clockSet p g b =>
    unfold State.setTime
    dsimp only
    split
    · have k : ∀ c, P ((s.setClock c).makeNormal .clock).evaluateTable := fun c =>
        K.same (by simp) (K.makeNormal (src := .clock) (s := s.setClock c) (by simp) (K.same (by simp) hs))
      exact K.same (by simp) (k { s.clock with
        time := clockTimeAt b 0, weekday := (clockTimeAt b 0).date.weekday, unset := false,
        nextSecond := s.now + Config.secondMs })
    · exact hs
  case stepBoundary => exact K.congr (by simp) (tallyHeld_stepBoundary s) hs
  case seizureTimeout => exact ite_holds (K.failDialTone hs) hs
  case dialToneTimeout => exact ite_holds (K.failDialTone hs) hs
  case dialToneClassified =>
    unfold State.hearDialTone
    dsimp only
    have k : P ((s.setLine { s.line with streak := 0 }).makeNormal .dialtone) := K.makeNormal (by simp) (K.same (by simp) hs)
    exact ite_holds (K.same (by simp) k) hs
  case busyClassified =>
    unfold State.hearBusy
    split
    · exact K.lineEnds hs
    · exact K.lineEnds hs
    · exact ite_holds (K.lineEnds hs) hs
    all_goals exact hs
  case polarityReversal =>
    unfold State.reversePolarity
    (repeat' split)
    · exact K.lineAnswered hs
    · exact K.lineEnds hs
    all_goals exact hs
  case presumedDelayEnd =>
    unfold State.endPresumedDelay
    split
    · exact K.lineAnswered (K.same (by simp) hs)
    · exact hs
  case answerWaitEnd =>
    unfold State.endAnswerWait
    split
    · exact K.lineEnds (K.same (by simp) hs)
    · exact hs
  case acknowledgeClassified => exact ite_holds (K.applyAck hs) hs
  case refuseClassified => exact ite_holds (ite_holds (K.reportFail hs) (K.same (by simp) hs)) hs
  case loopCurrentLoss =>
    unfold State.loseLine
    (repeat' split) <;> first | exact hs | exact K.lineEnds hs
  case lineAbsent5s => exact ite_holds (K.becomeAbnormal (by simp) rfl hs) hs
  case linePresent10s =>
    have k : P (s.makeNormal .line) := K.makeNormal (by simp) hs
    exact ite_holds (K.beginAttempt k) k
  case offHook =>
    unfold State.liftHandset
    dsimp only
    (repeat' split)
    · exact hs
    · exact K.openSession (K.same (by simp) hs)
    · exact K.same (by simp) hs
  case clearingEnd =>
    unfold State.endClearing
    dsimp only
    (repeat' split)
    · exact K.openSession (K.same (by simp) hs)
    · exact K.same (by simp) hs
    · exact hs
  case symbolKeyPress => exact State.pressKey_keeps (fun _ => K.same (by simp)) (fun _ => K.same (by simp)) hs
  case followOnPress => exact State.pressKey_keeps (fun _ => K.same (by simp)) (fun _ => K.same (by simp)) hs
  case keyStuck key =>
    unfold State.stickKey
    dsimp only
    (repeat' split)
    · exact K.becomeAbnormal (by simp) rfl (K.same (by simp) hs)
    · exact K.same (by simp) hs
    · exact hs
    · exact hs
  case keyRelease key =>
    have k : P (s.setKey key .released) := K.same (by simp) hs
    exact ite_holds k (K.makeNormal (by simp) k)
  case inputActiveEdge => exact K.activeEdge hs
  case inputInactiveChange => exact K.inactiveChange hs
  case countWindowEnd => exact K.endWindow hs
  case holdOffEnd => exact K.endHoldOff hs
  case clearDelayEnd => exact K.endClearDelay hs
  case conditionClear => exact K.clearCode hs
  case retryTimerExpiry =>
    unfold State.expireRetry
    split
    · exact K.retryExpired (K.same (by simp) hs)
    · exact hs
  case replyWaitEnd =>
    unfold State.endReplyWait
    split
    · exact K.reportFail (K.same (by simp) hs)
    · exact hs
  case settingSet => exact K.setSetting hs
  case stationInit =>
    unfold State.stationInit
    dsimp only
    have k : P s.resetReport.initSession := by
      have k := K.resetReport hs
      generalize s.resetReport = u at k
      unfold State.initSession
      split
      · exact K.departIdle (K.same (by simp) k)
      all_goals exact K.same (by simp) k
    exact K.same (by simp) k
  case mainSupplyStart => exact K.startUp hs
  case mainSupplyLoss =>
    unfold State.loseMain
    split
    · exact K.same (by simp) (K.bankActive hs)
    · exact hs
  case gateLeavesHome gate => cases gate <;> exact K.setNormality (by simp [gateSource]) hs
  case unknownRequest => exact ite_holds hs (K.same (by simp) hs)
  any_goals (refine K.same ?_ hs; simp; done)
  all_goals exact hs

end TableKeeper

end Sys2Proof.Machine
end

