-- ==== Sys2Proof/Laws/Collection.lean ====
section
/-! SUPPORT. R51: COLLECTION goes with the closed tally. Every operation that touches either keeps the two together. -/

namespace Sys2Proof.Machine

theorem collectionLaw_of {s t : State} (h : Same .collection s t)
    (h' : t.comp.closedTally.isSome = s.comp.closedTally.isSome) (hs : State.CollectionLaw s) :
    State.CollectionLaw t := by
  unfold State.CollectionLaw at *
  rw [h.1, h.2, h']
  exact hs

theorem collectionLaw_of_sup {s t : State} (h : t.sup = s.sup)
    (h' : t.comp.closedTally.isSome = s.comp.closedTally.isSome) (hs : State.CollectionLaw s) :
    State.CollectionLaw t := collectionLaw_of (same_sup h) h' hs

theorem collectionLaw_other {s t : State} (h : Same .collection s t) (h' : t.comp = s.comp)
    (hs : State.CollectionLaw s) :
    State.CollectionLaw t := collectionLaw_of h (by rw [h']) hs

theorem collectionLaw_retireIfDue {s : State} {src} (hs : State.CollectionLaw s) :
    State.CollectionLaw (s.retireIfDue src) := by
  by_cases h : src = .collection
  · subst h
    unfold State.retireIfDue; (repeat' split)
    · exact hs
    · rename_i hr hc
      have := hs.2.2 _ hr
      simp [ConditionRecord.active, hc.1] at this
    · exact hs
  · exact collectionLaw_other (same_retireIfDue h) (by simp) hs

theorem collectionLaw_clearIfNormal {s : State} {src} (hs : State.CollectionLaw s) :
    State.CollectionLaw (s.clearIfNormal src) := by
  by_cases h : src = .collection
  · subst h
    unfold State.clearIfNormal; (repeat' split)
    · exact hs
    · rename_i hr hc
      have := hs.1
      have h2 := hs.2.1
      simp_all
    · exact hs
  · exact collectionLaw_other (same_clearIfNormal h) (by simp) hs

theorem collectionLaw_recount {s : State} {src} (hs : State.CollectionLaw s) :
    State.CollectionLaw (s.recount src) := by
  by_cases h : src = .collection
  · subst h
    unfold State.recount
    split
    · exact hs
    · rename_i r hr
      refine ⟨?_, hs.2.1, ?_⟩
      · rw [State.record_putRecord]
        have := hs.1
        simpa [hr] using this
      · intro r' hr'
        rw [State.record_putRecord] at hr'
        simp at hr'
        subst hr'
        have := hs.2.2 _ hr
        unfold ConditionRecord.recount; (repeat' split) <;> exact this
  · exact collectionLaw_other (same_recount h) (by simp) hs

theorem collectionLaw_deriveLevel {s : State} (hs : State.CollectionLaw s) :
    State.CollectionLaw s.deriveLevel := collectionLaw_other same_deriveLevel (by simp) hs

theorem same_inputOccurs {x : Source} {i : Fin 8} {s : State} (h : .input i ≠ x) : Same x s (s.inputOccurs i) := by
  have k : ∀ u a b, Same x s u → Same x s (u.becomeAbnormal (.input i) a b) := fun u a b hu => hu.trans
      (same_becomeAbnormal h)
  unfold State.inputOccurs
  exact k _ _ _ same_setInput

theorem same_countEdge {x : Source} {i : Fin 8} {s : State} (h : .input i ≠ x) : Same x s (s.countEdge i) := by
  unfold State.countEdge
  exact ite_holds (P := Same x s) (same_inputOccurs h) same_setInput

theorem same_takeEdge {x : Source} {i : Fin 8} {s : State} (h : .input i ≠ x) : Same x s (s.takeEdge i) := by
  unfold State.takeEdge
  split
  · exact same_inputOccurs h
  · split
    · exact same_inputOccurs h
    · exact Same.refl
  · exact same_countEdge h

theorem same_unuseInput {x : Source} {i : Fin 8} {a : Assignment} {s : State} (h : .input i ≠ x) :
    Same x s (s.unuseInput i a) := by
  have k : ∀ u b, Same x s u → Same x s (u.setNormality (.input i) b) := fun u b hu => hu.trans (same_setNormality h)
  unfold State.unuseInput
  dsimp only
  split
  · exact (k _ _ same_setInput).trans (same_clearRecord h)
  · exact k _ _ same_setInput

theorem collectionLaw_takeStaged {s : State} {i : Fin 8} (hs : s.CollectionLaw) : (s.takeStaged i).CollectionLaw := by
  unfold State.takeStaged State.assignInput
  (repeat' split)
  · exact collectionLaw_deriveLevel (collectionLaw_other same_setInput (by simp) hs)
  · exact hs
  · exact hs

theorem collectionLaw_recordOccurrence {s : State} {a b} (h : s.comp.closedTally.isSome)
    (hn : s.normal .collection = false) :
    State.CollectionLaw (s.recordOccurrence .collection a b) := by
  unfold State.recordOccurrence
  dsimp only
  refine collectionLaw_of_sup (by simp <;> rfl) (by simp) (collectionLaw_recount (src := .collection) ?_)
  refine ⟨?_, ?_, ?_⟩
  · rw [State.record_putRecord]
    simpa using h
  · simp only [State.putRecord_frame, h]
    exact hn
  · intro r hr
    rw [State.record_putRecord] at hr
    simp at hr
    subst hr
    split <;> rfl

theorem collectionLaw_occurrence {s : State} {a b} (h : s.comp.closedTally.isSome)
    (hn : s.normal .collection = false) :
    State.CollectionLaw (s.occurrence .collection a b) :=
  collectionLaw_clearIfNormal
      (collectionLaw_deriveLevel
      (collectionLaw_of_sup (by simp <;> rfl) (by simp) (collectionLaw_recordOccurrence h hn)))

theorem collectionLaw_occurrenceOther {s : State} {src a b} (h : src ≠ .collection) (hs : State.CollectionLaw s) :
    State.CollectionLaw (s.occurrence src a b) := collectionLaw_other (same_occurrence h) (by simp) hs

theorem collectionLaw_judgeThresholds {s : State} (hs : State.CollectionLaw s) :
    State.CollectionLaw s.judgeThresholds :=
  collectionLaw_other (Same.trans (same_judgeThreshold (by simp)) (same_judgeThreshold (by simp))) (by simp) hs

theorem record_setNormality_none {s : State} {src b x} (h : s.record x = none) :
    ((s.setNormality src b).record x) = none := by
  have := s.record_setNormality src b x
  rw [h] at this
  simpa using this

theorem collectionLaw_release {s : State} : State.CollectionLaw s.releaseClosedTally := by
  unfold State.releaseClosedTally
  have h1 : ((s.setComp { s.comp with closedTally := none }).retire .collection).record .collection = none := by
    have := (same_deriveLevel (x := .collection)
        (s := ((s.setComp { s.comp with closedTally := none }).putRecord .collection none).raise .conditionChanged)).1
    unfold State.retire
    rw [this]
    rw [show ∀ a (s : State), (s.raise a).record .collection = s.record .collection from fun _ _ => rfl]
    rw [State.record_putRecord]
    simp
  refine ⟨?_, ?_, ?_⟩
  · rw [State.record_setNormality, h1]
    simp
  · rw [State.normal_setNormality]
    simp
  · rw [record_setNormality_none h1]
    simp

theorem collectionLaw_putCollection {s : State} {r r'} (h : s.record .collection = some r)
    (ha : r'.active = r.active) (hs : State.CollectionLaw s) :
    State.CollectionLaw (s.putRecord .collection (some r')) := by
  refine ⟨?_, hs.2.1, ?_⟩
  · rw [State.record_putRecord]
    have := hs.1
    simpa [h] using this
  · intro x hx
    rw [State.record_putRecord] at hx
    simp at hx
    subst hx
    rw [ha]
    exact hs.2.2 _ h

theorem collectionLaw_putSame {s : State} {src r r'} (h : s.record src = some r) (ha : r'.active = r.active)
    (hs : State.CollectionLaw s) :
    State.CollectionLaw (s.putRecord src (some r')) := by
  by_cases hc : src = .collection
  · subst hc
    exact collectionLaw_putCollection h ha hs
  · exact collectionLaw_other (same_putRecord hc) (by simp) hs

theorem collectionLaw_removeSnapshot {s : State} {src} (hs : State.CollectionLaw s) :
    State.CollectionLaw (s.removeSnapshot src) := by
  unfold State.removeSnapshot; (repeat' split)
  · exact hs
  · exact hs
  · rename_i h _ _ _
    exact collectionLaw_retireIfDue (collectionLaw_putSame h rfl hs)

theorem collectionLaw_placeSnapshot {s : State} {src} (hs : State.CollectionLaw s) :
    State.CollectionLaw (s.placeSnapshot src) := by
  unfold State.placeSnapshot; (repeat' split)
  · exact hs
  · rename_i h
    exact (collectionLaw_putSame h rfl hs)

theorem collectionLaw_ackRecord {s : State} {src} (hs : State.CollectionLaw s) :
    State.CollectionLaw (s.ackRecord src) := by
  unfold State.ackRecord
  cases h : s.record src with
  | none => exact hs
  | some r =>
    cases h1 : r.snapshot with
    | none => simpa [h1] using hs
    | some snap =>
      simp only [h1]
      cases h2 : r.acknowledge s.clock.time snap with
      | none =>
        dsimp only
        by_cases hc : src = .collection
        · subst hc; have := hs.2.2 _ h; rw [ConditionRecord.acknowledge_none h2] at this; cases this
        · exact collectionLaw_other (same_retire hc) (by simp) hs
      | some r' =>
        have hp := collectionLaw_putSame h ((ConditionRecord.acknowledge_some h2).1) hs
        dsimp only
        apply collectionLaw_retireIfDue
        split
        · exact hp
        · exact collectionLaw_of_sup (by simp) (by simp) hp

theorem collectionLaw_ackCollection {s : State} (hs : State.CollectionLaw s) :
    State.CollectionLaw s.ackCollection := by
  unfold State.ackCollection
  cases h : s.record .collection with
  | none => exact hs
  | some r =>
    dsimp only
    (repeat' split)
    · rename_i h1 _ _
      exact collectionLaw_ackRecord (collectionLaw_of_sup (by simp) (by simp [h1]) hs)
    · exact collectionLaw_release
    · exact collectionLaw_putSame h rfl hs
    · exact collectionLaw_of_sup (s := s.putRecord .collection (some (r.keepOutstanding s.clock.time _)))
          (by simp; rfl) (by simp) (collectionLaw_putSame h rfl hs)
    · exact collectionLaw_ackRecord hs

theorem collectionLaw_closeTally {s : State} : State.CollectionLaw (s.closeTally) := by
  have h1 : State.CollectionLaw
      ((s.setComp (s.comp.close s.comp.forcedNow)).becomeAbnormal .collection .cashboxCollected .notice) :=
    collectionLaw_occurrence (by simp [State.makeAbnormal, Compartment.close]) (State.normal_setNormality _ _ _)
  have h2 := ite_holds (P := State.CollectionLaw) (c := s.comp.forcedNow = true)
      (collectionLaw_occurrenceOther (src := .compartment) (a := .compartmentForced) (b := .alarm) (by simp) h1) h1
  unfold State.closeTally
  dsimp only
  apply collectionLaw_judgeThresholds
  exact collectionLaw_of_sup (State.raise_frame _ _).2.2.2.2.2.2.2.2.2.2.2.1 (by simp) h2

theorem collectionLaw_countCollected {s : State} {a b} (hs : State.CollectionLaw s) :
    State.CollectionLaw (s.countCollected a b) := by
  unfold State.countCollected; (repeat' split)
  · exact collectionLaw_judgeThresholds (collectionLaw_of_sup (by simp) rfl hs)
  · exact collectionLaw_judgeThresholds (collectionLaw_of_sup (by simp) rfl hs)
  · rename_i h
    exact collectionLaw_occurrence (by simp) (by have := hs.2.1; rw [h] at this; exact this)

theorem collectionLaw_resolveWithheld {s : State} {a} (hs : State.CollectionLaw s) :
    State.CollectionLaw (s.resolveWithheld a) := by
  unfold State.resolveWithheld; (repeat' split)
  · exact hs
  · rename_i h _ _
    exact collectionLaw_of_sup (by simp) (by simp [h]) hs
  · exact collectionLaw_release
  · exact hs

theorem collectionLaw_startClosure {s : State} : State.CollectionLaw (s.startClosure) := by
  have h1 : State.CollectionLaw
      (((s.setComp (s.comp.close s.comp.forcedNow)).setNormality .collection true).recordOccurrence .collection
      .cashboxCollected .notice) :=
    collectionLaw_recordOccurrence (by simp [Compartment.close]) (State.normal_setNormality _ _ _)
  have h2 := ite_holds (P := State.CollectionLaw) (c := s.comp.forcedNow = true)
      (collectionLaw_other (same_recordOccurrence (src := .compartment) (type := .compartmentForced)
      (severity := .alarm) (by simp)) (by simp) h1) h1
  unfold State.startClosure
  dsimp only
  exact collectionLaw_of_sup (State.raise_frame _ _).2.2.2.2.2.2.2.2.2.2.2.1 (by simp) h2

theorem same_startThreshold {x src a b c} {s : State} (h : src ≠ x) : Same x s (s.startThreshold src a b c) := by
  unfold State.startThreshold; dsimp only; (repeat' split)
  · exact same_setNormality h
  · exact (same_setNormality h).trans (same_recordOccurrence h)
  · exact Same.refl

theorem collectionLaw_takeReadings {s : State} {r} (hs : State.CollectionLaw s) :
    State.CollectionLaw (s.takeReadings r) :=
  ite_holds (P := State.CollectionLaw) collectionLaw_startClosure
    (collectionLaw_other (same_setNormality (by simp)) (by simp) (collectionLaw_of_sup
      (t := s.setComp { s.comp with door := r.door, key := r.key, presence := r.presence }) (by simp) (by simp) hs))

theorem collectionLaw_settleRecord {s : State} {src} (hs : State.CollectionLaw s) :
    State.CollectionLaw (s.settleRecord src) := collectionLaw_retireIfDue
    (collectionLaw_clearIfNormal (collectionLaw_removeSnapshot hs))

/-- R192: every change of a start-up keeps the law of the COLLECTION record. -/
theorem collectionLaw_startChanges {r lost} {changes : List (State → State)} {s : State}
    (hc : ∀ f ∈ changes, f ∈ State.startChanges r lost) (hs : State.CollectionLaw s) :
    State.CollectionLaw (s.makeChanges changes) :=
  State.startChanges_law (P := State.CollectionLaw) (fun _ => collectionLaw_takeReadings)
    (fun _ h => ite_holds (P := State.CollectionLaw) (collectionLaw_other (same_recordOccurrence (by simp)) (by simp) h) h)
    (fun _ => collectionLaw_other (same_startThreshold (by simp)) (by simp))
    (fun _ => collectionLaw_other (same_startThreshold (by simp)) (by simp))
    (fun _ => collectionLaw_other (same_tables (by rfl) (by rfl)) (by rfl)) (fun _ _ => collectionLaw_settleRecord)
    (fun _ => collectionLaw_other ((same_recordOccurrence (by simp)).trans (same_clearIfNormal (by simp))) (by simp))
    (fun _ h => ite_holds (P := State.CollectionLaw) (collectionLaw_other (same_recordOccurrence (by simp)) (by simp) h) h)
    (fun _ => collectionLaw_other (same_tables (by rfl) (by rfl)) (by rfl))
    (fun _ => collectionLaw_of_sup (by simp) (by rfl)) (fun _ => collectionLaw_of_sup (by simp) (by simp)) lost hc s hs

theorem takeNormality_other (l : List Source) (x : Source) (hx : x ∉ l) (f : State → Source → Bool) {s : State} :
   (l.foldl (fun s src => s.setNormality src (f s src)) s).normal x = s.normal x := by
  induction l generalizing s with
  | nil => rfl
  | cons b r ih =>
    simp only [List.mem_cons, not_or] at hx
    simp only [List.foldl_cons]
    rw [ih hx.2, (same_setNormality (Ne.symm hx.1)).2]

theorem takeNormality_collection {s : State} : s.takeNormality.normal .collection = !s.comp.closedTally.isSome := by
  unfold State.takeNormality
  have : Source.all = [.coinPath, .collectGate, .refundGate, .returnCup, .coinSlot, .cashboxNear, .cashboxFull,
      .compartment, .keypad, .line,
    .dialtone, .retention, .clock] ++ .collection ::
        [.input 0, .input 1, .input 2, .input 3, .input 4, .input 5, .input 6,
    .input 7] := rfl
  rw [this, List.foldl_append, List.foldl_cons, takeNormality_other _ _ (by decide), State.normal_setNormality]
  generalize hg : List.foldl _ s _ = u
  have hc : u.comp = s.comp := by
    rw [← hg]
    exact foldl_keeps State.comp _ (by simp) _ s
  simp only [State.startAbnormal, hc]

theorem takeNormality_record {s : State} {l : List Source} {f : State → Source → Bool}
    (hs : (∀ r, s.record .collection = some r → r.active = true)) :
    ((l.foldl (fun s src => s.setNormality src (f s src)) s).record .collection).isSome =
        (s.record .collection).isSome ∧
    ∀ r, (l.foldl (fun s src => s.setNormality src (f s src)) s).record .collection = some r → r.active = true := by
  induction l generalizing s with
  | nil => exact ⟨rfl, hs⟩
  | cons b t ih =>
    simp only [List.foldl_cons]
    have h2 : ∀ r, (s.setNormality b (f s b)).record .collection = some r → r.active = true := by
      intro r hr
      by_cases hb : b = .collection
      · subst hb
        unfold State.setNormality State.recount at hr
        split at hr
        · rename_i h
          simp [h] at hr
        · rename_i r0 h
          rw [State.record_putRecord] at hr
          simp at hr
          subst hr
          have := hs r0 h
          unfold ConditionRecord.recount; (repeat' split) <;> exact this
      · rw [(same_setNormality hb).1] at hr
        exact hs r hr
    have := ih h2
    refine ⟨?_, this.2⟩
    rw [this.1, State.record_setNormality]

theorem collectionLaw_bankActive {s : State} (hs : s.CollectionLaw) : s.bankActive.CollectionLaw := by
  have hb : s.bankActive.record .collection = (s.record .collection).map (ConditionRecord.bank s.now) := by
    unfold State.record State.bankActive
    simp
  refine ⟨?_, ?_, ?_⟩
  · rw [hb]
    simpa using hs.1
  · exact hs.2.1
  · intro r hr
    rw [hb] at hr
    cases h : s.record .collection with
    | none => simp [h] at hr
    | some y =>
      simp [h] at hr
      subst hr
      unfold ConditionRecord.bank
      rw [(ConditionRecord.recount_same _ _ _).1]
      exact hs.2.2 _ h

/-- R170, R192: the COLLECTION record and the closed tally, kept or lost together, with normality taken from the tally. -/
theorem collectionLaw_restartWith {lost : Region → Bool} {u t : State} {supplies} (hs : State.CollectionLaw u)
    (hsup : t.sup.records = (u.restartWith lost supplies).sup.records) (hcomp : t.comp = (u.restartWith lost supplies).comp) :
    State.CollectionLaw t.takeNormality := by
  have h1 : t.record .collection = if lost .accounts then none else u.record .collection := by
    unfold State.record
    rw [hsup]
    unfold State.restartWith
    dsimp only
    split <;> simp
  have h2 : t.comp.closedTally = if lost .accounts then none else u.comp.closedTally := by
    rw [hcomp]
    unfold State.restartWith Compartment.restart
    dsimp only
    split <;> simp
  have hact : ∀ x, t.record .collection = some x → x.active = true := by
    intro x hx
    rw [h1] at hx
    split at hx
    · simp at hx
    · exact hs.2.2 _ hx
  have ht := takeNormality_record (l := Source.all) (f := State.startAbnormal) hact
  refine ⟨?_, ?_, ht.2⟩
  · refine ht.1.trans ?_
    simp only [State.takeNormality_frame]
    rw [h1, h2]
    split
    · rfl
    · exact hs.1
  · rw [takeNormality_collection]
    simp

theorem collectionLaw_startUp {r} {s : State} (hs : State.CollectionLaw s) :
    State.CollectionLaw (State.startUp r s) := by
  have hb := collectionLaw_bankActive hs
  have tables : State.CollectionLaw (s.startTables r) :=
    collectionLaw_restartWith (t := (s.bankActive.restartBlocks r).restartTables) (lost := s.bankActive.defaulted r)
      (supplies := s.supplies) hb (by simp; rfl) (by simp; rfl)
  have cut : ∀ {t : State} {u}, State.CollectionLaw t → State.CollectionLaw ((t.holdLevel.bankActive).setSupplies u) :=
    fun {t u} ht => collectionLaw_of_sup (s := t.holdLevel.bankActive) rfl rfl (collectionLaw_bankActive
      (collectionLaw_other (s := t) (t := t.holdLevel) (same_tables rfl rfl) rfl ht))
  unfold State.startUp
  split
  · exact collectionLaw_of_sup (State.fullStart_frame r s).2.2.2.2 (by rw [(State.fullStart_frame r s).2.1])
      (collectionLaw_startChanges (fun _ hf => hf) tables)
  · next written _ =>
    exact cut (t := s.cutTables r written) (collectionLaw_restartWith (u := s.bankActive)
      (lost := fun q => s.defaulted r q && q ∈ written) (supplies := s.supplies) hb rfl rfl)
  · next n _ =>
    have k := collectionLaw_startChanges (r := r) (lost := s.retentionCount r) (State.mem_of_take n) tables
    exact ite_holds (P := State.CollectionLaw) (cut k) (collectionLaw_other (s := (s.startTables r).makeChanges _)
      (same_tables rfl rfl) rfl k)

theorem collectionLaw_clearRecord {s : State} {src : Source} (h : s.normal src = true) (hs : s.CollectionLaw) :
    (s.clearRecord src).CollectionLaw := by
  by_cases hc : src = .collection
  · subst hc
    have h1 := hs.1
    have h2 := hs.2.1
    rw [h] at h2
    unfold State.clearRecord
    split
    · exact hs
    · rename_i hr
      rw [hr] at h1
      simp_all
  · exact collectionLaw_other (same_clearRecord hc) (by simp) hs

theorem collectionLaw_setInput {s : State} {i : Fin 8} {v : SupervisedInput} (hs : s.CollectionLaw) :
    (s.setInput i v).CollectionLaw := collectionLaw_other same_setInput (by simp) hs

/-- R51 as a law over the condition table and the closed tally. -/
theorem collectionLaw_keeper : TableKeeper State.CollectionLaw where
  congr h h' hs := collectionLaw_of_sup h h' hs
  occurrence h _ hs := collectionLaw_occurrenceOther h hs
  setNormality h hs := collectionLaw_other (same_setNormality h) (by simp) hs
  clearIfNormal := collectionLaw_clearIfNormal
  clearRecord := collectionLaw_clearRecord
  retireIfDue := collectionLaw_retireIfDue
  removeSnapshot := collectionLaw_removeSnapshot
  placeSnapshot := collectionLaw_placeSnapshot
  ackIncluded hs := by
    unfold State.ackIncluded
    split
    · exact collectionLaw_ackCollection hs
    · exact collectionLaw_ackRecord hs
  releaseClosedTally _ := collectionLaw_release
  lateCoin h hs := collectionLaw_occurrence rfl (by have := hs.2.1; rw [h] at this; exact this)
  closure _ := collectionLaw_occurrence (by simp [State.makeAbnormal, Compartment.close])
      (State.normal_setNormality _ _ _)
  activeEdge {s i} hs := by
    unfold State.activeEdge
    dsimp only
    (repeat' split)
    · exact hs
    · have k : (State.recount (.input i)
          (s.setInput i { s.sup.inputs[i] with active := true, clearFrom := none })).CollectionLaw :=
        collectionLaw_recount (collectionLaw_setInput hs)
      exact collectionLaw_other (same_takeEdge (by simp)) (State.takeEdge_frame _ _).2.2.2.2.2.1 k
    · exact collectionLaw_recount (collectionLaw_setInput hs)
  inactiveChange hs := ite_holds (collectionLaw_takeStaged (collectionLaw_recount (collectionLaw_setInput hs))) hs
  endWindow hs := by
    unfold State.endWindow
    dsimp only
    split
    · exact collectionLaw_takeStaged (collectionLaw_setInput (collectionLaw_of_sup rfl rfl hs))
    · exact hs
  endHoldOff hs := by
    unfold State.endHoldOff
    dsimp only
    split
    · exact collectionLaw_takeStaged (collectionLaw_setInput (collectionLaw_of_sup rfl rfl hs))
    · exact hs
  endClearDelay {s i} hs := by
    unfold State.endClearDelay
    dsimp only
    split
    · exact collectionLaw_other (same_makeNormal (by simp)) (by simp)
        (collectionLaw_setInput (i := i) (collectionLaw_of_sup rfl rfl hs))
    · exact hs
  applyAssignment {s i a b} hs := by
    unfold State.applyAssignment State.assignInput
    (repeat' split)
    · exact collectionLaw_other (same_unuseInput (by simp)) (by simp) hs
    · exact collectionLaw_deriveLevel (collectionLaw_setInput hs)
    · exact collectionLaw_setInput hs
  bankActive := collectionLaw_bankActive
  startUp := collectionLaw_startUp

end Sys2Proof.Machine
end

