-- ==== Sys2Proof/Laws/ConditionRecords.lean ====
section
/-! SUPPORT. Section 9.5, R160: every record of the condition table is lawful. Every operation of the supervision unit keeps
it so. -/

namespace Sys2Proof.Machine

theorem recordsLawful_congr {s t : State} (h : t.sup = s.sup) (hs : s.RecordsLawful) : t.RecordsLawful := by
  unfold State.RecordsLawful State.record at *
  rw [h]
  exact hs

theorem recordsLawful_of_records {s t : State} (h : t.sup.records = s.sup.records) (hs : s.RecordsLawful) :
    t.RecordsLawful := by
  unfold State.RecordsLawful State.record at *
  rw [h]
  exact hs

theorem recordsLawful_putRecord {s : State} {src r} (h : ∀ x, r = some x → x.Lawful src) (hs : s.RecordsLawful) :
    (s.putRecord src r).RecordsLawful := by
  intro src' x hx
  rw [State.record_putRecord] at hx
  split at hx
  · rename_i hc
    subst hc
    exact h x hx
  · exact hs _ _ hx

theorem recordsLawful_put {s : State} {src r} (h : r.Lawful src) (hs : s.RecordsLawful) :
    (s.putRecord src (some r)).RecordsLawful :=
  recordsLawful_putRecord (fun _ hx => by cases hx; exact h) hs

theorem ConditionRecord.recount_lawful {n b src} {r : ConditionRecord} (h : r.Lawful src) :
    (r.recount n b).Lawful src := by
  unfold ConditionRecord.recount; (repeat' split) <;> exact h

theorem recordsLawful_recount {s : State} {src} (hs : s.RecordsLawful) : (s.recount src).RecordsLawful := by
  unfold State.recount
  split
  · exact hs
  · rename_i h
    exact recordsLawful_put (ConditionRecord.recount_lawful (hs _ _ h)) hs

theorem recordsLawful_setNormality {s : State} {src b} (hs : s.RecordsLawful) :
    (s.setNormality src b).RecordsLawful := recordsLawful_recount hs

theorem recordsLawful_deriveLevel {s : State} (hs : s.RecordsLawful) : (s.deriveLevel).RecordsLawful := by
  unfold State.deriveLevel
  dsimp only
  split
  · exact hs
  · exact recordsLawful_of_records (by simp) hs

theorem recordsLawful_retire {s : State} {src} (hs : s.RecordsLawful) : (s.retire src).RecordsLawful :=
  recordsLawful_deriveLevel
      (recordsLawful_congr (by simp <;> rfl)
      (recordsLawful_putRecord (src := src) (r := none) (fun _ hx => by cases hx) hs))

theorem recordsLawful_retireIfDue {s : State} {src} (hs : s.RecordsLawful) : (s.retireIfDue src).RecordsLawful := by
  unfold State.retireIfDue; (repeat' split)
  · exact hs
  · exact recordsLawful_retire hs
  · exact hs

theorem recordsLawful_clearRecord {s : State} {src} (hs : s.RecordsLawful) : (s.clearRecord src).RecordsLawful := by
  unfold State.clearRecord
  split
  · exact hs
  · rename_i r h
    apply recordsLawful_retireIfDue
    apply recordsLawful_deriveLevel
    refine recordsLawful_congr (by simp <;> rfl)
        (recordsLawful_put (src := src) (r := { r with state := .cleared, lastChange := s.clock.time }) ?_ hs)
    have := hs _ _ h
    unfold ConditionRecord.Lawful at *
    simp_all

theorem recordsLawful_clearIfNormal {s : State} {src} (hs : s.RecordsLawful) :
    (s.clearIfNormal src).RecordsLawful := by
  unfold State.clearIfNormal; (repeat' split)
  · exact hs
  · exact recordsLawful_clearRecord hs
  · exact hs

theorem recordsLawful_recordOccurrence {s : State} {src a b} (hr : src.raises a b = true) (hs : s.RecordsLawful) :
    (s.recordOccurrence src a b).RecordsLawful := by
  unfold State.recordOccurrence
  dsimp only
  refine recordsLawful_congr (by simp <;> rfl)
      (recordsLawful_recount (src := src) (recordsLawful_put (src := src) ?_ hs))
  split
  · unfold ConditionRecord.Lawful ConditionRecord.create
    simp [hr]
  · rename_i h
    have := hs _ _ h
    unfold ConditionRecord.Lawful ConditionRecord.occur at *
    simp only [hr]
    refine ⟨?_, ?_, ?_, ?_, ?_, trivial⟩
    all_goals (try intro hh; cases hh)
    all_goals (repeat' split)
    all_goals omega

theorem recordsLawful_occurrence {s : State} {src a b} (hr : src.raises a b = true) (hs : s.RecordsLawful) :
    (s.occurrence src a b).RecordsLawful :=
  recordsLawful_clearIfNormal
      (recordsLawful_deriveLevel (recordsLawful_congr (by simp) (recordsLawful_recordOccurrence hr hs)))

theorem recordsLawful_makeNormal {s : State} {src} (hs : s.RecordsLawful) :
    (s.makeNormal src).RecordsLawful := recordsLawful_clearIfNormal (recordsLawful_setNormality hs)

theorem recordsLawful_becomeAbnormal {s : State} {src a b} (hr : src.raises a b = true) (hs : s.RecordsLawful) :
    (s.becomeAbnormal src a b).RecordsLawful := recordsLawful_occurrence hr (recordsLawful_setNormality hs)

theorem recordsLawful_setInput {s : State} {i x} (hs : s.RecordsLawful) :
    (s.setInput i x).RecordsLawful := recordsLawful_of_records rfl hs

theorem recordsLawful_judgeThreshold {s : State} {a b c d} (hr : a.raises b c = true) (hs : s.RecordsLawful) :
    (s.judgeThreshold a b c d).RecordsLawful := by
  unfold State.judgeThreshold; (repeat' split)
  · exact recordsLawful_becomeAbnormal hr hs
  · exact hs
  · exact hs
  · exact recordsLawful_makeNormal hs

theorem recordsLawful_judgeThresholds {s : State} (hs : s.RecordsLawful) :
    s.judgeThresholds.RecordsLawful := recordsLawful_judgeThreshold rfl (recordsLawful_judgeThreshold rfl hs)

theorem ConditionRecord.snapshot_lawful {src} {r : ConditionRecord} {x} (h : r.Lawful src) :
    ({ r with snapshot := x }).Lawful src := h

theorem recordsLawful_removeSnapshot {s : State} {src} (hs : s.RecordsLawful) :
    (s.removeSnapshot src).RecordsLawful := by
  unfold State.removeSnapshot; (repeat' split)
  · exact hs
  · exact hs
  · rename_i h _ _ _
    exact recordsLawful_retireIfDue (recordsLawful_put (ConditionRecord.snapshot_lawful (hs _ _ h)) hs)

theorem recordsLawful_placeSnapshot {s : State} {i} (hs : s.RecordsLawful) : (s.placeSnapshot i).RecordsLawful := by
  unfold State.placeSnapshot; (repeat' split)
  · exact hs
  · rename_i h
    exact (recordsLawful_put (ConditionRecord.snapshot_lawful (hs _ _ h)) hs)

theorem ConditionRecord.acknowledge_lawful {now snap src} {r r' : ConditionRecord} (hl : r.Lawful src)
    (h : r.acknowledge now snap = some r') :
    r'.Lawful src := by
  unfold ConditionRecord.acknowledge at h
  dsimp only at h
  split at h
  · simp at h
  · simp only [Option.some.injEq] at h
    subst h
    unfold ConditionRecord.Lawful ConditionRecord.active at *
    dsimp only
    refine ⟨hl.1, hl.2.1, by omega, ?_, ?_, hl.2.2.2.2.2⟩
    · split
      · simp
      · rename_i hc
        intro hh
        have := hl.2.2.2.1 hh
        simp [hh] at hc
        omega
    · split
      · rename_i hc
        intro _
        exact hc.2
      · intro hh
        have := hl.2.2.2.2.1 hh
        omega

theorem recordsLawful_ackRecord {s : State} {src} (hs : s.RecordsLawful) : (s.ackRecord src).RecordsLawful := by
  unfold State.ackRecord
  cases h : s.record src with
  | none => exact hs
  | some r =>
    cases h1 : r.snapshot with
    | none => simpa [h1] using hs
    | some snap =>
      simp only [h1]
      cases h2 : r.acknowledge s.clock.time snap with
      | none => exact recordsLawful_retire hs
      | some r' =>
        have hp := recordsLawful_put (ConditionRecord.acknowledge_lawful (hs _ _ h) h2) hs
        dsimp only
        apply recordsLawful_retireIfDue
        split
        · exact hp
        · exact recordsLawful_congr (by simp) hp

theorem recordsLawful_releaseClosedTally {s : State} (hs : s.RecordsLawful) :
    s.releaseClosedTally.RecordsLawful := recordsLawful_setNormality
    (recordsLawful_retire (recordsLawful_congr (by simp) hs))

theorem ConditionRecord.keepOutstanding_lawful {now snap src} {r : ConditionRecord} (hl : r.Lawful src) :
    (r.keepOutstanding now snap).Lawful src := by
  unfold ConditionRecord.Lawful ConditionRecord.keepOutstanding at *
  refine ⟨hl.1, hl.2.1, ?_, ?_, ?_, hl.2.2.2.2.2⟩
  · dsimp only
    omega
  · intro hh
    have := hl.2.2.2.1 hh
    dsimp only
    omega
  · intro hh
    have := hl.2.2.2.2.1 hh
    dsimp only
    omega

theorem recordsLawful_ackCollection {s : State} (hs : s.RecordsLawful) : s.ackCollection.RecordsLawful := by
  unfold State.ackCollection
  cases h : s.record .collection with
  | none => exact hs
  | some r =>
    dsimp only
    (repeat' split)
    · exact recordsLawful_ackRecord (recordsLawful_congr (by simp) hs)
    · exact recordsLawful_releaseClosedTally hs
    · exact recordsLawful_put (ConditionRecord.keepOutstanding_lawful (hs _ _ h)) hs
    · exact recordsLawful_congr (s := s.putRecord .collection (some (r.keepOutstanding s.clock.time _)))
          (by simp; rfl) (recordsLawful_put (ConditionRecord.keepOutstanding_lawful (hs _ _ h)) hs)
    · exact recordsLawful_ackRecord hs

theorem recordsLawful_ackIncluded {s : State} {i} (hs : s.RecordsLawful) : (s.ackIncluded i).RecordsLawful := by
  unfold State.ackIncluded; split <;> first | exact recordsLawful_ackCollection hs | exact recordsLawful_ackRecord hs

theorem recordsLawful_unuseInput {s : State} {i a} (hs : s.RecordsLawful) : (s.unuseInput i a).RecordsLawful :=
  ite_holds (P := State.RecordsLawful)
      (recordsLawful_clearRecord (recordsLawful_setNormality (recordsLawful_setInput hs)))
      (recordsLawful_setNormality (recordsLawful_setInput hs))

theorem recordsLawful_assignInput {s : State} {i a} (hs : s.RecordsLawful) :
    (s.assignInput i a).RecordsLawful := recordsLawful_deriveLevel (recordsLawful_setInput hs)

theorem recordsLawful_takeStaged {s : State} {i} (hs : s.RecordsLawful) : (s.takeStaged i).RecordsLawful := by
  unfold State.takeStaged; (repeat' split)
  · exact recordsLawful_assignInput hs
  · exact hs
  · exact hs

theorem recordsLawful_inputOccurs {s : State} {i} (ht : s.sup.inputs[i].assignment.type ≠ .unused)
    (hs : s.RecordsLawful) :
    (s.inputOccurs i).RecordsLawful :=
  recordsLawful_becomeAbnormal (by simp only [Source.raises]; simpa using ht) (recordsLawful_setInput hs)

theorem recordsLawful_takeEdge {s : State} {i} (ht : s.sup.inputs[i].assignment.type ≠ .unused)
    (hs : s.RecordsLawful) :
    (s.takeEdge i).RecordsLawful := by
  unfold State.takeEdge
  split
  · exact recordsLawful_inputOccurs ht hs
  · split
    · exact recordsLawful_inputOccurs ht hs
    · exact hs
  · exact ite_holds (P := State.RecordsLawful) (recordsLawful_inputOccurs ht hs) (recordsLawful_setInput hs)

theorem recount_inputs (s : State) (src) : (s.recount src).sup.inputs = s.sup.inputs := by
  unfold State.recount
  split <;> rfl

theorem recordsLawful_activeEdge {s : State} {i} (hs : s.RecordsLawful) : (s.activeEdge i).RecordsLawful := by
  unfold State.activeEdge
  dsimp only
  split
  · exact hs
  · rename_i hn
    split
    · apply recordsLawful_takeEdge
      · rw [recount_inputs]
        simp [State.setInput]
        intro hc
        exact hn (Or.inl hc)
      · exact recordsLawful_recount (recordsLawful_setInput hs)
    · exact (recordsLawful_recount (recordsLawful_setInput hs))

theorem recordsLawful_inactiveChange {s : State} {i} (hs : s.RecordsLawful) : (s.inactiveChange i).RecordsLawful :=
  ite_holds (P := State.RecordsLawful) (recordsLawful_takeStaged (recordsLawful_recount (recordsLawful_setInput hs)))
      hs

theorem recordsLawful_endWindow {s : State} {i} (hs : s.RecordsLawful) : (s.endWindow i).RecordsLawful := by
  unfold State.endWindow
  dsimp only
  split
  · exact recordsLawful_takeStaged (recordsLawful_setInput (recordsLawful_congr rfl hs))
  · exact hs

theorem recordsLawful_endHoldOff {s : State} {i} (hs : s.RecordsLawful) : (s.endHoldOff i).RecordsLawful := by
  unfold State.endHoldOff
  dsimp only
  split
  · exact recordsLawful_takeStaged (recordsLawful_setInput (recordsLawful_congr rfl hs))
  · exact hs

theorem recordsLawful_endClearDelay {s : State} {i} (hs : s.RecordsLawful) : (s.endClearDelay i).RecordsLawful := by
  unfold State.endClearDelay
  dsimp only
  split
  · exact recordsLawful_makeNormal (recordsLawful_setInput (recordsLawful_congr rfl hs))
  · exact hs

theorem recordsLawful_applyAssignment {s : State} {i a b} (hs : s.RecordsLawful) :
    (s.applyAssignment i a b).1.RecordsLawful := by
  unfold State.applyAssignment
  (repeat' split)
  · exact recordsLawful_unuseInput hs
  · exact recordsLawful_assignInput hs
  · exact recordsLawful_setInput hs

theorem recordsLawful_removeSnapshots {s : State} (hs : s.RecordsLawful) :
    s.removeSnapshots.RecordsLawful := foldl_holds (f := fun s src => s.removeSnapshot src)
    (fun _ _ => recordsLawful_removeSnapshot) Source.all hs

theorem recordsLawful_takeNormality {s : State} (hs : s.RecordsLawful) :
    s.takeNormality.RecordsLawful := foldl_holds (f := fun s src => s.setNormality src (s.startAbnormal src))
    (fun _ _ => recordsLawful_setNormality) Source.all hs

theorem recordsLawful_bankActive {s : State} (hs : s.RecordsLawful) : s.bankActive.RecordsLawful := by
  intro src r hr
  unfold State.record State.bankActive at hr
  simp only [State.setSup_sup, Fin.getElem_fin, Vector.getElem_map] at hr
  cases h : s.sup.records[src.idx.val] with
  | none => simp [h] at hr
  | some r' =>
    simp [h] at hr
    subst hr
    exact ConditionRecord.recount_lawful (hs src r' h)

theorem recordsLawful_startThreshold {s : State} {src a b c} (hr : src.raises a b = true) (hs : s.RecordsLawful) :
    (s.startThreshold src a b c).RecordsLawful := by
  unfold State.startThreshold; dsimp only; (repeat' split)
  · exact recordsLawful_setNormality hs
  · exact recordsLawful_recordOccurrence hr (recordsLawful_setNormality hs)
  · exact hs

theorem recordsLawful_startClosure {s : State} (hs : s.RecordsLawful) : (s.startClosure).RecordsLawful := by
  have h := recordsLawful_recordOccurrence (src := .collection) (a := .cashboxCollected) (b := .notice) rfl
      (recordsLawful_setNormality (src := .collection) (b := true)
      (recordsLawful_congr (t := s.setComp (s.comp.close s.comp.forcedNow)) (by simp) hs))
  exact recordsLawful_congr (State.raise_frame _ _).2.2.2.2.2.2.2.2.2.2.2.1
      (ite_holds (P := State.RecordsLawful) (recordsLawful_recordOccurrence rfl h) h)

theorem recordsLawful_takeReadings {s : State} {r} (hs : s.RecordsLawful) : (s.takeReadings r).RecordsLawful := by
  have k : (State.setNormality .compartment (decide (r.door = .opened))
      (s.setComp { s.comp with door := r.door, key := r.key, presence := r.presence })).RecordsLawful :=
    recordsLawful_setNormality (recordsLawful_congr (by simp) hs)
  exact ite_holds (P := State.RecordsLawful) (recordsLawful_startClosure k) k

theorem recordsLawful_settleRecord {s : State} {src} (hs : s.RecordsLawful) :
    (s.settleRecord src).RecordsLawful := recordsLawful_retireIfDue
    (recordsLawful_clearIfNormal (recordsLawful_removeSnapshot hs))

/-- R192: every change of a start-up keeps the laws of the records. -/
theorem recordsLawful_startChanges {r lost} {changes : List (State → State)} {s : State}
    (hc : ∀ f ∈ changes, f ∈ State.startChanges r lost) (hs : s.RecordsLawful) : (s.makeChanges changes).RecordsLawful :=
  State.startChanges_law (P := State.RecordsLawful) (fun _ => recordsLawful_takeReadings)
    (fun _ h => ite_holds (P := State.RecordsLawful) (recordsLawful_recordOccurrence rfl h) h)
    (fun _ => recordsLawful_startThreshold rfl) (fun _ => recordsLawful_startThreshold rfl)
    (fun _ => recordsLawful_of_records rfl) (fun _ _ => recordsLawful_settleRecord)
    (fun _ h => recordsLawful_clearIfNormal (recordsLawful_recordOccurrence rfl h))
    (fun _ h => ite_holds (P := State.RecordsLawful) (recordsLawful_recordOccurrence rfl h) h)
    (fun _ => recordsLawful_of_records rfl) (fun _ => recordsLawful_of_records rfl) (fun _ => recordsLawful_of_records rfl)
    lost hc s hs

/-- R192: the records as a start-up finds them, retained or removed, are lawful. -/
theorem recordsLawful_restartWith {lost u} {s : State} (hs : s.RecordsLawful) : (s.restartWith lost u).RecordsLawful := by
  intro src x hx
  unfold State.restartWith State.record at hx
  dsimp only at hx
  split at hx
  · simp at hx
  · exact hs _ _ hx

theorem recordsLawful_startUp {r} {s : State} (hs : s.RecordsLawful) : (State.startUp r s).RecordsLawful := by
  have hb := recordsLawful_bankActive hs
  have tables : (s.startTables r).RecordsLawful :=
    recordsLawful_takeNormality (recordsLawful_congr (s := s.bankActive.restartBlocks r) (by simp) (recordsLawful_restartWith hb))
  unfold State.startUp
  split
  · exact recordsLawful_congr (State.fullStart_frame r s).2.2.2.2 (recordsLawful_startChanges (fun _ hf => hf) tables)
  · next written _ =>
    have k : (s.cutTables r written).RecordsLawful :=
      recordsLawful_takeNormality (recordsLawful_of_records
        (s := s.bankActive.restartWith (fun q => s.defaulted r q && q ∈ written) s.supplies) rfl
        (recordsLawful_restartWith hb))
    exact recordsLawful_congr (s := ((s.cutTables r written).holdLevel).bankActive) (by simp [State.cutJudging]) (recordsLawful_bankActive
      (recordsLawful_of_records (s := s.cutTables r written) (by simp [State.holdLevel]) k))
  · next n _ =>
    have k : ((s.startTables r).makeChanges ((State.startChanges r (s.retentionCount r)).take n)).holdLevel.RecordsLawful :=
      recordsLawful_of_records (s := (s.startTables r).makeChanges _) rfl (recordsLawful_startChanges (State.mem_of_take n) tables)
    refine ite_holds (P := State.RecordsLawful) ?_ k
    exact recordsLawful_congr (s := State.bankActive _) (by simp) (recordsLawful_bankActive k)

/-- The laws of a condition record as a law over the condition table. -/
theorem recordsLawful_keeper : TableKeeper State.RecordsLawful where
  congr h _ hs := recordsLawful_congr h hs
  occurrence _ := recordsLawful_occurrence
  setNormality _ := recordsLawful_setNormality
  clearIfNormal := recordsLawful_clearIfNormal
  clearRecord _ := recordsLawful_clearRecord
  retireIfDue := recordsLawful_retireIfDue
  removeSnapshot := recordsLawful_removeSnapshot
  placeSnapshot := recordsLawful_placeSnapshot
  ackIncluded := recordsLawful_ackIncluded
  releaseClosedTally := recordsLawful_releaseClosedTally
  lateCoin _ hs := recordsLawful_occurrence rfl (recordsLawful_congr (by simp) hs)
  closure hs := recordsLawful_becomeAbnormal rfl (recordsLawful_congr (by simp) hs)
  activeEdge := recordsLawful_activeEdge
  inactiveChange := recordsLawful_inactiveChange
  endWindow := recordsLawful_endWindow
  endHoldOff := recordsLawful_endHoldOff
  endClearDelay := recordsLawful_endClearDelay
  applyAssignment := recordsLawful_applyAssignment
  bankActive := recordsLawful_bankActive
  startUp := recordsLawful_startUp

end Sys2Proof.Machine
end

