-- ==== Sys2Proof/Laws/Figures.lean ====
section
/-! SUPPORT. The figures of both tallies and the session forfeit sum stay in their ranges (sections 3.2 and 2.5): every
addition saturates. -/

namespace Sys2Proof.Machine

/-! ## Tallies -/

/-- What saturates stays below its top. -/
theorem satAdd_le (top a b : Nat) : satAdd top a b ≤ top := Nat.min_le_left _ _

theorem Tally.zero_inRange : Tally.zero.InRange := by simp [Tally.InRange, Tally.zero]

theorem Tally.addCollected_inRange {cls : Option (Fin 16)} {value : Nat} {t : Tally} (h : t.InRange) :
    (t.addCollected cls value).InRange := by
  obtain ⟨h1, h2, h3, h4, h5, h6, h7⟩ := h
  refine ⟨fun c => ?_, Nat.min_le_left _ _, Nat.min_le_left _ _, h4, h5, h6, h7⟩
  unfold Tally.addCollected
  cases cls with
  | none => exact h1 c
  | some k =>
    by_cases hk : k.val = c.val
    · simpa [Vector.getElem_set, hk] using satAdd_le top16 _ _
    · simpa [Vector.getElem_set, hk] using h1 c

theorem Tally.addUncredited_inRange {t : Tally} (h : t.InRange) : t.addUncredited.InRange :=
  ⟨h.1, Nat.min_le_left _ _, h.2.2.1, Nat.min_le_left _ _, h.2.2.2.2.1, h.2.2.2.2.2.1, h.2.2.2.2.2.2⟩

theorem Tally.addHeld_inRange {c : HeldCoin} {t : Tally} (h : t.InRange) : (t.addHeld c).InRange := by
  unfold Tally.addHeld
  split
  · exact Tally.addCollected_inRange h
  all_goals exact Tally.addUncredited_inRange h

theorem Tally.merge_inRange (a b : Tally) : (a.merge b).InRange := by
  refine ⟨fun c => ?_, Nat.min_le_left _ _, Nat.min_le_left _ _, Nat.min_le_left _ _, Nat.min_le_left _ _,
    Nat.min_le_left _ _, Nat.min_le_left _ _⟩
  simpa [Tally.merge] using satAdd_le top16 _ _

/-! ## The shared operations -/

/-- What the law rests on. -/
theorem figures_of {s t : State} (h1 : t.comp.current = s.comp.current) (h2 : t.comp.closedTally = s.comp.closedTally)
    (h3 : t.credit.sessionForfeit = s.credit.sessionForfeit) (hs : s.FiguresInRange) : t.FiguresInRange := by
  unfold State.FiguresInRange at *
  rw [h1, h2, h3]
  exact hs

theorem figures_same {s t : State} (h : t.comp = s.comp) (h' : t.credit = s.credit) (hs : s.FiguresInRange) :
    t.FiguresInRange := figures_of (by rw [h]) (by rw [h]) (by rw [h']) hs

theorem figures_current {s t : State} (h : t.comp.current.InRange) (h2 : t.comp.closedTally = s.comp.closedTally)
    (h3 : t.credit.sessionForfeit = s.credit.sessionForfeit) (hs : s.FiguresInRange) : t.FiguresInRange := by
  unfold State.FiguresInRange at *
  rw [h2, h3]
  exact ⟨h, hs.2⟩

theorem figures_addForfeit {amount : Nat} {s : State} (hs : s.FiguresInRange) : (s.addForfeit amount).FiguresInRange :=
  figures_current (s := s)
    ⟨hs.1.1, hs.1.2.1, hs.1.2.2.1, hs.1.2.2.2.1, Nat.min_le_left _ _, hs.1.2.2.2.2.2.1, hs.1.2.2.2.2.2.2⟩ rfl rfl hs

theorem figures_addUnrecovered {amount : Nat} {s : State} (hs : s.FiguresInRange) :
    (s.addUnrecovered amount).FiguresInRange :=
  figures_current (s := s)
    ⟨hs.1.1, hs.1.2.1, hs.1.2.2.1, hs.1.2.2.2.1, hs.1.2.2.2.2.1, Nat.min_le_left _ _, hs.1.2.2.2.2.2.2⟩ rfl rfl hs

theorem figures_addBanked {amount : Nat} {s : State} (hs : s.FiguresInRange) : (s.addBanked amount).FiguresInRange := by
  unfold State.addBanked
  split
  · exact figures_addForfeit hs
  all_goals exact figures_addForfeit ⟨hs.1, hs.2.1, Nat.min_le_left _ _⟩

theorem figures_judgeThresholds {s : State} (hs : s.FiguresInRange) : s.judgeThresholds.FiguresInRange :=
  figures_same (by simp) (by simp) hs

theorem figures_setCurrent {x : Tally} {s : State} (h : x.InRange) (hs : s.FiguresInRange) :
    (s.setCurrent x).FiguresInRange := figures_current (s := s) h rfl rfl hs

theorem figures_countCollected {generation : Nat} {c : HeldCoin} {s : State} (hs : s.FiguresInRange) :
    (s.countCollected generation c).FiguresInRange := by
  unfold State.countCollected
  (repeat' split)
  · exact figures_judgeThresholds (figures_setCurrent (Tally.addHeld_inRange hs.1) hs)
  · exact figures_judgeThresholds (figures_setCurrent (Tally.addHeld_inRange hs.1) hs)
  · rename_i t ht
    refine figures_same (State.occurrence_frame ..).2.2.2.2.2.1 (by simp) (s := s.setComp _) ?_
    refine ⟨hs.1, fun x hx => ?_, hs.2.2⟩
    cases hx
    exact Tally.addHeld_inRange (hs.2.1 t ht)

theorem figures_writeOffEntry {e : OwedEntry} {s : State} (hs : s.FiguresInRange) :
    (s.writeOffEntry e).FiguresInRange := figures_addUnrecovered (amount := e.amount) hs

theorem figures_writeOff {s : State} (hs : s.FiguresInRange) : s.writeOff.FiguresInRange := by
  have : ∀ (l : List OwedEntry) (s : State), s.FiguresInRange →
      (l.foldl (fun s e => s.writeOffEntry e) s).FiguresInRange := by
    intro l
    induction l with
    | nil => exact fun _ h => h
    | cons e rest ih => exact fun s h => ih _ (figures_writeOffEntry h)
  exact this _ _ hs

theorem figures_settle {s : State} (hs : s.FiguresInRange) : s.settle.FiguresInRange := by
  have h1 : (s.setCredit { s.credit with
      banked := (payOwed s.credit.banked s.credit.owed).1
      owed := (payOwed s.credit.banked s.credit.owed).2 }).FiguresInRange := hs
  unfold State.settle State.requestCollect
  dsimp only
  (repeat' split) <;> first | exact h1 | exact figures_writeOff h1

theorem figures_takeCharge {call charge : Nat} {s : State} (hs : s.FiguresInRange) :
    (s.takeCharge call charge).FiguresInRange := by
  have h1 : (s.makeRoom call).FiguresInRange := by
    unfold State.makeRoom
    (repeat' split)
    · exact hs
    · exact figures_writeOffEntry hs
    · exact hs
  unfold State.takeCharge
  split
  · exact hs
  · exact figures_settle (figures_of (s := s.makeRoom call) rfl rfl rfl h1)

theorem figures_completeCollect {generation : Nat} {s : State} (hs : s.FiguresInRange) :
    (s.completeCollect generation).FiguresInRange := by
  have h1 : ∀ c, (s.setCoin c).FiguresInRange := fun _ => hs
  dsimp only [State.completeCollect]
  (repeat' split)
  · exact figures_settle (h1 _)
  · exact figures_settle (figures_addBanked (figures_countCollected (h1 _)))
  · exact figures_settle (figures_countCollected (h1 _))

theorem figures_cashboxArrival {s : State} (hs : s.FiguresInRange) : s.cashboxArrival.FiguresInRange := by
  have h1 : ∀ c, (s.setCoin c).FiguresInRange := fun _ => hs
  unfold State.cashboxArrival
  dsimp only
  split
  · rename_i e rest _
    have h2 := figures_settle (figures_addBanked (amount := e.value) (h1 { s.coin with transit := rest }))
    exact figures_same (State.setCoin_comp _ _) (State.setCoin_credit _ _)
      (figures_judgeThresholds (figures_setCurrent (Tally.addCollected_inRange h2.1) h2))
  · exact figures_judgeThresholds (figures_setCurrent (Tally.addUncredited_inRange hs.1) hs)

theorem figures_closeTally {s : State} (hs : s.FiguresInRange) : s.closeTally.FiguresInRange := by
  have h1 : (s.setComp (s.comp.close s.comp.forcedNow)).FiguresInRange := by
    refine ⟨Tally.zero_inRange, fun x hx => ?_, hs.2.2⟩
    cases hx
    unfold Compartment.closure
    split
    · exact hs.1
    · exact Tally.merge_inRange _ _
  unfold State.closeTally
  dsimp only
  split <;> exact figures_same (by simp) (by simp) h1

theorem figures_lookAhead {s : State} (hs : s.FiguresInRange) : s.lookAhead.FiguresInRange :=
  figures_same (by simp) (by simp) hs

/-- The answer to a call is two charges at most (R98). -/
theorem figures_rateAnswer {presumed : Bool} {s : State} (hs : s.FiguresInRange) :
    (s.rateAnswer presumed).1.FiguresInRange := by
  dsimp only [State.rateAnswer]
  (repeat' split)
  · exact hs
  · apply figures_lookAhead
    apply figures_takeCharge
    apply figures_takeCharge
    exact hs
  · exact hs
  · exact hs

/-- A closed tally whose figures are those of the one held before keeps the law. -/
theorem figures_closed {s t : State} (h1 : t.comp.current = s.comp.current)
    (h2 : ∀ x, t.comp.closedTally = some x → ∃ y, s.comp.closedTally = some y ∧ x.figures = y.figures)
    (h3 : t.credit.sessionForfeit = s.credit.sessionForfeit) (hs : s.FiguresInRange) : t.FiguresInRange := by
  refine ⟨by rw [h1]; exact hs.1, fun x hx => ?_, by rw [h3]; exact hs.2.2⟩
  obtain ⟨y, hy, he⟩ := h2 x hx
  rw [he]
  exact hs.2.1 y hy

theorem figures_clearChangedMark {s : State} (hs : s.FiguresInRange) : s.clearChangedMark.FiguresInRange := by
  refine figures_closed (s := s) rfl (fun x hx => ?_) rfl hs
  cases h : s.comp.closedTally with
  | none => simp [State.clearChangedMark, State.setComp, h] at hx
  | some y =>
    simp [State.clearChangedMark, State.setComp, h] at hx
    exact ⟨y, rfl, by rw [← hx]⟩

theorem figures_releaseClosedTally {s : State} (hs : s.FiguresInRange) : s.releaseClosedTally.FiguresInRange :=
  figures_closed (s := s) (by simp [State.releaseClosedTally])
    (fun x hx => by simp [State.releaseClosedTally] at hx) (by simp [State.releaseClosedTally]) hs

theorem figures_resolveWithheld {generation : Nat} {s : State} (hs : s.FiguresInRange) :
    (s.resolveWithheld generation).FiguresInRange := by
  unfold State.resolveWithheld
  (repeat' split)
  · exact hs
  · rename_i t ht _ _
    exact figures_closed (s := s) rfl (fun x hx => ⟨t, ht, by cases hx; rfl⟩) rfl hs
  · exact figures_releaseClosedTally hs
  · exact hs

theorem figures_ackIncluded {i : IncludedRecord} {s : State} (hs : s.FiguresInRange) :
    (s.ackIncluded i).FiguresInRange := by
  have hr : ∀ src (t : State), t.FiguresInRange → (t.ackRecord src).FiguresInRange :=
    fun _ _ h => figures_same (by simp) (by simp) h
  unfold State.ackIncluded
  split
  · unfold State.ackCollection
    split
    · exact hs
    · split
      · rename_i snap t _ ht
        (repeat' split)
        · exact hr _ _ (figures_closed (s := s) rfl (fun x hx => ⟨t, ht, by cases hx; rfl⟩) rfl hs)
        · exact figures_releaseClosedTally hs
        · dsimp only
          split <;> exact figures_same (by simp) (by simp) hs
      · exact hr _ _ hs
  · exact hr _ _ hs

theorem figures_applyAck {s : State} (hs : s.FiguresInRange) : s.applyAck.FiguresInRange := by
  unfold State.applyAck
  split
  · exact hs
  · rename_i snap _
    have h1 : (snap.records.foldl (fun s i => s.ackIncluded i) s).FiguresInRange :=
      foldl_holds (P := State.FiguresInRange) (fun _ _ h => figures_ackIncluded h) _ hs
    exact figures_same (by simp) (by simp) h1

theorem figures_reportAnswered {s : State} (hs : s.FiguresInRange) : s.reportAnswered.FiguresInRange := by
  unfold State.reportAnswered
  split
  · have h1 : (s.reportSnapshot.records.foldl (fun s i => s.placeSnapshot i) s).FiguresInRange :=
      foldl_holds (P := State.FiguresInRange) (fun _ _ h => figures_same (by simp) (by simp) h) _ hs
    dsimp only
    split
    · exact figures_same (by simp) (by simp) (figures_clearChangedMark h1)
    · exact figures_same (by simp) (by simp) h1
  · exact hs

theorem figures_lineAnswered {presumed : Bool} {s : State} (hs : s.FiguresInRange) :
    (s.lineAnswered presumed).FiguresInRange := by
  dsimp only [State.lineAnswered, State.sessionAnswered]
  have h := fun (t : State) (h : t.comp = s.comp) (h' : t.credit = s.credit) =>
    figures_rateAnswer (presumed := presumed) (figures_same h h' hs)
  (repeat' split) <;> first
    | (refine figures_same ?_ ?_ hs <;> (simp; done))
    | exact figures_reportAnswered (figures_same (by simp) (by simp) hs)
    | (refine figures_same ?_ ?_ (h ((s.setLine s.line.answered).setSession
          { (s.setLine s.line.answered).session with state := .connected }) rfl rfl) <;> first | (simp; done) | (simp; rfl))

theorem figures_endSession {cause : EndCause} {s : State} (hs : s.FiguresInRange) :
    (s.endSession cause).FiguresInRange := by
  have h1 : (s.endCall cause).FiguresInRange := figures_same (by simp) (by simp) hs
  dsimp only [State.endSession]
  refine figures_of (s := s.endCall cause) (by simp) (by simp) ?_ h1
  simp only [State.requestRefund_frame, State.closeAccount]
  split <;> rfl

theorem figures_openSession {s : State} (hs : s.FiguresInRange) : s.openSession.FiguresInRange := by
  have h1 : s.openAccount.FiguresInRange := ⟨hs.1, hs.2.1, Nat.zero_le _⟩
  dsimp only [State.openSession]
  exact figures_same (by simp <;> rfl) (by simp <;> rfl) h1

/-- R192: the figures as a start-up finds them, retained or at their defaults, are in their ranges. -/
theorem figures_restartWith {lost u} {s : State} (hs : s.FiguresInRange) : (s.restartWith lost u).FiguresInRange := by
  refine ⟨?_, ?_, Nat.zero_le _⟩
  · simp only [State.restartWith, Compartment.restart]
    split
    · exact Tally.zero_inRange
    · exact hs.1
  · intro x hx
    simp only [State.restartWith, Compartment.restart] at hx
    split at hx
    · cases hx
    · exact hs.2.1 x hx

theorem figures_startClosure {s : State} (hs : s.FiguresInRange) : s.startClosure.FiguresInRange := by
  have h1 : (s.setComp (s.comp.close s.comp.forcedNow)).FiguresInRange := by
    refine ⟨Tally.zero_inRange, fun x hx => ?_, hs.2.2⟩
    cases hx
    unfold Compartment.closure
    split
    · exact hs.1
    · exact Tally.merge_inRange _ _
  unfold State.startClosure
  dsimp only
  split <;> exact figures_same (by simp) (by simp) h1

/-- R192: every change of a start-up keeps the figures in their ranges. -/
theorem figures_startChanges {readings lost} {changes : List (State → State)} {s : State}
    (hc : ∀ f ∈ changes, f ∈ State.startChanges readings lost) (hs : s.FiguresInRange) :
    (s.makeChanges changes).FiguresInRange := by
  refine State.startChanges_law (P := State.FiguresInRange) ?_ ?_ ?_ ?_ ?_ ?_ ?_ ?_ ?_ ?_ ?_ lost hc s hs
  case refine_1 =>
    intro t ht
    unfold State.takeReadings
    refine ite_holds (P := State.FiguresInRange) (figures_startClosure ?_) ?_ <;>
      exact figures_of (s := t) (by simp) (by simp) (by simp) ht
  case refine_10 => exact fun _ => figures_addForfeit
  case refine_11 => exact fun t ht => figures_of (s := t) rfl rfl rfl ht
  all_goals
    intros
    refine figures_same ?_ ?_ (by assumption) <;> simp

theorem figures_startUp {readings : StartReadings} {s : State} (hs : s.FiguresInRange) :
    (s.startUp readings).FiguresInRange := by
  have hb : s.bankActive.FiguresInRange := figures_same (by simp) (by simp) hs
  have tables : (s.startTables readings).FiguresInRange :=
    figures_same (s := s.bankActive.restartBlocks readings) (by simp [State.startTables]) (by simp [State.startTables])
      (figures_restartWith hb)
  unfold State.startUp
  split
  · exact figures_same (State.fullStart_frame readings s).2.1 (State.fullStart_frame readings s).1
      (figures_startChanges (fun _ hf => hf) tables)
  · next written _ =>
    exact figures_same (s := s.bankActive.restartWith (fun q => s.defaulted readings q && q ∈ written) s.supplies)
      (by simp [State.cutJudging, State.cutTables]) (by simp [State.cutJudging, State.cutTables]) (figures_restartWith hb)
  · next n _ =>
    exact figures_same (s := (s.startTables readings).makeChanges ((State.startChanges readings (s.retentionCount readings)).take n))
      (by simp [State.cutAfter]) (by simp [State.cutAfter]) (figures_startChanges (State.mem_of_take n) tables)

theorem figures_initSession {s : State} (hs : s.FiguresInRange) : s.initSession.FiguresInRange := by
  dsimp only [State.initSession]
  split
  · exact figures_same (s := s.endSession .stationInit) (by simp) (by simp) (figures_endSession hs)
  · exact figures_same (by simp) (by simp) hs
  all_goals exact figures_endSession hs

theorem figures_stationInit {s : State} (hs : s.FiguresInRange) : s.stationInit.1.FiguresInRange := by
  have h0 : s.resetReport.FiguresInRange := figures_same (by simp) (by simp) hs
  have h1 := figures_initSession h0
  unfold State.stationInit
  dsimp only
  generalize s.resetReport.initSession = u at h1 ⊢
  exact figures_same (s := u) (by simp) (by simp) h1

theorem figures_work (c : Instr) (s : State) (hs : s.FiguresInRange) : (Instr.work c s).FiguresInRange := by
  cases c <;> dsimp only [Instr.work]
  case columnEntryPulse => exact figures_same (by simp) (by simp) hs
  case cashboxEntryPulse =>
    unfold State.cashboxPulse
    split
    · exact hs
    · exact figures_completeCollect hs
    all_goals exact figures_cashboxArrival hs
  case collectGateHome =>
    have h1 : (s.makeNormal .collectGate).FiguresInRange := figures_same (by simp) (by simp) hs
    unfold State.collectHome
    dsimp only
    split
    · exact figures_completeCollect h1
    all_goals exact h1
  case collectWindowTimeout =>
    unfold State.timeOutCollect
    dsimp only
    split
    · exact figures_resolveWithheld (figures_same (State.setCoin_comp _ _) (State.setCoin_credit _ _)
        (figures_writeOff (figures_same (by simp) (by simp) hs)))
    all_goals exact hs
  case refundGateHome =>
    have h1 : (s.makeNormal .refundGate).FiguresInRange := figures_same (by simp) (by simp) hs
    unfold State.refundHome
    dsimp only
    (repeat' split)
    · exact figures_current (s := s.makeNormal .refundGate)
        ⟨h1.1.1, h1.1.2.1, h1.1.2.2.1, h1.1.2.2.2.1, h1.1.2.2.2.2.1, h1.1.2.2.2.2.2.1, Nat.min_le_left _ _⟩ rfl rfl h1
    all_goals exact h1
  case sessionEndClose =>
    unfold State.closeSessionAccount
    split
    · exact figures_addForfeit ⟨hs.1, hs.2.1, Nat.min_le_left _ _⟩
    · exact hs
  case doorReading r =>
    have h1 : (s.setComp { s.comp with door := r }).FiguresInRange := hs
    unfold State.readDoor
    split
    · exact hs
    · dsimp only
      split
      · exact figures_same (by simp) (by simp) h1
      · split <;> exact figures_same (by simp) (by simp) h1
  case keyReading r => exact hs
  case cashboxInsertion => exact hs
  case cashboxRemoval =>
    unfold State.removeCashbox State.dropHeldCollect
    (repeat' split)
    · exact figures_writeOff (figures_same (State.setCoin_comp _ _) (State.setCoin_credit _ _) (figures_closeTally hs))
    · exact figures_closeTally hs
    · exact hs
  case tallyRelease =>
    unfold State.releaseTally
    (repeat' split)
    case _ => exact hs
    case _ => exact hs
    case _ => exact hs
    exact figures_releaseClosedTally hs
  case stepBoundary =>
    unfold State.stepBoundary State.beginStep
    dsimp only
    (repeat' split)
    · exact figures_same (by simp) (by simp) hs
    · exact figures_lookAhead (figures_takeCharge (figures_same (s := s) (by simp) (by simp) hs))
    all_goals exact hs
  case polarityReversal =>
    unfold State.reversePolarity
    (repeat' split)
    case _ => exact figures_lineAnswered hs
    all_goals exact figures_same (by simp) (by simp) hs
  case presumedDelayEnd =>
    unfold State.endPresumedDelay
    split
    · exact figures_lineAnswered hs
    · exact hs
  case acknowledgeClassified => exact ite_holds (figures_applyAck hs) hs
  case offHook =>
    unfold State.liftHandset
    dsimp only
    (repeat' split)
    · exact hs
    · exact figures_openSession hs
    · exact hs
  case onHook =>
    dsimp only [State.replaceHandset]
    (repeat' split)
    case _ => exact hs
    case _ => exact hs
    case _ => exact hs
    all_goals exact figures_endSession hs
  case clearingEnd =>
    unfold State.endClearing
    dsimp only
    (repeat' split)
    · exact figures_openSession (figures_same (by simp) (by simp) hs)
    · exact figures_same (by simp) (by simp) hs
    · exact hs
  case stationInit => exact figures_stationInit hs
  case mainSupplyStart => exact figures_startUp hs
  case symbolKeyPress =>
    exact State.pressKey_keeps (fun _ => figures_same (by simp) (by simp)) (fun _ => figures_same (by simp) (by simp)) hs
  case followOnPress =>
    exact State.pressKey_keeps (fun _ => figures_same (by simp) (by simp)) (fun _ => figures_same (by simp) (by simp)) hs
  case clockSecond => (repeat' split) <;> exact figures_same (by simp) (by simp) hs
  case unknownRequest => exact ite_holds hs (figures_same (by simp) (by simp) hs)
  all_goals first
    | (refine figures_same ?_ ?_ hs <;> (simp; done))
    | exact hs

end Sys2Proof.Machine
end

