-- ==== Sys2Proof/Laws/Level.lean ====
section
/-! SUPPORT. R167: the level held is the one that the active records give. Every operation of the supervision unit keeps
it so. -/

namespace Sys2Proof.Machine

theorem derivedLevel_congr {v w : Supervision} (h : ∀ src, v.sourceLevel src = w.sourceLevel src) :
    v.derivedLevel = w.derivedLevel := by
  unfold Supervision.derivedLevel; rw [funext h]

theorem levelHeld_congr {s t : State} (h : t.sup = s.sup) (hs : State.LevelHeld s) : State.LevelHeld t := by
  unfold State.LevelHeld at *
  rw [h]
  exact hs

theorem levelHeld_deriveLevel (s) : State.LevelHeld (State.deriveLevel s) := by
  unfold State.LevelHeld State.deriveLevel
  dsimp only
  split
  · rename_i h
    exact h.symm
  · simp
    rfl

theorem State.sup_record (s : State) (src) : s.sup.records[src.idx] = s.record src := rfl

theorem levelHeld_putRecord {s : State} {src r r'} (hr : s.record src = some r) (ha : r'.active = r.active)
    (ht : r'.type = r.type) (hs : State.LevelHeld s) :
    State.LevelHeld (s.putRecord src (some r')) := by
  unfold State.LevelHeld at *
  have hl : (s.putRecord src (some r')).sup.level = s.sup.level := rfl
  rw [hl, hs]
  apply derivedLevel_congr
  intro src'
  unfold Supervision.sourceLevel
  rw [State.sup_record, State.sup_record, State.record_putRecord]
  by_cases h : src = src'
  · subst h
    rw [hr]
    simp only [ha, Supervision.restriction, ht, if_true]
    rfl
  · simp only [h, if_false]
    rfl

theorem levelHeld_recount {s : State} {src} (hs : State.LevelHeld s) : State.LevelHeld (s.recount src) := by
  unfold State.recount
  split
  · exact hs
  · rename_i h
    exact levelHeld_putRecord h (ConditionRecord.recount_same _ _ _).1 (ConditionRecord.recount_same _ _ _).2 hs

theorem levelHeld_setNormality {s : State} {src b} (hs : State.LevelHeld s) :
    State.LevelHeld (s.setNormality src b) := levelHeld_recount hs

theorem levelHeld_retire {s : State} {src} : State.LevelHeld (s.retire src) := levelHeld_deriveLevel _

theorem levelHeld_retireIfDue {s : State} {src} (hs : State.LevelHeld s) : State.LevelHeld (s.retireIfDue src) := by
  unfold State.retireIfDue; (repeat' split) <;> first | exact hs | exact levelHeld_retire

theorem levelHeld_clearRecord {s : State} {src} (hs : State.LevelHeld s) : State.LevelHeld (s.clearRecord src) := by
  unfold State.clearRecord
  split
  · exact hs
  · exact levelHeld_retireIfDue (levelHeld_deriveLevel _)

theorem levelHeld_clearActive {s : State} {src} (hs : s.recordActive src) : State.LevelHeld (s.clearRecord src) := by
  unfold State.clearRecord
  unfold State.recordActive at hs
  split
  · simp_all
  · exact levelHeld_retireIfDue (levelHeld_deriveLevel _)

theorem levelHeld_clearIfNormal {s : State} {src} (hs : State.LevelHeld s) :
    State.LevelHeld (s.clearIfNormal src) := by
  unfold State.clearIfNormal; (repeat' split) <;> first | exact hs | exact levelHeld_clearRecord hs

theorem levelHeld_occurrence {s : State} {src a b} :
    State.LevelHeld (s.occurrence src a b) := levelHeld_clearIfNormal (levelHeld_deriveLevel _)

theorem levelHeld_makeNormal {s : State} {src} (hs : State.LevelHeld s) :
    State.LevelHeld (s.makeNormal src) := levelHeld_clearIfNormal (levelHeld_setNormality hs)

theorem levelHeld_becomeAbnormal {s : State} {src a b} :
    State.LevelHeld (s.becomeAbnormal src a b) := levelHeld_occurrence

theorem levelHeld_setInput {s : State} {i x} (hr : x.assignment.restriction = s.sup.inputs[i].assignment.restriction)
    (hs : State.LevelHeld s) :
    State.LevelHeld (s.setInput i x) := by
  unfold State.LevelHeld at *
  have hl : (s.setInput i x).sup.level = s.sup.level := rfl
  rw [hl, hs]
  apply derivedLevel_congr
  intro src'
  unfold Supervision.sourceLevel Supervision.restriction
  have : (s.setInput i x).sup.records = s.sup.records := rfl
  rw [this]
  have hi : ∀ j : Fin 8, (s.setInput i x).sup.inputs[j].assignment.restriction =
      s.sup.inputs[j].assignment.restriction := by
    intro j
    unfold State.setInput
    simp only [State.setSup_sup, Fin.getElem_fin, Vector.getElem_set]
    split
    · rename_i h
      have : i = j := Fin.ext h
      subst this
      simpa using hr
    · rfl
  cases src' with
  | input j => have := hi j; simp only [this]
  | _ => rfl

theorem levelHeld_judgeThreshold {s : State} {a b c d} (hs : State.LevelHeld s) :
    State.LevelHeld (s.judgeThreshold a b c d) := by
  unfold State.judgeThreshold; (repeat' split)
  · exact levelHeld_becomeAbnormal
  · exact hs
  · exact hs
  · exact levelHeld_makeNormal hs

theorem levelHeld_judgeThresholds {s : State} (hs : State.LevelHeld s) :
    State.LevelHeld s.judgeThresholds := levelHeld_judgeThreshold (levelHeld_judgeThreshold hs)

theorem levelHeld_removeSnapshot {s : State} {src} (hs : State.LevelHeld s) :
    State.LevelHeld (s.removeSnapshot src) := by
  unfold State.removeSnapshot; (repeat' split)
  · exact hs
  · exact hs
  · rename_i h _ _ _
    exact levelHeld_retireIfDue (levelHeld_putRecord h rfl rfl hs)

theorem levelHeld_placeSnapshot {s : State} {i} (hs : State.LevelHeld s) : State.LevelHeld (s.placeSnapshot i) := by
  unfold State.placeSnapshot; (repeat' split)
  · exact hs
  · rename_i h
    exact (levelHeld_putRecord h rfl rfl hs)

theorem levelHeld_ackRecord {s : State} {src} (hs : State.LevelHeld s) : State.LevelHeld (s.ackRecord src) := by
  unfold State.ackRecord
  cases h : s.record src with
  | none => exact hs
  | some r =>
    cases h1 : r.snapshot with
    | none => simpa [h1] using hs
    | some snap =>
      simp only [h1]
      cases h2 : r.acknowledge s.clock.time snap with
      | none => exact levelHeld_retire
      | some r' =>
        have hp := levelHeld_putRecord h (ConditionRecord.acknowledge_some h2).1
            (ConditionRecord.acknowledge_some h2).2 hs
        dsimp only
        apply levelHeld_retireIfDue
        split
        · exact hp
        · exact levelHeld_congr (by simp) hp

theorem levelHeld_releaseClosedTally {s : State} :
    State.LevelHeld s.releaseClosedTally := levelHeld_setNormality levelHeld_retire

theorem levelHeld_ackCollection {s : State} (hs : State.LevelHeld s) : State.LevelHeld s.ackCollection := by
  unfold State.ackCollection
  cases h : s.record .collection with
  | none => exact hs
  | some r =>
    dsimp only
    (repeat' split)
    · exact levelHeld_ackRecord (levelHeld_congr (by simp) hs)
    · exact levelHeld_releaseClosedTally
    · exact levelHeld_putRecord h rfl rfl hs
    · exact levelHeld_congr (s := s.putRecord .collection (some (r.keepOutstanding s.clock.time _)))
          (by simp <;> rfl) (levelHeld_putRecord h rfl rfl hs)
    · exact levelHeld_ackRecord hs

theorem levelHeld_ackIncluded {s : State} {i} (hs : State.LevelHeld s) : State.LevelHeld (s.ackIncluded i) := by
  unfold State.ackIncluded; split <;> first | exact levelHeld_ackCollection hs | exact levelHeld_ackRecord hs

theorem levelHeld_of_inactive {s : State} {i x} (h : s.recordActive (.input i) = false) (hs : State.LevelHeld s) :
    State.LevelHeld (s.setInput i x) := by
  unfold State.LevelHeld at *
  have hl : (s.setInput i x).sup.level = s.sup.level := rfl
  rw [hl, hs]
  apply derivedLevel_congr
  intro src'
  unfold Supervision.sourceLevel
  have : (s.setInput i x).sup.records = s.sup.records := rfl
  rw [this, State.sup_record]
  by_cases hsrc : src' = .input i
  · subst hsrc
    unfold State.recordActive at h
    split <;> simp_all
  · cases src' with
    | input j =>
      have hj : i.val ≠ j.val := fun hc => hsrc (by rw [Fin.ext hc])
      have : (s.setInput i x).sup.inputs[j] = s.sup.inputs[j] := by
        unfold State.setInput
        simp only [State.setSup_sup, Fin.getElem_fin, Vector.getElem_set, hj, if_false]
      simp only [Supervision.restriction, this]
    | _ => rfl

theorem recordActive_congr {s t : State} (h : t.sup.records = s.sup.records) (src) :
    t.recordActive src = s.recordActive src := by
  unfold State.recordActive State.record
  rw [h]

theorem recordActive_recount {s : State} (src src') : (s.recount src).recordActive src' = s.recordActive src' := by
  unfold State.recount
  split
  · rfl
  · rename_i h
    unfold State.recordActive
    rw [State.record_putRecord]
    by_cases hc : src = src'
    · subst hc
      simp [h, (ConditionRecord.recount_same _ _ _).1]
    · simp [hc]

theorem recordActive_setNormality {s : State} (src b src') :
    (s.setNormality src b).recordActive src' = s.recordActive src' := recordActive_recount _ _

theorem levelHeld_unuseInput {s : State} {i a} (hs : State.LevelHeld s) : State.LevelHeld (s.unuseInput i a) := by
  unfold State.unuseInput
  dsimp only
  split
  · rename_i h
    exact levelHeld_clearActive h
  · rename_i h
    apply levelHeld_setNormality
    apply levelHeld_of_inactive _ hs
    rw [recordActive_setNormality] at h
    exact Bool.eq_false_iff.mpr h

theorem levelHeld_assignInput {s : State} {i a} : State.LevelHeld (s.assignInput i a) := levelHeld_deriveLevel _

theorem levelHeld_takeStaged {s : State} {i} (hs : State.LevelHeld s) : State.LevelHeld (s.takeStaged i) := by
  unfold State.takeStaged; (repeat' split)
  · exact levelHeld_assignInput
  · exact hs
  · exact hs

theorem levelHeld_inputOccurs {s : State} {i} : State.LevelHeld (s.inputOccurs i) := levelHeld_becomeAbnormal

theorem levelHeld_countEdge {s : State} {i} (hs : State.LevelHeld s) : State.LevelHeld (s.countEdge i) :=
  ite_holds levelHeld_inputOccurs (levelHeld_setInput rfl hs)

theorem levelHeld_takeEdge {s : State} {i} (hs : State.LevelHeld s) : State.LevelHeld (s.takeEdge i) := by
  unfold State.takeEdge
  split
  · exact levelHeld_inputOccurs
  · split
    · exact levelHeld_inputOccurs
    · exact hs
  · exact levelHeld_countEdge hs

theorem levelHeld_activeEdge {s : State} {i} (hs : State.LevelHeld s) : State.LevelHeld (s.activeEdge i) := by
  unfold State.activeEdge
  dsimp only
  (repeat' split)
  · exact hs
  · exact levelHeld_takeEdge (levelHeld_recount (levelHeld_setInput rfl hs))
  · exact (levelHeld_recount (levelHeld_setInput rfl hs))

theorem levelHeld_inactiveChange {s : State} {i} (hs : State.LevelHeld s) : State.LevelHeld (s.inactiveChange i) := by
  unfold State.inactiveChange
  dsimp only
  split
  · exact levelHeld_takeStaged (levelHeld_recount (levelHeld_setInput rfl hs))
  · exact hs

theorem levelHeld_endWindow {s : State} {i} (hs : State.LevelHeld s) : State.LevelHeld (s.endWindow i) := by
  unfold State.endWindow
  dsimp only
  split
  · exact levelHeld_takeStaged (levelHeld_setInput rfl (levelHeld_congr rfl hs))
  · exact hs

theorem levelHeld_endHoldOff {s : State} {i} (hs : State.LevelHeld s) : State.LevelHeld (s.endHoldOff i) := by
  unfold State.endHoldOff
  dsimp only
  split
  · exact levelHeld_takeStaged (levelHeld_setInput rfl (levelHeld_congr rfl hs))
  · exact hs

theorem levelHeld_endClearDelay {s : State} {i} (hs : State.LevelHeld s) : State.LevelHeld (s.endClearDelay i) := by
  unfold State.endClearDelay
  dsimp only
  split
  · exact levelHeld_makeNormal (levelHeld_setInput rfl (levelHeld_congr rfl hs))
  · exact hs

theorem levelHeld_applyAssignment {s : State} {i a b} (hs : State.LevelHeld s) :
    State.LevelHeld (s.applyAssignment i a b).1 := by
  unfold State.applyAssignment
  (repeat' split)
  · exact levelHeld_unuseInput hs
  · exact levelHeld_assignInput
  · exact levelHeld_setInput rfl hs

theorem levelHeld_removeSnapshots {s : State} (hs : State.LevelHeld s) :
    State.LevelHeld s.removeSnapshots := foldl_holds (f := fun s src => s.removeSnapshot src)
    (fun _ _ => levelHeld_removeSnapshot) _ hs

theorem levelHeld_bankActive {s : State} (hs : State.LevelHeld s) : State.LevelHeld s.bankActive := by
  unfold State.LevelHeld at *
  have hl : s.bankActive.sup.level = s.sup.level := rfl
  rw [hl, hs]
  apply derivedLevel_congr
  intro src
  unfold Supervision.sourceLevel State.bankActive
  simp only [State.setSup_sup, Fin.getElem_fin, Vector.getElem_map]
  cases h : s.sup.records[src.idx.val] with
  | none => rfl
  | some r =>
    have := ConditionRecord.recount_same s.now false r
    simp only [Option.map_some, ConditionRecord.bank, this.1, Supervision.restriction, this.2]

/-- R170: the level that a start-up derives is the one held. -/
theorem levelHeld_holdLevel {s : State} : State.LevelHeld s.holdLevel := by
  unfold State.LevelHeld State.holdLevel
  simp only [State.setAttention_sup, State.setSup_sup]
  rfl

theorem levelHeld_loseMain {s : State} (hs : State.LevelHeld s) : State.LevelHeld s.loseMain := by
  unfold State.loseMain
  split
  · exact levelHeld_congr (by simp) (levelHeld_bankActive hs)
  · exact hs

/-- R192: the changes of a start-up end with those of the account, after the level is derived. -/
theorem State.makeChanges_startChanges (r : StartReadings) (lost : Nat) (s : State) :
    ∃ u : State, s.makeChanges (State.startChanges r lost) = u.holdLevel.addStartForfeit.clearBanked :=
by
  simp only [State.makeChanges, State.startChanges, List.foldl_append, List.foldl_cons, List.foldl_nil]
  exact ⟨_, rfl⟩

theorem levelHeld_startUp {r s} : State.LevelHeld (State.startUp r s) := by
  unfold State.startUp
  split
  · refine levelHeld_congr (State.fullStart_frame r s).2.2.2.2 ?_
    obtain ⟨u, hu⟩ := State.makeChanges_startChanges r (s.retentionCount r) (s.startTables r)
    rw [hu]
    exact levelHeld_congr (s := u.holdLevel) (by simp) levelHeld_holdLevel
  · next written _ =>
    exact levelHeld_congr (s := (s.cutTables r written).holdLevel.bankActive) (by simp [State.cutJudging])
      (levelHeld_bankActive levelHeld_holdLevel)
  · exact levelHeld_loseMain levelHeld_holdLevel

/-- R167 as a law over the condition table. -/
theorem levelHeld_keeper : TableKeeper State.LevelHeld where
  congr h _ hs := levelHeld_congr h hs
  occurrence _ _ _ := levelHeld_occurrence
  setNormality _ := levelHeld_setNormality
  clearIfNormal := levelHeld_clearIfNormal
  clearRecord _ := levelHeld_clearRecord
  retireIfDue := levelHeld_retireIfDue
  removeSnapshot := levelHeld_removeSnapshot
  placeSnapshot := levelHeld_placeSnapshot
  ackIncluded := levelHeld_ackIncluded
  releaseClosedTally _ := levelHeld_releaseClosedTally
  lateCoin _ _ := levelHeld_occurrence
  closure _ := levelHeld_becomeAbnormal
  activeEdge := levelHeld_activeEdge
  inactiveChange := levelHeld_inactiveChange
  endWindow := levelHeld_endWindow
  endHoldOff := levelHeld_endHoldOff
  endClearDelay := levelHeld_endClearDelay
  applyAssignment := levelHeld_applyAssignment
  bankActive := levelHeld_bankActive
  startUp _ := levelHeld_startUp

end Sys2Proof.Machine
end

