-- ==== Sys2Proof/Laws/Money.lean ====
section
/-! SUPPORT. The account's laws (R22, R26): what settling, charging and writing off keep of them, and that every command keeps them. -/

namespace Sys2Proof.Machine

/-- The bounds of the account: B in its range, at most four owed entries, none empty. -/
def State.OwedBounds (s : State) : Prop := s.credit.banked ≤ 65535 ∧ s.credit.owed.length ≤ 4 ∧ (∀ e ∈ s.credit.owed, 1 ≤ e.amount)

theorem owedLaw_iff (s : State) :
    s.OwedLaw ↔ (s.credit.banked ≤ 65535 ∧ s.credit.owed.length ≤ 4 ∧ (∀ e ∈ s.credit.owed, 1 ≤ e.amount)) ∧
    (s.credit.owed ≠ [] → s.credit.banked = 0 ∧ GateCycle.collects s.coin.cycle = true) := by
  unfold State.OwedLaw; exact ⟨fun ⟨a,b,c,d⟩ => ⟨⟨a,b,c⟩,d⟩, fun ⟨⟨a,b,c⟩,d⟩ => ⟨a,b,c,d⟩⟩

theorem cif (c : CoinPath) : c.collectInFlight = GateCycle.collects c.cycle := rfl

theorem owedLaw_of {s t : State} (h : t.credit = s.credit) (h' : t.coin.cycle = s.coin.cycle) (hs : State.OwedLaw s) :
    State.OwedLaw t := by
  rw [owedLaw_iff] at *
  rw [h, h']
  exact hs

theorem owedLaw_congr {s t : State} (h : t.credit = s.credit) (h' : t.coin = s.coin) (hs : State.OwedLaw s) :
    State.OwedLaw t := owedLaw_of h (by rw [h']) hs

theorem owedBounds_congr {s t : State} (h : t.credit = s.credit) (hs : State.OwedBounds s) : State.OwedBounds t := by
  unfold State.OwedBounds at *
  rw [h]
  exact hs

theorem owedLaw_bounds {s} (hs : State.OwedLaw s) : State.OwedBounds s := ((owedLaw_iff s).1 hs).1

theorem payOwed_spec (b l) :
    (payOwed b l).1 ≤ b ∧ (payOwed b l).2.length ≤ l.length ∧
    ((∀ e ∈ l, 1 ≤ e.amount) → ∀ e ∈ (payOwed b l).2, 1 ≤ e.amount) ∧ ((payOwed b l).2 ≠ [] → (payOwed b l).1 = 0) :=
    by
  induction l generalizing b with
  | nil => simp [payOwed]
  | cons e r ih =>
    unfold payOwed
    split
    · have := ih (b - e.amount)
      refine ⟨by omega, by simp; omega, fun h => this.2.2.1 (fun x hx => h x (by simp [hx])), this.2.2.2⟩
    · refine ⟨by simp, by simp, ?_, by simp⟩
      intro h x hx
      simp at hx
      rcases hx with rfl | hx
      · simp
        omega
      · exact h x (by simp [hx])

theorem owedLaw_writeOff {s} (hs : State.OwedBounds s) : State.OwedLaw s.writeOff := by
  rw [owedLaw_iff]
  unfold State.writeOff
  have h : ∀ l (t : State), (List.foldl (fun s e => State.writeOffEntry e s) t l).credit = t.credit := fun l t =>
      foldl_keeps State.credit _ (by simp) l t
  unfold State.OwedBounds at hs
  simp [h]
  exact hs.1

theorem owedLaw_requestCollect {s} (hs : State.OwedBounds s) (h0 : s.credit.owed ≠ [] → s.credit.banked = 0) :
    State.OwedLaw s.requestCollect := by
  unfold State.requestCollect
  (repeat' split)
  · rw [owedLaw_iff]; exact ⟨hs, fun h => ⟨h0 h, by assumption⟩⟩
  · rw [owedLaw_iff]; exact ⟨hs, fun h => ⟨h0 h, rfl⟩⟩
  · exact owedLaw_writeOff hs

theorem owedLaw_settle {s} (hs : State.OwedBounds s) : State.OwedLaw s.settle := by
  unfold State.settle
  have hp := payOwed_spec s.credit.banked s.credit.owed
  have hb : State.OwedBounds
      (s.setCredit { s.credit with banked := (payOwed s.credit.banked s.credit.owed).1, owed := (payOwed s.credit.banked s.credit.owed).2 }) := by
    unfold State.OwedBounds at *
    refine ⟨?_, ?_, ?_⟩
    · simp
      omega
    · simp
      omega
    · exact hp.2.2.1 hs.2.2
  dsimp only
  split
  · rw [owedLaw_iff]; exact ⟨hb, fun h => absurd (by assumption) h⟩
  · split
    · rw [owedLaw_iff]; exact ⟨hb, fun h => ⟨hp.2.2.2 h, by assumption⟩⟩
    · split
      · exact owedLaw_writeOff hb
      · exact owedLaw_requestCollect hb hp.2.2.2

theorem owedBounds_addBanked {a s} (hs : State.OwedBounds s) : State.OwedBounds (State.addBanked a s) := by
  unfold State.addBanked
  dsimp only
  split
  · exact owedBounds_congr (by simp) hs
  · refine owedBounds_congr (by simp <;> rfl) (s := s.setCredit _) ?_
    unfold State.OwedBounds at *
    exact ⟨Nat.min_le_left _ _, hs.2⟩
  · refine owedBounds_congr (by simp <;> rfl) (s := s.setCredit _) ?_
    unfold State.OwedBounds at *
    exact ⟨Nat.min_le_left _ _, hs.2⟩

theorem joinOwed_spec (c x) (hx : 1 ≤ x) (l) :
    ((joinOwed c x l).length ≤ l.length + 1) ∧ (newestIsOf c l = true → (joinOwed c x l).length ≤ l.length) ∧
    ((∀ e ∈ l, 1 ≤ e.amount) → ∀ e ∈ joinOwed c x l, 1 ≤ e.amount) := by
  induction l with
  | nil => simp [joinOwed, newestIsOf, hx]
  | cons e r ih =>
    cases r with
    | nil =>
      unfold joinOwed
      simp [newestIsOf]
      split
      · simp
        omega
      · simp [*]
    | cons e2 r2 =>
      unfold joinOwed
      have h2 : newestIsOf c (e :: e2 :: r2) = newestIsOf c (e2 :: r2) :=
          by unfold newestIsOf; simp [List.getLast?_cons_cons]
      rw [h2]
      simp only [List.length_cons, List.mem_cons, forall_eq_or_imp] at *
      refine ⟨by omega, fun h => by have := ih.2.1 h; omega, fun h => ⟨h.1, ih.2.2 h.2⟩⟩

theorem owedLaw_takeCharge {c x s} (hs : State.OwedLaw s) : State.OwedLaw (State.takeCharge c x s) := by
  unfold State.takeCharge
  split
  · exact hs
  · dsimp only
    apply owedLaw_settle
    have hb := owedLaw_bounds hs
    have : State.OwedBounds (s.makeRoom c) ∧
        ((s.makeRoom c).credit.owed.length < 4 ∨ newestIsOf c (s.makeRoom c).credit.owed = true) := by
      unfold State.makeRoom
      unfold State.OwedBounds at *
      split
      · rename_i h
        split
        · rename_i h2
          simp [h2] at h
        · rename_i h2
          rw [h2] at hb
          simp at *
          refine ⟨⟨hb.1, by omega, hb.2.2.2⟩, by left; omega⟩
      · rename_i h
        refine ⟨hb, ?_⟩
        simp only [not_and, Bool.not_eq_false] at h
        by_cases h4 : 4 ≤ s.credit.owed.length
        · exact Or.inr (h h4)
        · left; omega
    obtain ⟨h1, h2⟩ := this
    have hj := joinOwed_spec c x (by omega) (s.makeRoom c).credit.owed
    unfold State.OwedBounds at *
    refine ⟨h1.1, ?_, hj.2.2 h1.2.2⟩
    simp
    rcases h2 with h2 | h2
    · omega
    · have := hj.2.1 h2
      omega

theorem owedLaw_completeCollect {g s} (hs : State.OwedLaw s) : State.OwedLaw (State.completeCollect g s) := by
  have hb := owedLaw_bounds hs
  dsimp only [State.completeCollect]
  (repeat' split)
  · exact owedLaw_settle (owedBounds_congr (by simp) hb)
  · exact owedLaw_settle (owedBounds_addBanked (owedBounds_congr (by simp) hb))
  · exact owedLaw_settle (owedBounds_congr (by simp) hb)

theorem owedLaw_idle {s : State} (hs : State.OwedLaw s) (h : GateCycle.collects s.coin.cycle = false) :
    s.credit.owed = [] := by
  have := ((owedLaw_iff s).1 hs).2
  rw [h] at this
  by_cases h : s.credit.owed = []
  · exact h
  · exact absurd (this h).2 (by simp)

theorem owedLaw_free {s : State} (hb : State.OwedBounds s) (h : s.credit.owed = []) :
    State.OwedLaw s := (owedLaw_iff s).2 ⟨hb, fun h' => absurd h h'⟩

theorem owedLaw_coin {s : State} {c} (h : GateCycle.collects c.cycle = GateCycle.collects s.coin.cycle)
    (hs : State.OwedLaw s) :
    State.OwedLaw (s.setCoin c) := by
  rw [owedLaw_iff]; have := (owedLaw_iff s).1 hs; refine ⟨this.1, fun h' => ⟨(this.2 h').1, ?_⟩⟩
  have := (this.2 h').2
  exact h.trans this

theorem owedLaw_requestRefund {a b s} (hs : State.OwedLaw s) : State.OwedLaw (State.requestRefund a b s) := by
  unfold State.requestRefund
  split <;> exact owedLaw_coin rfl hs

theorem owedLaw_countUnconfirmed {s} (hs : State.OwedLaw s) : State.OwedLaw (State.countUnconfirmed s) := by
  unfold State.countUnconfirmed
  split
  · exact owedLaw_coin rfl hs
  · exact owedLaw_congr (by simp) (by simp) (owedLaw_coin (c := { s.coin with streak := 0 }) rfl hs)

theorem owedLaw_cashboxArrival {s} (hs : State.OwedLaw s) : State.OwedLaw s.cashboxArrival := by
  unfold State.cashboxArrival
  dsimp only
  split
  · rename_i e rest _
    have h1 : State.OwedLaw (State.settle (State.addBanked e.value (s.setCoin { s.coin with transit := rest }))) :=
        owedLaw_settle (owedBounds_addBanked (owedBounds_congr (by simp) (owedLaw_bounds hs)))
    exact owedLaw_coin rfl (owedLaw_congr (by simp) (by simp) h1)
  · exact owedLaw_congr (by simp) (by simp) hs

theorem owedLaw_rateAnswer {p s} (hs : State.OwedLaw s) : State.OwedLaw (State.rateAnswer p s).1 := by
  dsimp only [State.rateAnswer]
  (repeat' split)
  · exact owedLaw_congr (by simp) (by simp) hs
  · apply owedLaw_congr (s := State.takeCharge _ _ (State.takeCharge _ _ _)) (by simp; rfl) (by simp <;> rfl)
    apply owedLaw_takeCharge
    apply owedLaw_takeCharge
    exact owedLaw_congr (by simp) (by simp) hs
  · exact owedLaw_congr (by simp) (by simp) hs
  · exact hs

theorem owedLaw_lineAnswered {p s} (hs : State.OwedLaw s) : State.OwedLaw (State.lineAnswered p s) := by
  dsimp only [State.lineAnswered, State.sessionAnswered]
  have h := fun (t : State) (h : t.credit = s.credit) (h' : t.coin = s.coin) => owedLaw_rateAnswer (p := p)
      (owedLaw_congr h h' hs)
  (repeat' split) <;> first
    | (refine owedLaw_congr ?_ ?_ hs <;> (simp; done))
    | (refine owedLaw_congr ?_ ?_ (h ((s.setLine s.line.answered).setSession { (s.setLine s.line.answered).session with state := .connected }) rfl rfl) <;> first | (simp; done) | (simp; rfl))

theorem owedLaw_endSession {p s} (hs : State.OwedLaw s) : State.OwedLaw (State.endSession p s) := by
  dsimp only [State.endSession]
  apply owedLaw_requestRefund
  unfold State.closeAccount
  have h1 : State.OwedLaw
      ((State.endCall p s).setSession { (State.endCall p s).session with state := .clearing, timer := none }) :=
      owedLaw_congr (by simp) (by simp) hs
  split
  · rw [owedLaw_iff] at *
    exact h1
  · exact h1

/-- R192: while a start-up runs B is in its range and nothing is owed. -/
def State.OwesNothing (s : State) : Prop := s.credit.banked ≤ 65535 ∧ s.credit.owed = []

theorem owesNothing_congr {s t : State} (h : t.credit = s.credit) (hs : s.OwesNothing) : t.OwesNothing := by
  unfold State.OwesNothing at *
  rw [h]
  exact hs

theorem owedLaw_of_owesNothing {s : State} (hs : s.OwesNothing) : State.OwedLaw s := by
  obtain ⟨h1, h2⟩ := hs
  rw [owedLaw_iff, h2]
  exact ⟨⟨h1, by simp, by simp⟩, fun h => absurd rfl h⟩

theorem owesNothing_restartWith {lost u s} (hs : s.credit.banked ≤ 65535) : (State.restartWith lost u s).OwesNothing := by
  unfold State.OwesNothing State.restartWith Credit.startUp
  exact ⟨by dsimp only; split <;> omega, rfl⟩

/-- R39, R192: every change of a start-up keeps B in its range and nothing owed. -/
theorem owesNothing_startChanges {r lost} {changes : List (State → State)} {s : State}
    (hc : ∀ f ∈ changes, f ∈ State.startChanges r lost) (hs : s.OwesNothing) : (s.makeChanges changes).OwesNothing := by
  refine State.startChanges_law (P := State.OwesNothing) ?_ ?_ ?_ ?_ ?_ ?_ ?_ ?_ ?_ ?_ ?_ lost hc s hs
  case refine_11 => exact fun s h => ⟨Nat.zero_le _, h.2⟩
  all_goals
    intros
    refine owesNothing_congr ?_ (by assumption)
    simp

theorem owedLaw_startUp {r s} (hs : State.OwedLaw s) : State.OwedLaw (State.startUp r s) := by
  have hb : s.bankActive.credit.banked ≤ 65535 := by simpa using (owedLaw_bounds hs).1
  have tables : (s.startTables r).OwesNothing :=
    owesNothing_congr (s := s.bankActive.restartBlocks r) (by simp [State.startTables])
      (owesNothing_restartWith (s := s.bankActive) hb)
  unfold State.startUp
  split
  · refine owedLaw_congr (s := State.requestRefund true false _) (by simp [State.fullStart]; rfl) (by simp [State.fullStart])
      (owedLaw_requestRefund (owedLaw_of_owesNothing (owesNothing_startChanges (fun _ hf => hf) tables)))
  · next written _ =>
    exact owedLaw_of_owesNothing (owesNothing_congr
      (s := s.bankActive.restartWith (fun q => s.defaulted r q && q ∈ written) s.supplies)
      (by simp [State.cutJudging, State.cutTables]) (owesNothing_restartWith (s := s.bankActive) hb))
  · next n _ =>
    exact owedLaw_of_owesNothing (owesNothing_congr
      (s := (s.startTables r).makeChanges ((State.startChanges r (s.retentionCount r)).take n)) (by simp [State.cutAfter])
      (owesNothing_startChanges (State.mem_of_take n) tables))

theorem owedLaw_work (c : Instr) (s : State) (hs : State.OwedLaw s) : State.OwedLaw (Instr.work c s) := by
  cases c <;> dsimp only [Instr.work]
  case validatorAccepted => exact ite_holds (P := State.OwedLaw) (owedLaw_coin rfl hs) (owedLaw_countUnconfirmed hs)
  case columnEntryPulse =>
    unfold State.columnPulse State.passToCup State.enterColumn State.refundBetweenSessions
    (repeat' split) <;> first | exact owedLaw_requestRefund (owedLaw_coin rfl hs) | exact owedLaw_coin rfl (owedLaw_coin rfl hs) | exact owedLaw_coin rfl hs | exact owedLaw_countUnconfirmed hs
  case cashboxEntryPulse =>
    unfold State.cashboxPulse
    split
    · rename_i h
      exact owedLaw_coin (by rw [h]; rfl) hs
    · exact owedLaw_completeCollect hs
    all_goals exact owedLaw_cashboxArrival hs
  case transitWindowEnd =>
    unfold State.expireTransit
    split
    · exact hs
    · exact owedLaw_countUnconfirmed (owedLaw_coin rfl (owedLaw_congr rfl rfl hs))
  case refundCycleStart =>
    unfold State.startRefund State.orphanColumn State.refundStarts
    by_cases h : s.coin.cycle = .idle ∧ s.coin.transit.any TransitEntry.noted = false
    · rw [if_pos h]
      split
      · exact hs
      · split
        · exact owedLaw_coin rfl (owedLaw_coin rfl hs)
        · exact owedLaw_coin (by rw [h.1]; rfl) hs
    · rw [if_neg h]
      exact hs
  case collectCycleStart =>
    unfold State.startCollect State.collectStarts
    split
    · rename_i h
      simp at h
      exact owedLaw_coin (by rw [h.1]; rfl) hs
    · exact hs
  case collectGateHome =>
    unfold State.collectHome
    dsimp only
    have h1 : State.OwedLaw (s.makeNormal .collectGate) := owedLaw_congr (by simp) (by simp) hs
    split
    · exact owedLaw_completeCollect h1
    · rename_i h
      exact owedLaw_coin (by rw [h]; rfl) h1
    all_goals exact h1
  case collectWindowTimeout =>
    unfold State.timeOutCollect
    dsimp only
    split
    · have : State.OwedLaw (State.occurrence .collectGate .gateJam .fault (s.reach (by assumption))).writeOff :=
          owedLaw_writeOff (owedBounds_congr (by simp) (owedLaw_bounds hs))
      have hn : (State.occurrence .collectGate .gateJam .fault (s.reach (by assumption))).writeOff.credit.owed =
          [] := by unfold State.writeOff; simp
      rename_i e _ _ _
      refine owedLaw_free (owedBounds_congr (by simp <;> rfl)
          (owedLaw_bounds (s := (State.occurrence .collectGate .gateJam .fault (s.reach e)).writeOff)
          (owedLaw_writeOff (owedBounds_congr (by simp) (owedLaw_bounds hs))))) ?_
      simp
      unfold State.writeOff
      simp
    all_goals exact hs
  case refundGateHome =>
    have h1 : State.OwedLaw (s.makeNormal .refundGate) := owedLaw_congr (by simp) (by simp) hs
    unfold State.refundHome
    dsimp only
    (repeat' split)
    · rename_i h _
      exact owedLaw_congr (State.setCurrent_frame _ _).2.2.2.2.1 (State.setCurrent_frame _ _).2.2.2.1
          (owedLaw_coin (by rw [h]; rfl) h1)
    · rename_i h _
      exact owedLaw_coin (by rw [h]; rfl) h1
    all_goals exact h1
  case refundWindowTimeout =>
    unfold State.timeOutRefund State.orphanColumn
    dsimp only
    split
    · rename_i h;
      refine owedLaw_coin ?_ (owedLaw_coin rfl (owedLaw_congr (by simp) (by simp) hs))
      simp [h]
    all_goals exact hs
  case returnCupPulse => exact owedLaw_coin rfl hs
  case returnCupWatchEnd =>
    unfold State.endWatch
    split
    · exact hs
    · rename_i w rest _
      refine owedLaw_congr (by simp <;> rfl) (by simp <;> rfl)
          (owedLaw_coin (s := s.reach w.watchEnds) (c := { s.coin with watches := rest }) rfl
          (owedLaw_congr rfl rfl hs))
  case sessionEndClose =>
    unfold State.closeSessionAccount State.closeStands
    split
    · rename_i h
      simp at h
      refine owedLaw_congr (by simp <;> rfl) (by simp <;> rfl) (owedLaw_free (s := s.setCredit _) ?_ ?_)
      · have := owedLaw_bounds hs
        unfold State.OwedBounds at *
        simp
        exact this.2
      · exact h.1.2
    · exact hs
  case cashboxRemoval =>
    unfold State.removeCashbox State.dropHeldCollect; (repeat' split)
    · exact owedLaw_writeOff (owedBounds_congr (by simp) (owedLaw_bounds hs))
    · exact owedLaw_congr (by simp) (by simp) hs
    · exact hs
  case stepBoundary =>
    unfold State.stepBoundary State.beginStep
    dsimp only
    (repeat' split)
    · exact owedLaw_congr (by simp) (by simp) hs
    · refine owedLaw_congr (by simp <;> rfl) (by simp <;> rfl)
          (owedLaw_takeCharge (owedLaw_congr (by simp <;> rfl) (by simp <;> rfl) hs))
    all_goals exact hs
  case polarityReversal =>
    unfold State.reversePolarity
    (repeat' split)
    case _ => exact owedLaw_lineAnswered hs
    all_goals exact owedLaw_congr (by simp) (by simp) hs
  case presumedDelayEnd =>
    unfold State.endPresumedDelay
    (repeat' split)
    · apply owedLaw_lineAnswered
      exact owedLaw_congr rfl rfl hs
    · exact hs
  case offHook =>
    have h1 : State.OwedLaw ((s.setSession { s.session with hook := .off}).openSession) := by
      unfold State.openSession
      dsimp only
      have : State.OwedLaw (State.openAccount (s.setSession { s.session with hook := .off})) := by
        unfold State.openAccount
        have := (owedLaw_iff s).1 hs
        rw [owedLaw_iff]
        exact this
      exact owedLaw_congr (by simp <;> rfl) (by simp <;> rfl) this
    unfold State.liftHandset; dsimp only; (repeat' split)
    · exact hs
    · exact h1
    · exact owedLaw_congr rfl rfl hs
  case clearingEnd =>
    have : ∀ t, State.OwedLaw t → State.OwedLaw (State.openSession t) := by
      intro t ht
      unfold State.openSession
      dsimp only
      have : State.OwedLaw (State.openAccount t) := by
        unfold State.openAccount
        have := (owedLaw_iff t).1 ht
        rw [owedLaw_iff]
        exact this
      exact owedLaw_congr (by simp <;> rfl) (by simp <;> rfl) this
    unfold State.endClearing; dsimp only; (repeat' split)
    · apply this
      exact owedLaw_congr (by simp) (by simp) hs
    · exact owedLaw_congr (by simp) (by simp) hs
    · exact hs
  case onHook =>
    dsimp only [State.replaceHandset]
    (repeat' split)
    case _ => exact hs
    case _ => exact owedLaw_congr (by simp) (by simp) hs
    case _ => exact owedLaw_congr (by simp) (by simp) hs
    all_goals apply owedLaw_endSession; exact owedLaw_congr (by simp) (by simp) hs
  case conditionClear =>
    dsimp only [State.clearCode, State.judgeClear, State.clearCondition]
    (repeat' split) <;> first | exact hs | (refine owedLaw_requestRefund (owedLaw_congr ?_ ?_ hs) <;> (simp; done)) | (refine (owedLaw_congr ?_ ?_ hs) <;> (simp; done))
  case stationInit =>
    have h : State.OwedLaw (s.resetReport.initSession) := by
      dsimp only [State.initSession]
      have h0 : State.OwedLaw s.resetReport := owedLaw_congr (by simp) (by simp) hs
      (repeat' split)
      · exact owedLaw_congr (by simp <;> rfl) (by simp <;> rfl) (owedLaw_endSession h0)
      · apply owedLaw_requestRefund h0
      all_goals apply owedLaw_endSession h0
    dsimp only [State.stationInit]
    exact owedLaw_of (by simp <;> rfl) (by simp <;> rfl) h
  case mainSupplyStart => exact owedLaw_startUp hs
  case symbolKeyPress =>
    exact State.pressKey_keeps (fun _ => owedLaw_congr (by simp) (by simp))
        (fun _ => owedLaw_congr (by simp) (by simp)) hs
  case followOnPress =>
    exact State.pressKey_keeps (fun _ => owedLaw_congr (by simp) (by simp))
        (fun _ => owedLaw_congr (by simp) (by simp)) hs
  case clockSecond => (repeat' split) <;> exact owedLaw_congr (by simp) (by simp) hs
  case unknownRequest => (repeat' split) <;> exact owedLaw_congr (by simp) (by simp) hs
  case validatorRejected => exact owedLaw_coin rfl hs
  case' tallyRelease | tariffPut | tariffWithdraw => skip
  any_goals exact hs
  any_goals (refine owedLaw_congr ?_ ?_ hs <;> (simp; done))

end Sys2Proof.Machine
end

