-- ==== Sys2Proof/Laws/PerInstr.lean ====
section
/-! SUPPORT. What holds of every command as syntax, one lemma per constructor: the transfer that brings a well-formed
command on a port has at most 258 bytes, three of header and at most 255 of body (R186). -/

namespace Sys2Proof.Laws.Framing

/-- The transfer that brings a well-formed command fits a header and 255 bytes of body. -/
def Statement (i : Sys2Proof.Instr) : Prop :=
  i.wellFormed = true → ∀ p bytes, encodeTransfer i = some (p, bytes) → 1 ≤ bytes.length ∧ bytes.length ≤ 258

/-- A command that no transfer brings. -/
theorem statement_of_none {i : Instr} (h : encodeTransfer i = none) : Statement i := by
  intro _ p bytes hb
  rw [h] at hb
  cases hb

/-- A request: a header of three bytes before its body. -/
theorem statement_of_frame {i : Instr} {port : Port} {kind : Nat} {tag : Byte} {body : List Byte}
    (h : encodeTransfer i = some (port, frame kind tag body)) (hb : i.wellFormed = true → body.length ≤ 255) :
    Statement i := by
  intro hw p bytes hp
  rw [h] at hp
  cases hp
  have := hb hw
  simp only [frame, List.length_cons]
  omega

theorem validatorAccepted (cls : Fin 16) : Statement (.validatorAccepted cls) := statement_of_none rfl

theorem validatorRejected : Statement .validatorRejected := statement_of_none rfl

theorem columnEntryPulse : Statement .columnEntryPulse := statement_of_none rfl

theorem cashboxEntryPulse : Statement .cashboxEntryPulse := statement_of_none rfl

theorem transitWindowEnd : Statement .transitWindowEnd := statement_of_none rfl

theorem refundCycleStart : Statement .refundCycleStart := statement_of_none rfl

theorem collectCycleStart : Statement .collectCycleStart := statement_of_none rfl

theorem collectGateHome : Statement .collectGateHome := statement_of_none rfl

theorem collectWindowTimeout : Statement .collectWindowTimeout := statement_of_none rfl

theorem refundGateHome : Statement .refundGateHome := statement_of_none rfl

theorem refundWindowTimeout : Statement .refundWindowTimeout := statement_of_none rfl

theorem returnCupPulse : Statement .returnCupPulse := statement_of_none rfl

theorem returnCupWatchEnd : Statement .returnCupWatchEnd := statement_of_none rfl

theorem slotObstructed10s : Statement .slotObstructed10s := statement_of_none rfl

theorem slotClear5s : Statement .slotClear5s := statement_of_none rfl

theorem sessionEndClose : Statement .sessionEndClose := statement_of_none rfl

theorem doorReading (reading : DoorReading) : Statement (.doorReading reading) := statement_of_none rfl

theorem keyReading (reading : KeyReading) : Statement (.keyReading reading) := statement_of_none rfl

theorem cashboxRemoval : Statement .cashboxRemoval := statement_of_none rfl

theorem cashboxInsertion : Statement .cashboxInsertion := statement_of_none rfl

theorem tallyGet (port : Port) (tag : Byte) (body : List Byte) : Statement (.tallyGet port tag body) :=
  statement_of_frame rfl of_decide_eq_true

theorem tallyRelease (port : Port) (tag : Byte) (body : List Byte) : Statement (.tallyRelease port tag body) :=
  statement_of_frame rfl of_decide_eq_true

theorem tariffPut (port : Port) (tag : Byte) (body : List Byte) : Statement (.tariffPut port tag body) :=
  statement_of_frame rfl of_decide_eq_true

theorem tariffGet (port : Port) (tag : Byte) (body : List Byte) : Statement (.tariffGet port tag body) :=
  statement_of_frame rfl of_decide_eq_true

theorem tariffWithdraw (port : Port) (tag : Byte) (body : List Byte) : Statement (.tariffWithdraw port tag body) :=
  statement_of_frame rfl of_decide_eq_true

theorem tariffFind (port : Port) (tag : Byte) (body : List Byte) : Statement (.tariffFind port tag body) :=
  statement_of_frame rfl of_decide_eq_true

theorem tariffScan (port : Port) (tag : Byte) (body : List Byte) : Statement (.tariffScan port tag body) :=
  statement_of_frame rfl of_decide_eq_true

theorem clockSecond : Statement .clockSecond := statement_of_none rfl

theorem clockSet (port : Port) (tag : Byte) (body : List Byte) : Statement (.clockSet port tag body) :=
  statement_of_frame rfl of_decide_eq_true

theorem clockGet (port : Port) (tag : Byte) (body : List Byte) : Statement (.clockGet port tag body) :=
  statement_of_frame rfl of_decide_eq_true

theorem holidaySet (port : Port) (tag : Byte) (body : List Byte) : Statement (.holidaySet port tag body) :=
  statement_of_frame rfl of_decide_eq_true

theorem holidayGet (port : Port) (tag : Byte) (body : List Byte) : Statement (.holidayGet port tag body) :=
  statement_of_frame rfl of_decide_eq_true

theorem bandSet (port : Port) (tag : Byte) (body : List Byte) : Statement (.bandSet port tag body) :=
  statement_of_frame rfl of_decide_eq_true

theorem bandGet (port : Port) (tag : Byte) (body : List Byte) : Statement (.bandGet port tag body) :=
  statement_of_frame rfl of_decide_eq_true

theorem stepBoundary : Statement .stepBoundary := statement_of_none rfl

theorem warningToneStart : Statement .warningToneStart := statement_of_none rfl

theorem flagsReadClear (port : Port) (tag : Byte) (body : List Byte) : Statement (.flagsReadClear port tag body) :=
  statement_of_frame rfl of_decide_eq_true

theorem lineGrant : Statement .lineGrant := statement_of_none rfl

theorem loopCurrentSeen : Statement .loopCurrentSeen := statement_of_none rfl

theorem seizureTimeout : Statement .seizureTimeout := statement_of_none rfl

theorem dialToneClassified : Statement .dialToneClassified := statement_of_none rfl

theorem dialToneTimeout : Statement .dialToneTimeout := statement_of_none rfl

theorem diallingEnd : Statement .diallingEnd := statement_of_none rfl

theorem busyClassified : Statement .busyClassified := statement_of_none rfl

theorem polarityReversal : Statement .polarityReversal := statement_of_none rfl

theorem presumedDelayEnd : Statement .presumedDelayEnd := statement_of_none rfl

theorem answerWaitEnd : Statement .answerWaitEnd := statement_of_none rfl

theorem acknowledgeClassified : Statement .acknowledgeClassified := statement_of_none rfl

theorem refuseClassified : Statement .refuseClassified := statement_of_none rfl

theorem toneStringSent : Statement .toneStringSent := statement_of_none rfl

theorem releaseGuardEnd : Statement .releaseGuardEnd := statement_of_none rfl

theorem loopCurrentLoss : Statement .loopCurrentLoss := statement_of_none rfl

theorem lineAbsent5s : Statement .lineAbsent5s := statement_of_none rfl

theorem linePresent10s : Statement .linePresent10s := statement_of_none rfl

theorem offHook : Statement .offHook := statement_of_none rfl

theorem onHook : Statement .onHook := statement_of_none rfl

theorem clearingEnd : Statement .clearingEnd := statement_of_none rfl

theorem symbolKeyPress (sym : Symbol) : Statement (.symbolKeyPress sym) := statement_of_none rfl

theorem followOnPress : Statement .followOnPress := statement_of_none rfl

theorem keyStuck (key : Key) : Statement (.keyStuck key) := statement_of_none rfl

theorem keyRelease (key : Key) : Statement (.keyRelease key) := statement_of_none rfl

theorem firstSymbolTimeout : Statement .firstSymbolTimeout := statement_of_none rfl

theorem interSymbolTimeout : Statement .interSymbolTimeout := statement_of_none rfl

theorem creditWaitTimeout : Statement .creditWaitTimeout := statement_of_none rfl

theorem inputActiveEdge (input : Fin 8) : Statement (.inputActiveEdge input) := statement_of_none rfl

theorem inputInactiveChange (input : Fin 8) : Statement (.inputInactiveChange input) := statement_of_none rfl

theorem countWindowEnd (input : Fin 8) : Statement (.countWindowEnd input) := statement_of_none rfl

theorem holdOffEnd (input : Fin 8) : Statement (.holdOffEnd input) := statement_of_none rfl

theorem clearDelayEnd (input : Fin 8) : Statement (.clearDelayEnd input) := statement_of_none rfl

theorem conditionClear (port : Port) (tag : Byte) (body : List Byte) : Statement (.conditionClear port tag body) :=
  statement_of_frame rfl of_decide_eq_true

theorem conditionGet (port : Port) (tag : Byte) (body : List Byte) : Statement (.conditionGet port tag body) :=
  statement_of_frame rfl of_decide_eq_true

theorem retryTimerExpiry : Statement .retryTimerExpiry := statement_of_none rfl

theorem replyWaitEnd : Statement .replyWaitEnd := statement_of_none rfl

theorem reportNow (port : Port) (tag : Byte) (body : List Byte) : Statement (.reportNow port tag body) :=
  statement_of_frame rfl of_decide_eq_true

theorem responseRead (port : Port) : Statement (.responseRead port) := by
  intro _ p bytes h
  cases port <;> cases h
  exact ⟨Nat.le_refl 1, by decide⟩

theorem statusGet (port : Port) (tag : Byte) (body : List Byte) : Statement (.statusGet port tag body) :=
  statement_of_frame rfl of_decide_eq_true

theorem coinClassSet (port : Port) (tag : Byte) (body : List Byte) : Statement (.coinClassSet port tag body) :=
  statement_of_frame rfl of_decide_eq_true

theorem coinClassGet (port : Port) (tag : Byte) (body : List Byte) : Statement (.coinClassGet port tag body) :=
  statement_of_frame rfl of_decide_eq_true

theorem settingSet (port : Port) (tag : Byte) (body : List Byte) : Statement (.settingSet port tag body) :=
  statement_of_frame rfl of_decide_eq_true

theorem settingGet (port : Port) (tag : Byte) (body : List Byte) : Statement (.settingGet port tag body) :=
  statement_of_frame rfl of_decide_eq_true

theorem attentionGet (port : Port) (tag : Byte) (body : List Byte) : Statement (.attentionGet port tag body) :=
  statement_of_frame rfl of_decide_eq_true

theorem attentionAck (port : Port) (tag : Byte) (body : List Byte) : Statement (.attentionAck port tag body) :=
  statement_of_frame rfl of_decide_eq_true

theorem attentionMask (port : Port) (tag : Byte) (body : List Byte) : Statement (.attentionMask port tag body) :=
  statement_of_frame rfl of_decide_eq_true

theorem stationInit (port : Port) (tag : Byte) (body : List Byte) : Statement (.stationInit port tag body) :=
  statement_of_frame rfl of_decide_eq_true

theorem unknownRequest (port : Port) (kind : Byte) (tag : Byte) (body : List Byte) : Statement (.unknownRequest port kind tag body) := by
  refine statement_of_frame rfl fun h => ?_
  simp only [Instr.wellFormed, bodyFits, Bool.and_eq_true, decide_eq_true_eq] at h
  exact h.1.1

theorem mainSupplyStart (readings : StartReadings) : Statement (.mainSupplyStart readings) := statement_of_none rfl

theorem mainSupplyLoss : Statement .mainSupplyLoss := statement_of_none rfl

theorem gateLeavesHome (gate : Gate) : Statement (.gateLeavesHome gate) := statement_of_none rfl

theorem dialSymbolSent : Statement .dialSymbolSent := statement_of_none rfl

theorem backupSupplyLoss : Statement .backupSupplyLoss := statement_of_none rfl

end Sys2Proof.Laws.Framing
end

