-- ==== Sys2Proof/Laws/Report.lean ====
section
/-! SUPPORT. The report unit holds a timer, a snapshot, a reply wait and an outcome in the states that have one (section 10.2): what its operations keep, and that every command keeps it. -/

namespace Sys2Proof.Machine

/-- The report unit is lawful. -/
def State.ReportLaw (s : State) : Prop := s.report.Lawful

theorem reportLaw_congr {s t : State} (h : t.report = s.report) (hs : State.ReportLaw s) : State.ReportLaw t := by
  unfold State.ReportLaw at *
  rw [h]
  exact hs

theorem reportLaw_schedule {d} {s : State} (ha : s.report.attempts ≤ 5) (h1 : s.report.snapshot = none)
    (h2 : s.report.replyEnds = none) (h3 : s.report.outcome = none) :
    State.ReportLaw (s.schedule d) := by
  unfold State.ReportLaw ReportUnit.Lawful State.schedule
  simp [*]

theorem reportLaw_scheduleNow {s : State} (h1 : s.report.snapshot = none) (h2 : s.report.replyEnds = none)
    (h3 : s.report.outcome = none) :
    State.ReportLaw (s.scheduleNow) :=
  reportLaw_schedule (by simp) h1 h2 h3

theorem reportLaw_quiet {s : State} (hs : State.ReportLaw s)
    (h : s.report.state = .idle ∨ s.report.state = .scheduled ∨ s.report.state = .deferred ∨ s.report.state =
    .waitLine ∨ s.report.state = .calling) :
    s.report.snapshot = none ∧ s.report.replyEnds = none ∧ s.report.outcome = none := by
  obtain ⟨_,_,a,b,c⟩ := hs
  rcases h with h | h | h | h | h <;> simp_all

theorem reportLaw_trigger {sev} {s : State} (hs : State.ReportLaw s) : State.ReportLaw (s.reportTrigger sev) := by
  have q := reportLaw_quiet hs
  unfold State.reportTrigger
  split
  · have := q (by simp [*])
    exact reportLaw_scheduleNow this.1 this.2.1 this.2.2
  · have := q (by simp [*])
    exact reportLaw_scheduleNow this.1 this.2.1 this.2.2
  · have := q (by simp [*])
    exact reportLaw_scheduleNow this.1 this.2.1 this.2.2
  · exact hs
  · have := q (by simp [*])
    exact reportLaw_schedule hs.1 this.1 this.2.1 this.2.2
  · exact hs
  · exact hs

theorem reportLaw_occurrence {src ty sev} {s : State} (hs : State.ReportLaw s) :
    State.ReportLaw (s.occurrence src ty sev) := by
  unfold State.occurrence
  exact reportLaw_congr (by simp)
      (reportLaw_trigger (sev := sev) (s := State.recordOccurrence src ty sev s) (reportLaw_congr (by simp) hs))

theorem reportLaw_becomeAbnormal {src ty sev} {s : State} (hs : State.ReportLaw s) :
    State.ReportLaw (s.becomeAbnormal src ty sev) :=
  reportLaw_occurrence (reportLaw_congr (by simp) hs)

theorem reportLaw_judgeThreshold {a b c d} {s : State} (hs : State.ReportLaw s) :
    State.ReportLaw (s.judgeThreshold a b c d) := by
  unfold State.judgeThreshold
  (repeat' split)
  · exact reportLaw_becomeAbnormal hs
  all_goals exact reportLaw_congr (by simp) hs

theorem reportLaw_judgeThresholds {s : State} (hs : State.ReportLaw s) :
    State.ReportLaw s.judgeThresholds := reportLaw_judgeThreshold (reportLaw_judgeThreshold hs)

theorem reportLaw_afterAttempt {s : State} (hs : State.ReportLaw s) (h : s.report.outcome.isSome) :
    State.ReportLaw s.afterAttempt := by
  unfold State.afterAttempt
  dsimp only
  (repeat' split)
  · exact reportLaw_schedule hs.1 rfl rfl rfl
  · unfold State.ReportLaw ReportUnit.Lawful
    simp
    exact hs.1
  · exact reportLaw_scheduleNow rfl rfl rfl
  · exact reportLaw_schedule hs.1 rfl rfl rfl
  · unfold State.ReportLaw ReportUnit.Lawful
    simp
    exact hs.1
  · simp_all

theorem reportLaw_reportFail {b} {s : State} (ha : s.report.attempts ≤ 5) (ht : s.report.timer = none) :
    State.ReportLaw (s.reportFail b) := by
  unfold State.reportFail
  dsimp only
  split
  · unfold State.ReportLaw ReportUnit.Lawful
    simp [ht] <;> omega
  · generalize hr : ({ s.removeSnapshots.report with attempts := min 5 (s.removeSnapshots.report.attempts + 1), snapshot := none, repeated := false, replyEnds := none, outcome := some ReportOutcome.failed } : ReportUnit) = r
    have : r.attempts ≤ 5 := by subst hr; simp <;> omega
    have h2 : r.outcome = some .failed := by subst hr; rfl
    unfold State.afterAttempt
    dsimp only
    (repeat' split)
    · exact reportLaw_schedule this rfl rfl rfl
    · unfold State.ReportLaw ReportUnit.Lawful
      simp
      exact this
    · exact reportLaw_scheduleNow rfl rfl rfl
    · exact reportLaw_schedule this rfl rfl rfl
    · unfold State.ReportLaw ReportUnit.Lawful
      simp
      exact this
    · rename_i h
      simp [h2] at h

theorem reportLaw_preempt {s : State} (hs : State.ReportLaw s) (h : s.report.state.onLine = true) :
    State.ReportLaw s.reportPreempted := by
  unfold State.reportPreempted
  refine reportLaw_schedule ?_ rfl rfl ?_
  · simp
    exact hs.1
  · simp
    have := hs.2.2.2.2
    cases hst : s.report.state <;> simp_all [ReportState.onLine]

theorem reportLaw_departIdle {s : State} (hs : State.ReportLaw s) : State.ReportLaw s.departIdle := by
  have map : ∀ t : State, ∀ n, State.ReportLaw t → State.ReportLaw
      (t.setReport { t.report with timer := t.report.timer.map (RetryTimer.hold n) }) := by
    intro t n ht
    exact ⟨ht.1, Option.isSome_map.trans ht.2.1, ht.2.2⟩
  have h : ∀ u : State, u.report = s.report → State.ReportLaw
      (if u.report.state.onLine then u.reportPreempted else u) := by
    intro u hu
    split
    · exact reportLaw_preempt (reportLaw_congr hu hs) (by assumption)
    · exact reportLaw_congr hu hs
  exact map _ _ (ite_holds (h _ rfl) hs)

theorem reportLaw_returnIdle {s : State} (hs : State.ReportLaw s) : State.ReportLaw s.returnIdle := by
  exact ⟨hs.1, Option.isSome_map.trans hs.2.1, hs.2.2⟩

theorem reportLaw_reportLineEnded {s : State} (hs : State.ReportLaw s) : State.ReportLaw s.reportLineEnded := by
  unfold State.reportLineEnded
  split
  · refine reportLaw_reportFail hs.1 ?_
    have := hs.2.1
    cases hst : s.report.state <;> simp_all [ReportState.onLine]
  · exact hs

theorem reportLaw_lineEnds {c} {s : State} (hs : State.ReportLaw s) : State.ReportLaw (s.lineEnds c) := by
  unfold State.lineEnds
  dsimp only
  (repeat' split)
  · exact reportLaw_congr (by simp) hs
  · exact reportLaw_congr (by simp) hs
  · exact reportLaw_congr (by simp) hs
  · exact reportLaw_reportLineEnded (reportLaw_congr (by simp) hs)

theorem reportLaw_reportAnswered {s : State} (hs : State.ReportLaw s) : State.ReportLaw s.reportAnswered := by
  unfold State.reportAnswered
  dsimp only
  split
  · rename_i hc
    have h0 := hs.2.1
    have h2 := hs.2.2.2.2
    have ha := hs.1
    have hr : (List.foldl (fun s i => State.placeSnapshot i s) s s.reportSnapshot.records).report = s.report :=
        foldl_keeps State.report _ (by simp) _ _
    simp [hc] at h0 h2
    split
    all_goals unfold State.ReportLaw ReportUnit.Lawful; simp [hr, h0, h2]; exact ha
  · exact hs

theorem reportLaw_lineAnswered {p} {s : State} (hs : State.ReportLaw s) : State.ReportLaw (s.lineAnswered p) := by
  unfold State.lineAnswered
  dsimp only
  split
  · exact reportLaw_congr (by simp) hs
  · exact reportLaw_congr (by simp) hs
  · exact reportLaw_reportAnswered (reportLaw_congr (by simp) hs)

theorem reportLaw_enterWaitLine {s : State} (hs : State.ReportLaw s) (hq : s.report.state = .scheduled) :
    State.ReportLaw s.enterWaitLine := by
  have q := reportLaw_quiet hs (by simp [hq])
  unfold State.enterWaitLine
  dsimp only
  split
  · unfold State.ReportLaw ReportUnit.Lawful
    simp [q]
    exact hs.1
  · refine reportLaw_reportFail ?_ rfl
    exact hs.1

theorem reportLaw_beginAttempt {s : State} (hs : State.ReportLaw s) (hq : s.report.state = .scheduled) :
    State.ReportLaw s.beginAttempt :=
  ite_holds (P := State.ReportLaw) (reportLaw_reportFail hs.1 rfl) (reportLaw_enterWaitLine hs hq)

theorem reportLaw_applyAck {s : State} (hs : State.ReportLaw s) (hq : s.report.state = .awaitReply) :
    State.ReportLaw s.applyAck := by
  unfold State.applyAck
  dsimp only
  have h0 := hs.2.1
  have ha := hs.1
  simp [hq] at h0
  split
  · exact hs
  · rename_i snap _
    have hr : (List.foldl (fun s i => State.ackIncluded i s) s snap.records).report = s.report := foldl_keeps
        State.report _ (by simp) _ _
    unfold State.ReportLaw ReportUnit.Lawful
    simp [hr, h0]

theorem reportLaw_endGuard {s : State} (hs : State.ReportLaw s) : State.ReportLaw s.endGuard := by
  unfold State.endGuard
  dsimp only
  (repeat' split)
  · refine reportLaw_afterAttempt (reportLaw_congr (by simp) hs) ?_
    have h := hs.2.2.2.2
    simp_all
  · exact reportLaw_congr (by simp) hs
  · exact hs

theorem reportLaw_openSession {s : State} (hs : State.ReportLaw s) : State.ReportLaw s.openSession := by
  unfold State.openSession
  exact reportLaw_congr (by simp)
      (reportLaw_departIdle
      (s := (s.openAccount.enterDialWait).setSession
      { s.openAccount.enterDialWait.session with decision := none, threshold := none })
      (reportLaw_congr (by simp) hs))

theorem reportLaw_countUnconfirmed {s : State} (hs : State.ReportLaw s) : State.ReportLaw s.countUnconfirmed := by
  unfold State.countUnconfirmed
  split
  · exact reportLaw_congr (by simp) hs
  · exact reportLaw_occurrence (reportLaw_congr (by simp) hs)

theorem reportLaw_completeCollect {g} {s : State} (hs : State.ReportLaw s) :
    State.ReportLaw (s.completeCollect g) := by
  have hc : ∀ c, State.ReportLaw
      (State.countCollected g c (s.setCoin { s.coin with cycle := .idle, column := s.coin.column.drop 1 })) := by
    intro c
    unfold State.countCollected
    (repeat' split)
    · exact reportLaw_judgeThresholds (reportLaw_congr (by simp) hs)
    · exact reportLaw_judgeThresholds (reportLaw_congr (by simp) hs)
    · exact reportLaw_occurrence (reportLaw_congr (by simp) hs)
  unfold State.completeCollect
  dsimp only
  split
  · exact reportLaw_congr (by simp) hs
  · rename_i c rest h
    have := hc c
    rw [h] at this
    split
    · exact reportLaw_congr (by simp) this
    · exact reportLaw_congr (by simp) this

theorem reportLaw_cashboxArrival {s : State} (hs : State.ReportLaw s) : State.ReportLaw s.cashboxArrival := by
  unfold State.cashboxArrival
  dsimp only
  split
  · rename_i e rest _
    refine reportLaw_congr (s := State.countOverflow e.cls e.value _) (by simp; rfl) ?_
    unfold State.countOverflow
    exact reportLaw_judgeThresholds (reportLaw_congr (by simp) hs)
  · exact reportLaw_judgeThresholds (reportLaw_congr (by simp) hs)

theorem reportLaw_inputOccurs {i} {s : State} (hs : State.ReportLaw s) :
    State.ReportLaw (s.inputOccurs i) := reportLaw_becomeAbnormal (reportLaw_congr (by simp) hs)

theorem reportLaw_takeEdge {i} {s : State} (hs : State.ReportLaw s) : State.ReportLaw (s.takeEdge i) := by
  unfold State.takeEdge
  split
  · exact reportLaw_inputOccurs hs
  · exact ite_holds (reportLaw_inputOccurs hs) hs
  · unfold State.countEdge
    exact ite_holds (reportLaw_inputOccurs hs) (reportLaw_congr (by simp) hs)

theorem reportLaw_activeEdge {i} {s : State} (hs : State.ReportLaw s) : State.ReportLaw (s.activeEdge i) := by
  unfold State.activeEdge
  dsimp only
  (repeat' split)
  · exact hs
  · exact reportLaw_takeEdge (reportLaw_congr (by simp) hs)
  · exact reportLaw_congr (by simp) hs

theorem reportLaw_minuteEvent {s : State} (hs : State.ReportLaw s) : State.ReportLaw s.minuteEvent := by
  unfold State.minuteEvent State.dailyReport
  dsimp only
  generalize ht : ((s.setClock _).evaluateTable) = t
  have h : State.ReportLaw t := by subst ht; exact reportLaw_congr (by simp) hs
  split
  · rename_i hc
    have q := reportLaw_quiet h (by rcases hc.2 with h | h <;> simp [h])
    exact reportLaw_scheduleNow q.1 q.2.1 q.2.2
  · exact h

theorem reportLaw_clockTick {s : State} (hs : State.ReportLaw s) : State.ReportLaw s.clockTick := by
  unfold State.clockTick
  dsimp only
  have h : State.ReportLaw
      (if s.advanceClock.clock.time.second = 0 then s.advanceClock.minuteEvent else s.advanceClock) := ite_holds
      (reportLaw_minuteEvent (reportLaw_congr (by simp) hs)) (reportLaw_congr (by simp) hs)
  exact ite_holds (reportLaw_becomeAbnormal h) h

theorem reportLaw_closeTally {s : State} (hs : State.ReportLaw s) : State.ReportLaw s.closeTally := by
  unfold State.closeTally
  dsimp only
  apply reportLaw_judgeThresholds
  have := reportLaw_becomeAbnormal (src := .collection) (ty := .cashboxCollected) (sev := .notice)
      (reportLaw_congr (t := s.setComp (s.comp.close s.comp.forcedNow)) (by simp) hs)
  split
  · exact reportLaw_congr (by simp)
        (reportLaw_occurrence (src := .compartment) (ty := .compartmentForced) (sev := .alarm) this)
  · exact reportLaw_congr (by simp) this

theorem reportLaw_work (c : Instr) (s : State) (hs : State.ReportLaw s) : State.ReportLaw (Instr.work c s) := by
  cases c <;> dsimp only [Instr.work]
  case validatorAccepted => exact ite_holds (reportLaw_congr (by simp) hs) (reportLaw_countUnconfirmed hs)
  case columnEntryPulse =>
    unfold State.columnPulse State.enterColumn
    (repeat' split) <;> first | exact reportLaw_countUnconfirmed hs | exact reportLaw_congr (by simp) hs
  case cashboxEntryPulse =>
    unfold State.cashboxPulse
    split
    · exact reportLaw_congr (by simp) hs
    · exact reportLaw_completeCollect hs
    all_goals exact reportLaw_cashboxArrival hs
  case transitWindowEnd =>
    unfold State.expireTransit
    split
    · exact hs
    · exact reportLaw_countUnconfirmed (reportLaw_congr (by simp) hs)
  case collectGateHome =>
    unfold State.collectHome
    dsimp only
    split
    · exact reportLaw_completeCollect (reportLaw_congr (by simp) hs)
    all_goals exact reportLaw_congr (by simp) hs
  case collectWindowTimeout =>
    unfold State.timeOutCollect
    dsimp only
    split
    · rename_i g e _ _ _
      exact reportLaw_congr (by simp)
          (reportLaw_occurrence (src := .collectGate) (ty := .gateJam) (sev := .fault) (s := s.reach e)
          (reportLaw_congr (by simp) hs))
    all_goals exact hs
  case refundWindowTimeout =>
    unfold State.timeOutRefund
    dsimp only
    split
    · rename_i e _ _ _
      exact reportLaw_congr (by simp)
          (reportLaw_occurrence (src := .refundGate) (ty := .gateJam) (sev := .fault) (s := s.reach e)
          (reportLaw_congr (by simp) hs))
    all_goals exact hs
  case returnCupWatchEnd =>
    unfold State.endWatch
    split
    · exact hs
    · exact reportLaw_occurrence (reportLaw_congr (by simp) hs)
  case slotObstructed10s => exact ite_holds (reportLaw_becomeAbnormal hs) hs
  case doorReading r =>
    unfold State.readDoor
    dsimp only
    (repeat' split)
    · exact hs
    · exact reportLaw_congr (by simp) hs
    · exact reportLaw_occurrence (reportLaw_congr (by simp) hs)
    · exact reportLaw_congr (by simp) hs
  case cashboxRemoval =>
    unfold State.removeCashbox
    exact ite_holds (reportLaw_congr (by simp)
        (reportLaw_closeTally (s := s.setComp { s.comp with presence := .absent }) (reportLaw_congr (by simp) hs))) hs
  case clockSecond => exact ite_holds (reportLaw_clockTick hs) (ite_holds hs (reportLaw_congr (by simp) hs))
  case lineGrant =>
    unfold State.makeGrant
    dsimp only
    (repeat' split)
    · exact hs
    · exact reportLaw_congr (by simp) hs
    · rename_i h
      obtain ⟨a,b,c,d,e⟩ := hs
      rw [State.setLine_report] at h
      simp [h] at b c d e
      unfold State.ReportLaw ReportUnit.Lawful
      simp [a,b,c,d,e]
    · exact reportLaw_congr (by simp) hs
  case seizureTimeout =>
    unfold State.endSeizure State.failDialTone State.countDialToneFailure
    refine ite_holds ?_ hs
    have := reportLaw_lineEnds (c := .dialToneFailure) (s := s.reach s.line.deadline) (reportLaw_congr (by simp) hs)
    exact ite_holds (reportLaw_becomeAbnormal (reportLaw_congr (by simp) this)) (reportLaw_congr (by simp) this)
  case dialToneTimeout =>
    unfold State.endDialTone State.failDialTone State.countDialToneFailure
    refine ite_holds ?_ hs
    have := reportLaw_lineEnds (c := .dialToneFailure) (s := s.reach s.line.deadline) (reportLaw_congr (by simp) hs)
    exact ite_holds (reportLaw_becomeAbnormal (reportLaw_congr (by simp) this)) (reportLaw_congr (by simp) this)
  case busyClassified =>
    unfold State.hearBusy
    split
    · exact reportLaw_lineEnds hs
    · exact reportLaw_lineEnds hs
    · exact ite_holds (reportLaw_lineEnds hs) hs
    all_goals exact hs
  case polarityReversal =>
    unfold State.reversePolarity
    (repeat' split)
    · exact reportLaw_lineAnswered hs
    · exact reportLaw_lineEnds hs
    all_goals exact hs
  case presumedDelayEnd =>
    unfold State.endPresumedDelay
    split
    · exact reportLaw_lineAnswered (reportLaw_congr (by simp) hs)
    · exact hs
  case answerWaitEnd =>
    unfold State.endAnswerWait
    split
    · exact reportLaw_lineEnds (reportLaw_congr (by simp) hs)
    · exact hs
  case acknowledgeClassified =>
    unfold State.hearAcknowledge State.awaitsReply
    split
    · rename_i h
      simp at h
      exact reportLaw_applyAck hs h.2
    · exact hs
  case refuseClassified =>
    unfold State.hearRefuse State.awaitsReply State.repeatReport
    split
    · rename_i h
      simp at h
      obtain ⟨a,b,c,d,e⟩ := id hs
      simp [h] at b c d e
      split
      · exact reportLaw_reportFail a (by simpa using b)
      · dsimp only
        split
        all_goals unfold State.ReportLaw ReportUnit.Lawful; simp [a,b,c,d,e]
    · exact hs
  case toneStringSent =>
    unfold State.endToneString State.reportSent
    dsimp only
    (repeat' split)
    · rename_i h
      obtain ⟨a,b,c,d,e⟩ := id hs
      simp at h
      simp [h] at b c d e
      unfold State.ReportLaw ReportUnit.Lawful
      simp [a,b,c,d,e]
    all_goals exact reportLaw_congr (by simp) hs
  case releaseGuardEnd => exact reportLaw_endGuard hs
  case loopCurrentLoss =>
    unfold State.loseLine
    (repeat' split) <;> first | exact reportLaw_lineEnds hs | exact hs
  case lineAbsent5s => exact ite_holds (reportLaw_becomeAbnormal hs) hs
  case linePresent10s =>
    unfold State.linePresent
    dsimp only
    split
    · rename_i h
      exact reportLaw_beginAttempt (reportLaw_congr (by simp) hs) h.1
    · exact reportLaw_congr (by simp) hs
  case offHook =>
    unfold State.liftHandset
    dsimp only
    (repeat' split)
    · exact hs
    · exact reportLaw_openSession (reportLaw_congr (by simp) hs)
    · exact reportLaw_congr (by simp) hs
  case clearingEnd =>
    unfold State.endClearing
    dsimp only
    have h : State.ReportLaw
        (State.returnIdle (State.recordEvent .closed none none none none
        (s.setSession { s.session with state := .idle }))) := reportLaw_returnIdle (reportLaw_congr (by simp) hs)
    (repeat' split)
    · exact reportLaw_openSession h
    · exact h
    · exact hs
  case keyStuck k =>
    unfold State.stickKey
    dsimp only
    (repeat' split)
    · exact reportLaw_becomeAbnormal (reportLaw_congr (by simp) hs)
    all_goals exact reportLaw_congr (by simp) hs
  case keyRelease k => exact reportLaw_congr (by simp) hs
  case inputActiveEdge i => exact reportLaw_activeEdge hs
  case retryTimerExpiry =>
    unfold State.expireRetry State.retryExpired
    split
    · rename_i h _
      obtain ⟨a,b,c,d,e⟩ := id hs
      simp [h] at b c d e
      (repeat' split)
      · exact reportLaw_beginAttempt (reportLaw_congr (by simp) hs) (by simpa using h)
      · unfold State.ReportLaw ReportUnit.Lawful
        simp [a,b,c,d,e,h]
    · exact hs
  case replyWaitEnd =>
    unfold State.endReplyWait
    split
    · rename_i h _
      obtain ⟨a,b,c,d,e⟩ := id hs
      simp [h] at b
      exact reportLaw_reportFail a (by simpa using b)
    · exact hs
  case reportNow =>
    unfold State.reportNow
    (repeat' split)
    all_goals first
      | exact hs
      | (have q := reportLaw_quiet hs (by simp [*]); exact reportLaw_scheduleNow q.1 q.2.1 q.2.2)
  case settingSet p g body =>
    unfold State.setSetting
    split
    case h_8 =>
      unfold State.setThresholds
      split
      · exact reportLaw_judgeThresholds (reportLaw_congr (by simp) hs)
      · exact hs
    case h_10 =>
      unfold State.setReportEnable State.setEnable
      dsimp only
      (repeat' split)
      · exact reportLaw_trigger (reportLaw_congr (by simp) hs)
      all_goals exact reportLaw_congr (by simp) hs
    all_goals exact reportLaw_congr (by (try dsimp only) <;> (repeat' split) <;> simp) hs
  case stationInit =>
    unfold State.stationInit
    dsimp only
    have h : State.ReportLaw s.resetReport := by
      unfold State.resetReport
      dsimp only
      split
      · exact reportLaw_schedule (by simp [ReportUnit.startUp]) rfl rfl rfl
      · unfold State.ReportLaw ReportUnit.Lawful
        simp [ReportUnit.startUp]
    have h2 : State.ReportLaw s.resetReport.initSession := by
      unfold State.initSession
      split
      · exact reportLaw_departIdle (reportLaw_congr (by simp) h)
      · exact reportLaw_congr (by simp) h
      all_goals exact reportLaw_congr (by simp) h
    exact reportLaw_congr (by simp) h2
  case mainSupplyStart r =>
    have h : ∀ t : State, t.report = .startUp → State.ReportLaw t := by
      intro t ht
      unfold State.ReportLaw ReportUnit.Lawful
      rw [ht]
      simp [ReportUnit.startUp]
    have tables : (s.startTables r).report = .startUp := by simp [State.startTables]; rfl
    unfold State.startUp
    split
    · refine reportLaw_congr (s := State.startReport _ _) (by simp [State.fullStart]; rfl) ?_
      unfold State.startReport
      split
      · refine reportLaw_schedule ?_ ?_ ?_ ?_ <;> simp [tables, ReportUnit.startUp]
      · exact h _ (by simp [tables])
    · exact h _ (by simp [State.cutJudging, State.cutTables]; rfl)
    · exact h _ (by simp [State.cutAfter, tables])
  case symbolKeyPress =>
    exact State.pressKey_keeps (fun _ => reportLaw_congr (by simp)) (fun _ => reportLaw_congr (by simp)) hs
  case followOnPress =>
    exact State.pressKey_keeps (fun _ => reportLaw_congr (by simp)) (fun _ => reportLaw_congr (by simp)) hs
  case unknownRequest => exact ite_holds hs (reportLaw_congr (by simp) hs)
  any_goals exact hs
  any_goals exact reportLaw_congr (by simp) hs

end Sys2Proof.Machine
end

