-- ==== Sys2Proof/Laws/Tones.lean ====
section
/-! SUPPORT. Where a tone string stands at an instant (R118, R122). -/

namespace Sys2Proof.Machine

/-- At an instant `r` ms into the 140 ms of symbol `k`, counted from the start of the sending. -/
theorem ToneString.elapsed_at {t : ToneString} {now start k r : Nat} (ends : t.sentAt = start + t.symbols.length * 140)
    (instant : now = start + k * 140 + r) : t.elapsed now = k * 140 + r := by
  simp only [ToneString.elapsed, Config.toneMs, Config.silenceMs]
  omega

/-- The symbols sent whole are those before the one in hand, and all once the string has ended. -/
theorem ToneString.position_at {t : ToneString} {now start k r : Nat} (ends : t.sentAt = start + t.symbols.length * 140)
    (instant : now = start + k * 140 + r) (within : r < 140) : t.position now = min t.symbols.length k := by
  have quotient : (k * 140 + r) / 140 = k := by omega
  simp only [ToneString.position, ToneString.elapsed_at ends instant, Config.toneMs, Config.silenceMs, quotient]

/-- A symbol in hand has its tone for 70 ms and then its silence; after the last one the string is sent. -/
theorem ToneString.phase_at {t : ToneString} {now start k r : Nat} (ends : t.sentAt = start + t.symbols.length * 140)
    (instant : now = start + k * 140 + r) (within : r < 140) :
    t.phase now = if t.symbols.length ≤ k then .sent else if r < 70 then .tone else .silence := by
  have remainder : (k * 140 + r) % 140 = r := by omega
  simp only [ToneString.phase, ToneString.position_at ends instant within, ToneString.elapsed_at ends instant, Config.toneMs,
    Config.silenceMs, remainder, show min t.symbols.length k = t.symbols.length ↔ t.symbols.length ≤ k by omega]

end Sys2Proof.Machine
end

