-- ==== Sys2Proof/Tests/Slice0.lean ====
section
/-! SUPPORT. Small tests: operands that the well-formedness checks refuse, transfers written out byte by byte, the manual's
worked examples one step at a time, and for each obligation with hypotheses a state that meets them. -/

namespace Sys2Proof.Tests

-- Each test evaluates in the kernel what stands before it; one at a time keeps the threads and their stacks few.
set_option Elab.async false

open Sys2Proof.Machine

/-! ## Helpers -/

/-- The state a command leaves, or the state itself where it leaves none. -/
def after (c : Instr) (s : State) : State :=
  match exec c s with
  | .next t => t
  | .fault _ => s
  | .refused _ => s

/-- A station at rest with the cashbox in place and no refund waiting. -/
def ready : State :=
  { State.reset with
    coin := { State.reset.coin with waiting := none }
    comp := { State.reset.comp with presence := .present } }

/-- A CREDITED coin of class 3. -/
def coin (v : Nat) : HeldCoin := { cls := some 3, value := v, tag := .credited }

/-- A transit entry of class 3. -/
def entry (dest : Destination) (v windowEnds : Nat) : TransitEntry :=
  { cls := 3, value := v, dest := dest, windowEnds := windowEnds, noted := false }

/-- A coin path with these transit entries, these held coins and this gate cycle. -/
def path (transit : List TransitEntry) (column : List HeldCoin) (cycle : GateCycle) : CoinPath :=
  { CoinPath.startUp column with transit := transit, cycle := cycle }

/-- `ready` with a coin path. -/
def withCoin (c : CoinPath) (s : State) : State := { s with coin := c }

/-- A caller's open session in a state. -/
def inState (x : SessionState) (s : State) : State :=
  { s with
    session := { s.session with state := x, hook := .off }
    credit := { s.credit with account := .inSession } }

/-- A condition record of a type and severity, in a state. -/
def condition (type : ConditionType) (severity : Severity) (state : ConditionState) (count acked : Nat)
    (first : ClockTime) : ConditionRecord :=
  { type := type, severity := severity, state := state, firstRaised := first, lastChange := first, count := count,
    acked := acked, activeMs := 0, activeSince := none, snapshot := none }

/-- A state with a source's record and normality replaced. -/
def withRecord (src : Source) (r : Option ConditionRecord) (abnormal : Bool) (s : State) : State :=
  { s with sup := { s.sup with
    records := s.sup.records.set src.idx r
    abnormal := s.sup.abnormal.set src.idx abnormal } }

/-- A clock time. -/
def at_ (year month day hour minute second : Nat) : ClockTime := ⟨⟨year, month, day⟩, hour, minute, second⟩

/-! ## Well-formedness -/

/-- R186: a body length is one byte, so 256 bytes are refused, whatever the request, and 255 are not. -/
theorem test_wellFormed_refuses_long_bodies :
    (Instr.clockGet .host 0 (List.replicate 256 0)).wellFormed = false ∧
      (Instr.unknownRequest .host 27 0 (List.replicate 256 0)).wellFormed = false ∧
      (Instr.stationInit .service 0 (List.replicate 255 0)).wellFormed = true := by decide +kernel

/-- R186: an unknown request has none of the 26 kinds. -/
theorem test_wellFormed_refuses_known_kinds :
    (Instr.unknownRequest .host 1 0 []).wellFormed = false ∧ (Instr.unknownRequest .host 26 0 []).wellFormed = false ∧
      (Instr.unknownRequest .host 27 0 []).wellFormed = true ∧
      (Instr.unknownRequest .service 0 0 []).wellFormed = true := by decide +kernel

/-- R187: on the host port a first byte of 0 is a read, not a request. -/
theorem test_wellFormed_refuses_kind_zero_on_the_host_port :
    (Instr.unknownRequest .host 0 0 []).wellFormed = false := by decide +kernel

/-! ## Transfers, from the layouts of section 11.8 -/

/-- CLOCK_GET has kind 14, COIN_CLASS_SET kind 10, CONDITION_CLEAR kind 19, and a host read is one byte of 0. -/
theorem test_decode_requests :
    decodeTransfer .host [14, 7, 0] = some (.clockGet .host 7 []) ∧
      decodeTransfer .service [10, 9, 4, 3, 0, 50, 1] = some (.coinClassSet .service 9 [3, 0, 50, 1]) ∧
      decodeTransfer .host [19, 1, 1, 2] = some (.conditionClear .host 1 [2]) ∧
      decodeTransfer .host [0] = some (.responseRead .host) ∧
      decodeTransfer .service [0, 5, 0] = some (.unknownRequest .service 0 5 []) := by decide +kernel

/-- A transfer that ends before its body is complete carries no request (R187). -/
theorem test_decode_discards_a_short_transfer : decodeTransfer .host [10, 9, 4, 3, 0, 50] = none := by decide +kernel

/-- Bytes after the last body byte are ignored (log entry 53, the model's choice). -/
theorem test_decode_ignores_bytes_after_the_body :
    decodeTransfer .host [19, 1, 1, 2, 14, 7, 0] = some (.conditionClear .host 1 [2]) := by decide +kernel

/-- No row of the table gives bits, so no word spells a command. -/
theorem test_decode_word : decodeTableWord 16 0 = none := rfl

/-- A tariff record of 42 bytes, written out by the table of section 11.8. -/
theorem test_tariff_record_bytes :
    tariffOffer [0x01, 4, 0x03, 0x12, 0xFF, 0xFF, 0xFF, 0xFF, 8, 10, 0, 0, 9, 0x2E, 0, 0, 0, 0, 0, 0, 0, 0, 0, 0, 5, 0, 20, 0,
        0, 12, 0, 0, 0, 0, 0, 0, 1, 25, 3, 14, 2, 3] =
      some { toDefault := false, replace := true, content :=
        { pre := [0, 3, 1, 2], minLength := 8, maxLength := 10, category := .charged, rates := #v[2350, 0, 0, 0],
          connection := 5, period := 20, rounding := .fixed .carry, minCredit := 12, effectiveFrom := none,
          retireAt := some ⟨⟨2025, 3, 14⟩, 2, 3⟩ } } := by decide +kernel

/-- A prefix character that is not a symbol, and an unused half-byte that is not 15, are refused (R56). -/
theorem test_tariff_record_refuses_characters :
    tariffOffer ([0, 1, 0xCF] ++ List.replicate 5 0xFF ++ List.replicate 34 0) = none ∧
      tariffOffer ([0, 1, 0x10] ++ List.replicate 5 0xFF ++ List.replicate 34 0) = none := by decide +kernel

/-! ## Worked examples of the manual -/

/-- The start-up that found the backup supply lost leaves the reset state. -/
theorem test_reset_is_a_first_start_up :
    after (.mainSupplyStart ⟨[], .closed, .locked, .absent, Vector.replicate 8 true, none⟩)
      { State.reset with supplies := { State.reset.supplies with main := false, backupLost := true } } = State.reset := by
  decide +kernel

/-- Section 1.8: the burst at the column. With nine coins held and three entries bound for the column, a fourth ACCEPTED
report goes to the chute; the third of them had closed every class. -/
theorem test_burst_fills_the_column :
    let s := inState .collecting (withCoin (path [entry .column 100 400, entry .column 100 480] (List.replicate 9 (coin 50))
      .idle) { ready with now := 160, settings := { ready.settings with classes := Vector.replicate 16 ⟨200, true⟩ } })
    s.classInhibited 3 = false ∧ (after (.validatorAccepted 5) s).classInhibited 3 = true ∧
      ((after (.validatorAccepted 3) { after (.validatorAccepted 5) s with now := 200 }).coin.transit.map
        (fun e => (e.dest, e.windowEnds))) =
        [(.column, 400), (.column, 480), (.column, 560), (.overflow, 600)] := by decide +kernel

/-- Section 1.8: the overflow coin's 50 MU are banked, and the current tally counts one coin of class 3. -/
theorem test_overflow_coin_is_banked :
    let t := after .cashboxEntryPulse (inState .collecting (withCoin (path [entry .overflow 50 600] [] .idle)
      { ready with now := 450 }))
    t.credit.banked = 50 ∧ t.coin.transit = [] ∧ t.comp.current.counts[3] = 1 ∧ t.comp.current.totalValue = 50 := by
  decide +kernel

/-- Section 6.12: the CARRY step charges of 47,000 rate-seconds, from acc 0 on. -/
theorem test_carry_charges :
    [0, 5000, 4000, 3000].map (fun acc => ((stepCharge .carry acc 47000).charge, (stepCharge .carry acc 47000).acc)) =
      [(7, 5000), (8, 4000), (8, 3000), (8, 2000)] := by decide +kernel

/-- Section 6.13: STEP_UP charges 8 and STEP_DOWN 7. -/
theorem test_rounded_charges : (stepCharge .stepUp 0 47000).charge = 8 ∧ (stepCharge .stepDown 0 47000).charge = 7 := by
  decide +kernel

/-- Sections 6.12 and 6.13: the runways. -/
theorem test_runways :
    runwayOf .carry 5000 47000 28 20 20 = (80, false) ∧ runwayOf .carry 3000 47000 12 20 20 = (40, false) ∧
      runwayOf .stepUp 0 47000 19 20 20 = (60, false) ∧ runwayOf .stepDown 0 47000 28 20 20 = (100, false) ∧
      runwayOf .carry 2000 47000 14 20 10 = (30, false) := by decide +kernel

/-- A record of section 4.11's table. -/
def numbered (slot : Nat) (pre : List Symbol) (least most : Nat) (category : Category) : TariffRecord :=
  { slot := slot, state := .live, pinned := false, content :=
    { TariffContent.regionDefault with pre := pre, minLength := least, maxLength := most, category := category } }

/-- Section 4.11: the tariff table at 14:00. -/
def exampleTable : TariffTable :=
  { TariffTable.regionDefault with
    base := { TariffContent.regionDefault with minLength := 4, maxLength := 12, category := .charged }
    records := [numbered 1 [0] 8 12 .charged, numbered 2 [0, 0] 6 20 .charged, numbered 3 [0, 9] 10 10 .blocked,
      numbered 4 [1, 1, 2] 3 3 .emergency, numbered 5 [0, 8, 0, 0] 10 10 .free,
      { numbered 6 [0, 0, 4, 4] 12 14 .charged with state := .pending }, numbered 7 [0, 3, 1, 2] 8 10 .charged] }

/-- The slot of the record a verdict completes with. -/
def completedSlot : Verdict → Option Nat
  | .complete r => some r.slot
  | _ => none

/-- Section 4.11: a free number is complete at its tenth symbol, and a barred one refused at once. -/
theorem test_analysis_of_a_free_and_a_barred_number :
    exampleTable.analyse [0, 8, 0] = .more ∧ exampleTable.dialledVerdict [0, 8, 0, 0] = .continue ∧
      completedSlot (exampleTable.dialledVerdict [0, 8, 0, 0, 1, 2, 3, 4, 5, 6]) = some 5 ∧
      exampleTable.dialledVerdict [0, 9] =
        .refused .barred ⟨3, (numbered 3 [0, 9] 10 10 .blocked).content⟩ := by decide +kernel

/-- Section 4.11: at the timeout `03` is too short, `03125567` is complete under slot 7, and `004412345678` under slot 2. -/
theorem test_timeout_verdicts :
    exampleTable.timeoutVerdict [0, 3] = .refused .tooShort ⟨1, (numbered 1 [0] 8 12 .charged).content⟩ ∧
      completedSlot (exampleTable.timeoutVerdict [0, 3, 1, 2, 5, 5, 6, 7]) = some 7 ∧
      completedSlot (exampleTable.timeoutVerdict [0, 0, 4, 4, 1, 2, 3, 4, 5, 6, 7, 8]) = some 2 := by decide +kernel

/-- Section 5.6: the bands of a weekday, and a holiday's. -/
theorem test_bands :
    let points : List SwitchPoint := [⟨0, 2⟩, ⟨480, 0⟩, ⟨1080, 1⟩, ⟨1320, 2⟩]
    [0, 479, 480, 1079, 1080, 1320, 1439].map (fun m => bandAt m points) = [2, 2, 0, 0, 1, 2, 2] ∧
      dayTypeOf ⟨2024, 12, 25⟩ .wednesday [⟨2024, 12, 25⟩] = .holidaySunday ∧
      dayTypeOf ⟨2024, 12, 27⟩ .friday [⟨2025, 1, 1⟩] = .weekday := by decide +kernel

/-- Section 10.8: the report string, with its check digit. -/
theorem test_report_string :
    ({ clock := ⟨⟨2025, 3, 14⟩, 2, 3⟩, station := [4, 1, 7, 2],
       records := [⟨.input 3, false, 2⟩, ⟨.keypad, true, 1⟩, ⟨.collection, false, 1⟩],
       tally := some ⟨1, 84250, 1212⟩ } : ReportSnapshot).string =
      [.star, 4, 1, 7, 2, .star, 2, 5, 0, 3, 1, 4, 0, 2, 0, 3, .star, 1, 8, 1, 0, 0, 2, .star, 0, 9, 2, 0, 0, 1,
        .star, 1, 4, 1, 0, 0, 1, .star, 9, 9, 1, 0, 0, 0, 0, 0, 8, 4, 2, 5, 0, 0, 1, 2, 1, 2, .hash, 1, .hash] := by
  decide +kernel

/-- Section 10.8: ALARM before FAULT before NOTICE, with the counts and state digits of the records. -/
theorem test_report_snapshot_order :
    let s := withRecord (.input 3) (some (condition (.ofInput .housingShock) .alarm .raised 2 0 (at_ 2025 3 14 1 58 30))) true
      (withRecord .keypad (some (condition .keypadStuck .fault .cleared 1 1 (at_ 2025 3 13 16 20 0))) false
        (withRecord .collection (some (condition .cashboxCollected .notice .raised 1 0 (at_ 2025 3 14 0 40 0))) true
          (withRecord .retention none false (withRecord .clock none false ready))))
    s.reportSnapshot.records = [⟨.input 3, false, 2⟩, ⟨.keypad, true, 1⟩, ⟨.collection, false, 1⟩] := by decide +kernel

/-- A clock that reads a time, with its weekday. -/
def clockAt (t : ClockTime) : StationClock :=
  { State.reset.clock with time := t, weekday := t.date.weekday, unset := false }

/-- R77: 2099-12-31 23:59:59 is followed by 2000-01-01 00:00:00, a SATURDAY, and the clock is unset; 2024 has a 29 February
and 2023 none; 2024-12-24 is a TUESDAY (section 5.6). -/
theorem test_calendar :
    (clockAt (at_ 2099 12 31 23 59 59)).advance.time = at_ 2000 1 1 0 0 0 ∧
      (clockAt (at_ 2099 12 31 23 59 59)).advance.weekday = .saturday ∧
      (clockAt (at_ 2099 12 31 23 59 59)).advance.unset = true ∧
      (clockAt (at_ 2024 2 28 23 59 59)).advance.time = at_ 2024 2 29 0 0 0 ∧
      (clockAt (at_ 2023 2 28 23 59 59)).advance.time = at_ 2023 3 1 0 0 0 ∧
      (⟨2024, 12, 24⟩ : Date).weekday = .tuesday := by decide +kernel

/-! ## Witnesses: the queue, the step and the laws -/

/-- A queue with a command at its front. -/
theorem witness_StepRunsFrontCommand :
    ({ State.reset with pending := [.offHook, .onHook] } : State).pending = .offHook :: [.onHook] := rfl

/-- An empty queue with a command due at once, with none due, and with one due at its deadline; and a powered state in which
a deadline runs. -/
theorem witness_IdleStepsAndDeadlines :
    (State.reset.pending = [] ∧ State.reset.due = some .refundCycleStart) ∧ (ready.pending = [] ∧ ready.due = none) ∧
      (({ ready with now := 1000 } : State).due = some .clockSecond ∧
        Instr.clockSecond.deadline { ready with now := 1000 } = some 1000) ∧
      (ready.supplies.main = true ∧ Instr.clockSecond.deadline ready = some 1000) := by decide +kernel

/-- Slot 7 of section 4.11 with the prices of section 6.12. -/
def priced : TariffContent :=
  { TariffContent.regionDefault with
    pre := [0, 3, 1, 2], minLength := 8, maxLength := 10, category := .charged, rates := Vector.replicate 4 2350,
    connection := 5, period := 20, rounding := .fixed .carry }

/-- Commands of both ports with bodies of 0 and 255 bytes, and a content whose body reads back as itself. -/
theorem witness_TransferBytesDecodeToTheirCommand :
    ((Instr.clockGet .host 7 []).wellFormed = true ∧ encodeTransfer (.clockGet .host 7 []) = some (.host, [14, 7, 0])) ∧
      (Instr.unknownRequest .service 27 0 (List.replicate 255 0)).wellFormed = true ∧
      encodeTransfer (.unknownRequest .service 27 0 (List.replicate 255 0)) =
        some (.service, 27 :: 0 :: 255 :: List.replicate 255 0) ∧
      (let c : TariffContent := { priced with effectiveFrom := some ⟨⟨2024, 2, 29⟩, 23, 59⟩, retireAt := some ⟨⟨2099, 12, 31⟩, 0, 0⟩ }
       c.pre.length ≤ 12 ∧ c.minLength ≤ 20 ∧ c.maxLength ≤ 20 ∧ (∀ band : Fin 4, c.rates[band] ≤ 999999) ∧ c.connection ≤ 9999 ∧
        c.period ≤ 600 ∧ c.minCredit ≤ 9999 ∧ c.effectiveFrom.map MinuteTime.valid = some true ∧
        c.retireAt.map MinuteTime.valid = some true ∧
        (tariffOffer (0 :: tariffBytes 7 c)).map TariffOffer.content = some c) := by decide +kernel

/-- A full column with a collect cycle under way and an overflow coin pending. -/
def fullColumn : State :=
  inState .connected (withCoin (path [entry .overflow 50 600] (List.replicate 12 (coin 50)) (.collectStarted 0 600 true false))
    { ready with pending := [.collectGateHome] })

/-- The coin laws at their bounds, and the step. -/
theorem witness_EveryStepKeepsTheCoinLaws :
    (fullColumn.coin.FirstLaw ∧ fullColumn.coin.CollectHasCoin) ∧ ∃ t, step fullColumn = .next t :=
  ⟨⟨by unfold CoinPath.FirstLaw; decide +kernel, by unfold CoinPath.CollectHasCoin; decide +kernel⟩, step_next _⟩

/-- An amount owed while a collect cycle is in flight, with the list at 4 entries. -/
theorem witness_EveryStepKeepsTheAccountLaw :
    let s := { fullColumn with credit := { fullColumn.credit with owed := [⟨1, 1⟩, ⟨2, 1⟩, ⟨3, 1⟩, ⟨4, 65535⟩] } }
    s.OwedLaw ∧ ∃ t, step s = .next t :=
  ⟨by unfold State.OwedLaw; decide +kernel, step_next _⟩

/-- A station at FREE_ONLY by a jammed coin path, its record counted to 255. -/
def jammed : State :=
  let s := withRecord .coinPath (some (condition .coinPathJam .fault .raised 255 254 (at_ 2025 3 14 2 3 0))) false ready
  { s with sup := { s.sup with level := .freeOnly } }

/-- Every record of `jammed` is lawful. -/
theorem jammed_records : ∀ src : Source, ∀ r, jammed.record src = some r → r.Lawful src := by
  have h : ∀ src ∈ Source.all, ∀ r ∈ jammed.record src,
      1 ≤ r.count ∧ r.count ≤ 255 ∧ r.acked ≤ r.count ∧ (r.state = .raised → r.acked < r.count) ∧
        (r.state = .standing → r.acked = r.count) ∧ src.raises r.type r.severity = true := by decide +kernel
  intro src r hr
  exact h src (Source.mem_all src) r hr

/-- The condition table's laws, and the step. -/
theorem witness_EveryStepKeepsTheConditionTable :
    (jammed.LevelHeld ∧ jammed.RecordsLawful) ∧ ∃ t, step jammed = .next t :=
  ⟨⟨by unfold State.LevelHeld; decide +kernel, jammed_records⟩, step_next _⟩

/-- A station after a removal: a closed tally held, with its COLLECTION record. -/
def emptied : State :=
  withRecord .collection (some (condition .cashboxCollected .notice .raised 1 0 (at_ 2025 3 14 0 40 0))) true
    { ready with comp := { ready.comp with
      presence := .absent, generation := 1,
      closedTally := some ⟨{ Tally.zero with totalCoins := 1212, totalValue := 84250 }, false, false, false, false⟩ } }

/-- The tally and its record together, and the step. -/
theorem witness_EveryStepKeepsTallyAndCollectionRecordTogether :
    emptied.CollectionLaw ∧ ∃ t, step emptied = .next t :=
  ⟨⟨by decide +kernel, by decide +kernel, by
    have h : ∀ r ∈ emptied.record .collection, r.active = true := by decide +kernel
    intro r hr; exact h r hr⟩, step_next _⟩

/-- The decision of a charged call under slot 7. -/
def decision : Decision := ⟨[0, 3, 1, 2, 5, 5, 6, 7], 7, .charged, 0, 5⟩

/-- The call's numbers and flags. -/
def callInfo : CallInfo := { number := 1, symbols := decision.symbols, slot := 7, category := .charged, flags := .empty }

/-- The line call of a session, in TONE and SIGNALLED mode. -/
def lineCall (owner : LineOwner) (mode : AnswerMode) : LineCall :=
  { owner := owner, position := 8, request :=
    { dialString := decision.symbols, method := .tone, answerMode := mode, presumedDelay := 12, answerLimit := 90 } }

/-- A caller's call in RINGING, with slot 7 pinned, in an answer mode. -/
def ringing (mode : AnswerMode) : State :=
  let s := inState .ringing { ready with
    tariff := { ready.tariff with records := [⟨7, priced, .live, true⟩] }
    line := { Line.startUp with state := .awaitAnswer, call := some (lineCall .session mode), deadline := 90000,
                                presumedEnds := if mode = .presumed then some 0 else none }
    rating := { Rating.startUp with callNumber := 1, context := .placed callInfo } }
  { s with session := { s.session with decision := some decision, buffer := decision.symbols } }

/-- The call's RATED context after its answer, `acc` rate-seconds unpaid. -/
def ratedCall (acc : Nat) : RatedCall :=
  { rounding := .carry, answeredAt := 0, nextBoundary := 20000, acc := acc, lastBand := 0, steps := 1, total := 12,
    warning := none, runway := 20 }

/-- The call connected, at an instant, with banked credit. -/
def connected (now banked : Nat) : State :=
  let s := ringing .signalled
  { s with
    now := now
    credit := { s.credit with banked := banked }
    line := { s.line with state := .connected }
    session := { s.session with state := .connected }
    rating := { s.rating with context := .rated callInfo (ratedCall 5000) } }

/-- The table, the call and the pin of a connected call, and the step. -/
theorem witness_EveryStepKeepsTheCallLaws :
    ((connected 0 28).tariff.Lawful ∧ (connected 0 28).CallLaw ∧ (connected 0 28).PinLaw) ∧
      ∃ t, step (connected 0 28) = .next t :=
  ⟨⟨by unfold TariffTable.Lawful; decide +kernel, by unfold State.CallLaw; decide +kernel, by decide +kernel,
    by decide +kernel, by decide +kernel, by intro d h; right; cases h; decide +kernel⟩, step_next _⟩

/-- A report being sent after 4 failed attempts. -/
def sending : State :=
  let r : ReportSnapshot := { clock := ⟨⟨2025, 3, 14⟩, 2, 3⟩, station := [4], records := [⟨.keypad, true, 1⟩], tally := none }
  { ready with
    line := { Line.startUp with state := .connected, call := some (lineCall .report .signalled),
                                sending := some ⟨r.string, r.string.length * 140⟩ }
    report := { ReportUnit.startUp with state := .sending, attempts := 4, snapshot := some r }
    sup := { ready.sup with records := ready.sup.records.set 8 (some
      { condition .keypadStuck .fault .cleared 1 1 (at_ 2025 3 13 16 20 0) with snapshot := some ⟨1, true⟩ }) } }

/-- The report unit's laws, and the step. -/
theorem witness_EveryStepKeepsTheReportUnitLawful : sending.report.Lawful ∧ ∃ t, step sending = .next t :=
  ⟨by unfold ReportUnit.Lawful; decide +kernel, step_next _⟩

/-- Figures at their tops, on the last second of the calendar, and the step. -/
theorem witness_EveryStepKeepsTheFiguresAndTheCalendar :
    let s := { emptied with
      comp := { emptied.comp with current :=
        ⟨Vector.replicate 16 65535, 65535, 4294967295, 65535, 4294967295, 4294967295, 65535⟩ }
      clock := clockAt (at_ 2099 12 31 23 59 59) }
    (s.FiguresInRange ∧ s.clock.Lawful) ∧ ∃ t, step s = .next t :=
  ⟨⟨⟨by unfold Tally.InRange; decide +kernel, by
    intro t h; cases h; unfold Tally.InRange; decide +kernel, by decide +kernel⟩, by
    unfold StationClock.Lawful; decide +kernel⟩, step_next _⟩

/-! ## Witnesses: the supplies and the coin path -/

/-- A start-up's readings, with its cashbox removed or not, the regions that fail, and the cut of its supply. -/
def starting (failed : List Region) (presence : Presence) (cut : Option StartCut) : Instr :=
  .mainSupplyStart ⟨failed, .closed, .locked, presence, Vector.replicate 8 true, cut⟩

/-- `ready` with 40 MU banked and two coins held, its supply lost. -/
def unpowered : State :=
  after .mainSupplyLoss { ready with credit := { ready.credit with banked := 40 }, coin := path [] [coin 50, coin 20] .idle }

/-- The main supply on, and lost; a start-up after the backup supply was lost, at elapsed time 0; and a start-up cut while the
regions are judged (with the escrow region's default written and without, and with a default record staged), before B is
forfeited, between the forfeit and the clearing of B, and after both. -/
theorem witness_LostSuppliesChangeNothingElse :
    ready.supplies.main = true ∧
    (unpowered.supplies.main = false ∧ (after .backupSupplyLoss unpowered).supplies.backupLost = true ∧ unpowered.now = 0) ∧
    ((after (starting [.escrow, .clock] .present (some (.judging [.escrow]))) unpowered).coin.column = [] ∧
      (after (starting [.escrow, .clock] .present (some (.judging [.clock]))) unpowered).credit.banked = 40) ∧
    [30, 31, 32].map (fun n =>
      let t := after (starting [.settings] .present (some (.after n))) unpowered
      (t.supplies.main, t.comp.current.forfeit, t.credit.banked)) = [(false, 0, 40), (false, 40, 40), (false, 40, 0)] ∧
    (after (starting [] .absent (some (.after 1))) unpowered).comp.closedTally.isSome = true ∧
    (let s := { unpowered with tariff := { unpowered.tariff with basePinned := true, staging := some priced } }
     (after (starting [.tariff] .present (some (.judging []))) s).tariff = s.tariff ∧
      (after (starting [.tariff] .present (some (.judging [.tariff]))) s).tariff = .regionDefault ∧
      (after (starting [] .present (some (.after 0))) s).tariff.base = priced) := by decide +kernel

/-- A start-up that finds a forced removal, and one that finds every region failed; a retained record in report, one of a normal
source, one of an input whose line stands inactive, and a CLEARED one of a disabled source. -/
theorem witness_StartUpLeavesEachBlockAtItsStartUpValues :
    (after (starting [] .absent none) unpowered).comp.generation = 1 ∧
    (after (starting Region.all .present none) unpowered).supplies.outcomeFailed = Region.all ∧
    (let r (x : ConditionState) : ConditionRecord := condition .keypadStuck .fault x 1 0 (at_ 2025 3 14 2 3 0)
     let s := withRecord .keypad (some { r .raised with snapshot := some ⟨1, false⟩ }) true
      (withRecord (.input 2) (some (r .raised)) true (withRecord .retention (some (r .cleared)) false unpowered))
     let t := after (starting [] .present none)
      { s with settings := { s.settings with reportEnable := s.settings.reportEnable.set 11 false } }
     (t.record .keypad).map (fun r => (r.state, r.snapshot)) = some (.cleared, none) ∧
      t.normal (.input 2) = false ∧ t.sup.inputs[(2 : Fin 8)].clearFrom = none ∧ t.record .retention = none) := by
  decide +kernel

/-- The transit list below and at 4 entries, the column one short of full and full, the streak at 1 and 2, and an entry at its
window end. -/
theorem witness_TransitEntriesAreMadeAndExpire :
    (let s := withCoin (path [] (List.replicate 11 (coin 50)) .idle) ready
     s.supplies.main = true ∧ s.coin.transit.length < 4 ∧ s.coin.column.length + s.coin.columnBound = 11) ∧
    (let s := withCoin (path [entry .column 50 400] (List.replicate 11 (coin 50)) .idle) ready
     s.coin.transit.length < 4 ∧ 12 ≤ s.coin.column.length + s.coin.columnBound) ∧
    (let s := withCoin { path (List.replicate 4 (entry .column 50 400)) [] .idle with streak := 1 } ready
     4 ≤ s.coin.transit.length ∧ s.coin.streak < 2) ∧
    (let s := withCoin { path (List.replicate 4 (entry .column 50 400)) [] .idle with streak := 2 } { ready with now := 400 }
     4 ≤ s.coin.transit.length ∧ 2 ≤ s.coin.streak ∧ s.coin.transit = entry .column 50 400 :: List.replicate 3 (entry .column 50 400) ∧
      (entry .column 50 400).windowEnds ≤ s.now) := by decide +kernel

/-- A powered state, with the count at its top. -/
theorem witness_RejectedReportCounts :
    let s := withCoin { path [] [] .idle with rejectedCount := 65535 } ready
    s.supplies.main = true ∧ (after .validatorRejected s).coin.rejectedCount = 0 := by decide +kernel

/-- A COLUMN entry behind an OVERFLOW one; none, with 11 coins held, and with 12; and CLEARING after its refund has completed,
where the coin is refunded, and after it has timed out, where it is not (R5). -/
theorem witness_ColumnPulseHoldsTheCoin :
    (let s := withCoin (path [entry .overflow 50 400, entry .column 50 400, entry .column 50 480] [] .idle) ready
     s.supplies.main = true ∧ s.coin.refundInFlight = false ∧
      s.coin.transit = [entry .overflow 50 400] ++ entry .column 50 400 :: [entry .column 50 480] ∧
      (∀ x ∈ [entry .overflow 50 400], x.dest ≠ .column) ∧ (entry .column 50 400).dest = .column) ∧
    (∀ x ∈ [entry .overflow 50 400], x.dest ≠ .column) ∧
    (path [entry .overflow 50 400] (List.replicate 11 (coin 50)) .idle).column.length < 12 ∧
    12 ≤ (path [] (List.replicate 12 (coin 50)) .idle).column.length ∧
    (let ended (c : Instr) : State :=
      after .columnEntryPulse (after c { withCoin (path [] [coin 50] (.refund 1200 false true))
        (inState .clearing { ready with now := 1200 }) with credit := { ready.credit with account := .closing } })
     (ended .refundGateHome).coin.waiting = some ⟨false, false⟩ ∧ (ended .refundWindowTimeout).coin.waiting = none ∧
      (ended .refundGateHome).session.state = .clearing) := by decide +kernel

/-- A refund in flight, with a COLUMN entry pending and with none. -/
theorem witness_ColumnPulseDuringRefundPassesToTheCup :
    let s := withCoin (path [entry .column 50 400] [] (.refund 1200 false true)) ready
    s.supplies.main = true ∧ s.coin.refundInFlight = true ∧ s.coin.transit = [] ++ entry .column 50 400 :: [] ∧
      (after .columnEntryPulse s).coin.transit = [] ∧ (after .columnEntryPulse s).coin.refundedCount = 1 := by decide +kernel

/-- `ready` in a connected session that owes these entries, with a coin path and banked credit. -/
def owing (owed : List OwedEntry) (banked : Nat) (c : CoinPath) : State :=
  let s := inState .connected (withCoin c ready)
  { s with credit := { s.credit with owed := owed, banked := banked } }

/-- `ready` keeps its figures in range. -/
theorem ready_figures : ready.FiguresInRange :=
  ⟨by unfold Tally.InRange; decide +kernel, nofun, by decide +kernel⟩

/-- A started cycle without its pulse; an OVERFLOW coin that pays what is owed to the last MU, one that passes the top of B, and
one with no session open; and no entry at all. -/
theorem witness_CashboxPulseCountsTheCoin :
    ready.FiguresInRange ∧
    (withCoin (path [] [coin 50] (.collectStarted 0 600 false false)) ready).coin.cycle = .collectStarted 0 600 false false ∧
    (let s := inState .connected (withCoin (path [entry .overflow 50 600] [] .collectHeld)
      { ready with credit := { ready.credit with owed := [⟨1, 50⟩] } })
     s.supplies.main = true ∧ s.thresholdsQuiet (min 65535 (s.comp.current.totalCoins + 1)) ∧ s.credit.account ≠ .notOpen ∧
      s.credit.banked + 50 ≤ 65535 ∧ owedTotal s.credit.owed ≤ s.credit.banked + 50) ∧
    (∀ g ends home, GateCycle.collectHeld ≠ .collectStarted g ends false home) ∧
    (let t := after .cashboxEntryPulse (owing [] 65530 (path [entry .overflow 50 600] [] .idle))
     t.credit.banked = 65535 ∧ t.credit.sessionForfeit = 45 ∧ t.comp.current.forfeit = 45) ∧
    (let t := after .cashboxEntryPulse (withCoin (path [entry .overflow 50 600] [] .idle) ready)
     t.credit.banked = 0 ∧ t.credit.sessionForfeit = 0 ∧ t.comp.current.forfeit = 50 ∧ t.comp.current.totalValue = 50) ∧
    ∀ x ∈ ready.coin.transit, x.dest ≠ .overflow :=
  ⟨ready_figures, by decide +kernel, by unfold State.thresholdsQuiet; decide +kernel, nofun, by decide +kernel,
    by decide +kernel, by decide +kernel⟩

/-- A cycle held back with and without an OVERFLOW entry; one started; and one that has seen its gate home, or its pulse, with a
CREDITED coin at the bottom that pays what is owed. -/
theorem witness_CollectCycleStartsAndCompletes :
    (let s := withCoin (path [entry .column 50 400] [coin 50] .collectHeld) ready
     s.coin.cycle = .collectHeld ∧ ∀ x ∈ s.coin.transit, x.dest ≠ .overflow) ∧
    (let s := withCoin (path [entry .overflow 50 400] [coin 50] .collectHeld) ready
     s.coin.cycle = .collectHeld ∧ ∃ x ∈ s.coin.transit, x.dest = .overflow) ∧
    (let s := inState .connected (withCoin (path [] [coin 50] (.collectStarted 0 600 false true))
      { ready with credit := { ready.credit with owed := [⟨1, 12⟩] } })
     s.coin.column = { cls := some 3, value := 50, tag := .credited } :: [] ∧ s.credit.account ≠ .notOpen ∧
      s.credit.banked + 50 ≤ 65535 ∧ owedTotal s.credit.owed ≤ s.credit.banked + 50 ∧
      s.thresholdsQuiet (min 65535 (s.comp.current.totalCoins + 1)) ∧
      s.coin.cycle = .collectStarted s.comp.generation 600 false true) ∧
    fullColumn.coin.cycle = .collectStarted fullColumn.comp.generation 600 true false :=
  ⟨by decide +kernel, by decide +kernel, by unfold State.thresholdsQuiet; decide +kernel, by decide +kernel⟩

/-- A started collect cycle of generation 0 that has seen its gate home, or its cashbox pulse, with a coin at the bottom. -/
def collecting (c : HeldCoin) (pulse home : Bool) (s : State) : State :=
  withCoin (path [] [c] (.collectStarted 0 600 pulse home)) s

/-- `emptied` in an open session, with its closed tally's changed mark and a release withheld. -/
def withholding (changed : Bool) : State :=
  inState .connected { emptied with comp := { emptied.comp with
    closedTally := emptied.comp.closedTally.map (fun t => { t with changed := changed, withheld := true }) } }

/-- An UNVALUED coin of a cycle of the current generation; a CREDITED one of the generation before, by the pulse and by the gate's
return home, in a session and without one; a cycle at its window end; and a release withheld, with the changed mark and without. -/
theorem witness_LateCoinsAndCollectTimeouts :
    (let s := collecting ⟨none, 0, .unvalued⟩ false true ready
     s.supplies.main = true ∧ s.coin.cycle = .collectStarted s.comp.generation 600 false true ∧
      s.coin.column = ⟨none, 0, .unvalued⟩ :: [] ∧ (after .cashboxEntryPulse s).comp.current.uncredited = 1) ∧
    (let s := collecting (coin 50) false true (inState .connected emptied)
     s.supplies.main = true ∧ 0 ≠ s.comp.generation ∧ s.comp.closedTally.isSome = true ∧
      (after .cashboxEntryPulse s).credit.banked = 50 ∧ (after .cashboxEntryPulse s).comp.current.totalCoins = 0 ∧
      (after .cashboxEntryPulse s).comp.closedTally.map (fun t => (t.figures.totalCoins, t.figures.totalValue, t.changed)) =
        some (1213, 84300, true)) ∧
    (let t := after .collectGateHome (collecting (coin 50) true false emptied)
     t.credit.banked = 0 ∧ t.comp.current.forfeit = 50 ∧ (t.record .collection).map ConditionRecord.count = some 2) ∧
    (let s := collecting (coin 50) false false { withholding false with now := 600 }
     600 ≤ s.now ∧ (withholding false).comp.closedTally.map ClosedTally.withheld = some true ∧
      (after .collectWindowTimeout s).comp.closedTally = none ∧
      ((withholding true).resolveWithheld 0).comp.closedTally.map ClosedTally.withheld = some false) := by decide +kernel

/-- A waiting refund whose noted entries are gone, with the gate usable and inhibited; one held back; a refund cycle at its window
end; and a collect gate that comes home with no cycle in flight. -/
theorem witness_RefundCyclesStartAndEnd :
    (State.reset.supplies.main = true ∧ State.reset.coin.waiting = some ⟨true, false⟩ ∧ State.reset.coin.cycle = .idle ∧
      (∀ e ∈ State.reset.coin.transit, e.noted = false) ∧ State.reset.gateInhibited .refund = false) ∧
    (withRecord .refundGate (some (condition .gateJam .fault .standing 1 1 (at_ 2025 3 14 2 3 0))) true
      State.reset).gateInhibited .refund = true ∧
    (let s := withCoin { path [{ entry .column 50 400 with noted := true }] [] .idle with waiting := some ⟨false, true⟩ } ready
     ∃ e ∈ s.coin.transit, e.noted = true) ∧
    (let s := withCoin (path [] [coin 50] (.refund 1200 true false)) { ready with now := 1200 }
     s.coin.cycle = .refund 1200 true false ∧ 1200 ≤ s.now) ∧ ready.coin.refundInFlight = false ∧
    (ready.coin.cycle = .idle ∧ (after (.gateLeavesHome .collect) ready).normal .collectGate = false ∧
      (after .collectGateHome (after (.gateLeavesHome .collect) ready)).normal .collectGate = true) := by decide +kernel

/-- A watch at its end; a slot normal, and abnormal with its ALARM record. -/
theorem witness_CupAndSlotAreWatched :
    (let s := withCoin { path [] [] .idle with watches := [⟨1500, false⟩] } { ready with now := 1500 }
     s.supplies.main = true ∧ s.coin.watches = ⟨1500, false⟩ :: [] ∧ 1500 ≤ s.now ∧ s.normal .coinSlot = true) ∧
    (let s := withRecord .coinSlot (some (condition .slotBlocked .alarm .raised 1 0 (at_ 2025 3 14 2 3 0))) true ready
     s.normal .coinSlot = false ∧ (∀ r ∈ s.record .coinSlot, r.severity = .alarm)) := by decide +kernel

/-! ## Witnesses: credit, compartment and tariff table -/

/-- B that pays the list exactly; B that ends within the second entry, with a collect in flight, with none and an empty column, and
with a coin to collect. -/
theorem witness_SettlementAndWriteOff :
    owedTotal (owing [⟨1, 5⟩, ⟨1, 7⟩] 12 (path [] [] .idle)).credit.owed ≤ 12 ∧
    (owedTotal [⟨1, 5⟩] ≤ 11 ∧ 11 < owedTotal [⟨1, 5⟩] + 7) ∧
    (owing [⟨1, 5⟩, ⟨2, 7⟩] 11 (path [] [coin 20] (.collectStarted 0 600 false false))).coin.collectInFlight = true ∧
    (let s := owing [⟨1, 5⟩, ⟨2, 7⟩] 11 (path [] [] .idle)
     s.credit.owed = [⟨1, 5⟩] ++ ⟨2, 7⟩ :: [] ∧ s.coin.collectInFlight = false ∧ s.coin.column = []) ∧
    (let s := owing [⟨1, 5⟩, ⟨2, 7⟩] 11 (path [] [coin 20] .idle)
     s.coin.collectInFlight = false ∧ s.collectable = true ∧ s.coin.column ≠ [] ∧ s.coin.refundInFlight = false) ∧
    (owing [⟨1, 5⟩] 0 (path [] [coin 20] (.refund 1200 false false))).coin.refundInFlight = true ∧
    ready.FiguresInRange :=
  ⟨by decide +kernel, by decide +kernel, by decide +kernel, by decide +kernel, by decide +kernel, by decide +kernel,
    ready_figures⟩

/-- The contexts that hold the entry's call, and one that holds another. -/
theorem witness_UnrecoveredFlagGoesToItsOwnCall :
    callInfo.number = 1 ∧ (ringing .signalled).rating.context = .placed callInfo ∧
      (connected 0 28).rating.context = .rated callInfo (ratedCall 5000) ∧
      ({ Rating.startUp with context := .unrated callInfo 0 } : Rating).context = .unrated callInfo 0 ∧
      ready.rating.context = .empty ∧ callInfo.number ≠ 2 := by decide +kernel

/-- A list whose newest entry is the call's, one where it is another's, and a list of 4 entries. -/
theorem witness_ChargeJoinsTheOwedList :
    (owing [⟨1, 5⟩, ⟨2, 7⟩] 0 (path [] [] .idle)).credit.owed = [⟨1, 5⟩] ++ [⟨2, 7⟩] ∧
      ([⟨1, 5⟩, ⟨2, 7⟩, ⟨3, 1⟩] : List OwedEntry).length < 4 ∧
      (∀ e ∈ ([⟨1, 5⟩, ⟨2, 7⟩, ⟨3, 1⟩] : List OwedEntry).getLast?, e.call ≠ 4) ∧ ([] : List OwedEntry).getLast? = none ∧
      3 ≤ ([⟨2, 7⟩, ⟨3, 1⟩, ⟨4, 1⟩] : List OwedEntry).length ∧
      (∀ e ∈ ([⟨2, 7⟩, ⟨3, 1⟩, ⟨4, 1⟩] : List OwedEntry).getLast?, e.call ≠ 5) ∧ 1 ≤ (1 : Nat) := by decide +kernel

/-- An account closing with nothing owed, and one that still owes. -/
theorem witness_SessionCloseForfeitsBanked :
    (let s := { ready with credit := { ready.credit with account := .closing, banked := 4 } }
     s.supplies.main = true ∧ s.credit.account = .closing ∧ s.credit.owed = [] ∧ s.coin.collectInFlight = false ∧
      (after .sessionEndClose s).comp.current.forfeit = 4) ∧
    (owing [⟨1, 5⟩] 0 (path [] [coin 20] .collectHeld)).credit.owed ≠ [] := by decide +kernel

/-- A session that waits for credit, with `banked` MU against a threshold of 12. -/
def awaiting (banked : Nat) : State :=
  let s := inState .awaitCredit { ready with
    tariff := { ready.tariff with records := [⟨7, priced, .live, true⟩] }
    credit := { ready.credit with banked := banked } }
  { s with session := { s.session with decision := some decision, buffer := decision.symbols, threshold := some 12,
                                       timer := some ⟨.creditWait, 30000⟩ } }

/-- A context that is EMPTY is not RATED. -/
theorem empty_not_rated {x : RatingContext} (h : x = .empty) : ∀ call c, x ≠ .rated call c := by
  intro call c e
  rw [h] at e
  cases e

/-- Credit unchanged; changed with no call; changed in AWAIT_CREDIT below and at the threshold; and changed in a RATED call. -/
theorem witness_NewCreditIsHandedOn :
    ready.available = 0 ∧ ready.available ≠ 1 ∧ (∀ call c, ready.rating.context ≠ .rated call c) ∧
      ready.session.state ≠ .awaitCredit ∧ (∀ call c, (awaiting 11).rating.context ≠ .rated call c) ∧
      (awaiting 11).session.state = .awaitCredit ∧ (awaiting 11).session.decision = some decision ∧
      (awaiting 11).available < (awaiting 11).thresholdOf decision.slot ∧
      (awaiting 12).thresholdOf decision.slot ≤ (awaiting 12).available ∧
      (connected 0 28).rating.context = .rated callInfo (ratedCall 5000) ∧ (connected 0 28).session.state ≠ .awaitCredit :=
  ⟨by decide +kernel, by decide +kernel, empty_not_rated (by decide +kernel), by decide +kernel,
    empty_not_rated (by decide +kernel), by decide +kernel, by decide +kernel, by decide +kernel,
    by decide +kernel, by decide +kernel, by decide +kernel⟩

/-- A door closed on a locked key and on another; a door open; a cashbox to remove, with no tally closed, with one, and with a
collect held back. -/
theorem witness_CompartmentReadingsAndRemoval :
    (ready.supplies.main = true ∧ ready.comp.door = .closed ∧ ready.comp.key = .locked ∧ ready.comp.presence = .present ∧
      ready.coin.cycle ≠ .collectHeld ∧ ready.comp.closedTally = none) ∧
    (after (.keyReading .service) ready).comp.key ≠ .locked ∧
    (let s := after (.doorReading .opened) ready
     s.comp.door = .opened ∧ ∀ r ∈ s.record .compartment, r.severity = .alarm) ∧
    (withCoin (path [entry .overflow 50 400] [coin 50] .collectHeld) ready).coin.cycle = .collectHeld ∧
    (after .cashboxInsertion emptied).comp.presence = .present ∧ (after .cashboxInsertion emptied).comp.closedTally.isSome = true
    := by decide +kernel

/-- The host port takes a request in `s`. -/
theorem admits_host {s : State} (h : s.supplies.main = true) (hp : s.hostPort.phase = .free) : s.admits .host :=
  ⟨h, fun _ => .inl hp, nofun⟩

/-- The service port takes a request while the door is open and the key in SERVICE. -/
theorem admits_service : (after (.doorReading .opened) (after (.keyReading .service) ready)).admits .service :=
  ⟨by decide +kernel, nofun, fun _ => by decide +kernel⟩

/-- No tally; a tally with a late cycle; one in a report being sent; and one free to be released. -/
theorem witness_TallyReleaseDiscardsTheClosedTally :
    (ready.admits .host ∧ ready.comp.closedTally = none) ∧
    (let s := withCoin (path [] [coin 50] (.collectStarted 0 600 false false)) emptied
     s.comp.closedTally ≠ none ∧ ∃ g ends pulse home, s.coin.cycle = .collectStarted g ends pulse home ∧ g ≠ s.comp.generation) ∧
    (let s := { emptied with report := { emptied.report with state := .sending } }
     let s' := { s with sup := { s.sup with records := s.sup.records.set 13 (some
       { condition .cashboxCollected .notice .raised 1 0 (at_ 2025 3 14 0 40 0) with snapshot := some ⟨1, false⟩ }) } }
     s'.report.state = .sending ∧ ∃ r snap, s'.record .collection = some r ∧ r.snapshot = some snap) ∧
    (emptied.admits .host ∧ emptied.comp.closedTally ≠ none ∧ emptied.coin.cycle = .idle ∧
      ∀ r ∈ emptied.record .collection, r.snapshot = none) :=
  ⟨⟨admits_host (by decide) (by decide), by decide +kernel⟩, ⟨by decide +kernel, 0, 600, false, false, by decide +kernel⟩,
    ⟨by decide +kernel, _, _, rfl, rfl⟩, admits_host (by decide +kernel) (by decide +kernel), by decide +kernel⟩

/-- A tariff record of 42 bytes for the prefix `0312`, with a target byte, a maximum length and a retire-at. -/
def offerBytes (target most : Byte) (retire : List Byte) : List Byte :=
  [target, 4, 0x03, 0x12, 0xFF, 0xFF, 0xFF, 0xFF, 8, most, 0, 0, 9, 0x2E, 0, 0, 0, 0, 0, 0, 0, 0, 0, 0, 5, 0, 20, 0, 0, 12, 0, 0, 0,
    0, 0, 0] ++ retire

/-- A retire-at that is absent. -/
def noRetire : List Byte := [0, 0, 0, 0, 0, 0]

/-- The default record's 42 bytes. -/
def defaultBytes : List Byte := [0x80, 0, 0xFF, 0xFF, 0xFF, 0xFF, 0xFF, 0xFF, 1, 20, 3] ++ List.replicate 15 0 ++ [60, 0] ++
  List.replicate 14 0

/-- A table with a record in every slot. -/
def everySlot : List TariffRecord := (List.range 239).map (fun n => numbered (n + 1) [1] 8 10 .charged)

/-- Offers that R56 allows, for the table and for slot 0, and one it does not (a maximum of 21); a table with and without a
record of the prefix, and a full one; the lowest free slot of section 4.11's table; and slots in each state. -/
theorem witness_TariffRecordsArePutAndWithdrawn :
    ready.admits .host ∧ (offerBytes 0 10 noRetire).length = 42 ∧ defaultBytes.length = 42 ∧
    (tariffOffer (offerBytes 0 21 noRetire)).map (fun o => o.content.maxLength) = some 21 ∧
    (∃ o, tariffOffer (offerBytes 1 10 noRetire) = some o ∧ o.toDefault = false ∧ o.replace = true ∧
      o.acceptable ready.clock.time.toMinute = true) ∧
    (∃ o, tariffOffer defaultBytes = some o ∧ o.toDefault = true ∧ o.acceptable ready.clock.time.toMinute = true) ∧
    (∃ r ∈ exampleTable.records, r.content.pre = [0, 3, 1, 2] ∧ r.state ≠ .retiring ∧ windowsIntersect r.content priced = true) ∧
    (∀ n, 1 ≤ n → n ≤ 239 → ∃ r ∈ everySlot, r.slot = n) ∧
    ((∀ n, n < 8 → 1 ≤ n → ∃ r ∈ exampleTable.records, r.slot = n) ∧ ∀ r ∈ exampleTable.records, r.slot < 8) ∧
    (∀ r ∈ exampleTable.records, r.slot ≠ 8) ∧
    ((connected 0 28).tariff.records = [] ++ ⟨7, priced, .live, true⟩ :: [] ∧ (7 : Byte).toNat = 7 ∧ 239 < (240 : Byte).toNat) ∧
    (let t : MinuteTime := ⟨⟨2024, 12, 24⟩, 18, 0⟩
     windowsIntersect { priced with retireAt := some t } { priced with effectiveFrom := some t } = false) :=
  ⟨admits_host (by decide) (by decide), by decide +kernel, by decide +kernel, by decide +kernel, ⟨_, rfl, by decide +kernel⟩,
    ⟨_, rfl, by decide +kernel⟩, by decide +kernel,
    fun n h1 h2 => ⟨_, List.mem_map.2 ⟨n - 1, List.mem_range.2 (by omega), rfl⟩, Nat.sub_add_cancel h1⟩, by decide +kernel,
    by decide +kernel, by decide +kernel, by decide +kernel⟩

/-- Section 4.11's table is lawful. -/
theorem exampleTable_lawful : exampleTable.Lawful := by unfold TariffTable.Lawful; decide +kernel

/-- Section 4.11's table at 18:00, when slot 6 comes into force. -/
theorem witness_EvaluationMovesEachRecord :
    exampleTable.Lawful ∧ (evaluate ⟨⟨2024, 12, 24⟩, 18, 0⟩ (exampleTable.records.map (fun r =>
      if r.slot = 6 then { r with content := { r.content with effectiveFrom := some ⟨⟨2024, 12, 24⟩, 18, 0⟩ } } else r))).map
        TariffRecord.state = List.replicate 7 .live := ⟨exampleTable_lawful, by decide +kernel⟩

/-- Strings whose chosen record is a LIVE one, and the default: MORE, BLOCKED, below and at the maximum, and at each end of the
allowed lengths. -/
theorem witness_AnalysisGivesTheVerdicts :
    exampleTable.Lawful ∧
    (∃ r ∈ exampleTable.records, r.slot = 5 ∧ (r.state = .live ∧ r.content.pre <+: [0, 8, 0, 0]) ∧
      ∀ q ∈ exampleTable.records, q.state = .live ∧ q.content.pre <+: [0, 8, 0, 0] → q.content.pre.length ≤ 4) ∧
    (∀ r ∈ exampleTable.records, ¬ (r.state = .live ∧ r.content.pre <+: [5])) ∧
    (∃ r ∈ exampleTable.records, r.state = .live ∧ [0, 8, 0] <+: r.content.pre ∧ 3 < r.content.pre.length) ∧
    (numbered 3 [0, 9] 10 10 .blocked).content.category = .blocked ∧
    ([0, 8, 0, 0, 1, 2, 3, 4, 5, 6] : List Symbol).length = (numbered 5 [0, 8, 0, 0] 10 10 .free).content.maxLength := by
  refine ⟨exampleTable_lawful, ?_⟩
  decide +kernel

/-! ## Witnesses: the clock and rating -/

/-- An ordinary second and the last one of the calendar; and section 5.6's weekday at minute 1079. -/
theorem witness_CalendarAndBands :
    ((clockAt (at_ 2024 12 24 17 59 30)).Lawful ∧ (at_ 2024 12 24 17 59 30) ≠ ⟨⟨2099, 12, 31⟩, 23, 59, 59⟩) ∧
    (clockAt (at_ 2099 12 31 23 59 59)).Lawful ∧
    (let c := { clockAt (at_ 2024 12 24 17 59 30) with weekdaySchedule := [⟨0, 2⟩, ⟨480, 0⟩, ⟨1080, 1⟩, ⟨1320, 2⟩] }
     c.schedule (dayTypeOf c.time.date c.weekday c.holidays) = [⟨0, 2⟩] ++ ⟨480, 0⟩ :: [⟨1080, 1⟩, ⟨1320, 2⟩] ∧
      480 ≤ c.time.hour * 60 + c.time.minute ∧
      ∀ x ∈ ([⟨1080, 1⟩, ⟨1320, 2⟩] : List SwitchPoint), c.time.hour * 60 + c.time.minute < x.minute) :=
  ⟨⟨by unfold StationClock.Lawful; decide +kernel, by decide +kernel⟩, by unfold StationClock.Lawful; decide +kernel,
    by decide +kernel⟩

/-- The main supply lost with and without the backup; a second within a minute, at a minute's end, and at the calendar's end; and
two seconds executed late. -/
theorem witness_ClockSecondRunsTheMinuteEvent :
    ((after .mainSupplyLoss ready).supplies.main = false ∧ (after .mainSupplyLoss ready).supplies.backupLost = false) ∧
    (after .backupSupplyLoss (after .mainSupplyLoss ready)).supplies.backupLost = true ∧
    (ready.supplies.main = true ∧ (clockAt (at_ 2024 12 24 17 59 30)).advance.time.second ≠ 0) ∧
    ((clockAt (at_ 2024 12 24 17 59 59)).advance.time.second = 0 ∧
      (clockAt (at_ 2024 12 24 17 59 59)).time ≠ ⟨⟨2099, 12, 31⟩, 23, 59, 59⟩) ∧
    (clockAt (at_ 2099 12 31 23 59 59)).time = ⟨⟨2099, 12, 31⟩, 23, 59, 59⟩ ∧
    (let t := after .clockSecond (after .clockSecond { ready with now := 2500 })
     t.clock.nextSecond = 3000 ∧ t.clock.time.second = 2 ∧ t.now = 2500) := by decide +kernel

/-- The last day of a leap February and the day after it; two dates rising, and 25 dates; a schedule of two points, and one that
does not begin at minute 0. -/
theorem witness_ClockHolidaysAndBandsAreSet :
    ready.admits .host ∧ (29 ≤ daysIn (2000 + (24 : Byte).toNat) (2 : Byte).toNat ∧ ¬ 30 ≤ daysIn 2024 2) ∧
    (let body : List Byte := [2, 0x31, 0x99, 0x32, 0x21]
     body.length = 1 + 2 * byteAt body 0 ∧ (∀ d ∈ holidaysAt body 1 (byteAt body 0), d.valid = true) ∧
      ((holidaysAt body 1 (byteAt body 0)).map Date.key).Pairwise (· < ·) ∧ byteAt body 0 ≤ 24) ∧
    (let body : List Byte := 25 :: List.replicate 50 0x21
     body.length = 1 + 2 * byteAt body 0 ∧ body.length ≤ 60 ∧ ¬ byteAt body 0 ≤ 24) ∧
    (let body : List Byte := [0, 2, 0, 0, 2, 1, 0xE0, 0]
     body.length = 2 + 3 * byteAt body 1 ∧ dayTypeOfCode (byteAt body 0) = some .weekday ∧
      pointsAt body 2 (byteAt body 1) = ([⟨0, 2⟩, ⟨480, 0⟩] : List SwitchPoint).map (fun q => (q.minute, q.band.val))) ∧
    (let body : List Byte := [0, 1, 0, 1, 0]
     body.length = 2 + 3 * byteAt body 1 ∧ body.length ≤ 60 ∧
      ∀ points : List SwitchPoint, points.head?.map SwitchPoint.minute = some 0 →
        pointsAt body 2 (byteAt body 1) ≠ points.map (fun q => (q.minute, q.band.val))) := by
  refine ⟨admits_host (by decide) (by decide), by decide +kernel, by decide +kernel, by decide +kernel, by decide +kernel,
    by decide +kernel, by decide +kernel, ?_⟩
  intro points h e
  cases points with
  | nil => simp at h
  | cons q rest =>
    have h1 : q.minute = 0 := by simpa using h
    have h2 : pointsAt [0, 1, 0, 1, 0] 2 (byteAt [0, 1, 0, 1, 0] 1) = [(1, 0)] := by decide +kernel
    rw [h2] at e
    simp only [List.map_cons, List.cons.injEq, Prod.mk.injEq] at e
    omega

/-- Step amounts below, at and above the limit, and of 0; an accumulator at its top. -/
theorem witness_StepChargesThresholdAndRunway :
    (393210000 ≤ 393210000 ∧ 0 < 393209999 ∧ 393209999 < 393210000 ∧ 5999 < 6000) ∧
      0 < (stepCharge .stepDown 0 6000).charge ∧ (stepCharge .stepDown 0 5999).charge = 0 ∧
      furtherSteps .carry 0 0 5 = none ∧ furtherSteps .carry 5000 47000 28 = some 3 ∧ 5 + 3 * 21843 + 1 ≤ 65535 ∧
      65535 < 5 + 3 * 21844 := by decide +kernel

/-- A step that can be paid to the last MU, and one that cannot; a warning for that boundary, and none. -/
theorem witness_LookAheadWarnsOfTheNextBoundary :
    (connected 0 8).rating.context = .rated callInfo (ratedCall 5000) ∧
      (let n := ((connected 0 8).tariff.contentOf 7).rates[(connected 0 8).clock.band] * ((connected 0 8).tariff.contentOf 7).period
       n = 47000 ∧ (stepCharge .carry 5000 n).charge ≤ (connected 0 8).available ∧
        (connected 0 7).available < (stepCharge .carry 5000 n).charge) ∧
      (ratedCall 5000).warning = none ∧
      ({ ratedCall 5000 with warning := some ⟨20000, 5000, true⟩ } : RatedCall).warning = some ⟨20000, 5000, true⟩ := by
  decide +kernel

/-- A ringing call in SIGNALLED mode that can pay 5 + 7 exactly and one that cannot, and in PRESUMED mode at its delay's end; and
a free call. -/
theorem witness_AnswerRatesTheCall :
    (let s := { ringing .signalled with credit := { (ringing .signalled).credit with banked := 12 } }
     s.supplies.main = true ∧ s.line.state = .awaitAnswer ∧ s.line.call = some (lineCall .session .signalled) ∧
      s.session.state = .ringing ∧ s.session.decision = some decision ∧ s.rating.context = .placed callInfo ∧
      callInfo.category = .charged ∧
      5 + (stepCharge .carry 0 47000).charge ≤ s.available ∧ (after .polarityReversal s).available = 0) ∧
    (ringing .signalled).available < 5 + (stepCharge .carry 0 47000).charge ∧
    (let s := ringing .presumed
     (∃ t, s.line.presumedEnds = some t ∧ t ≤ s.line.deadline ∧ t ≤ s.now) ∧ (after .presumedDelayEnd s).session.state = .ended) ∧
    ({ callInfo with category := .free } : CallInfo).category ≠ .charged :=
  ⟨by decide +kernel, by decide +kernel, ⟨⟨0, by decide +kernel⟩, by decide +kernel⟩, by decide +kernel⟩

/-- A boundary reached with the next step's 8 MU at hand, and with 7; a tone at its start. -/
theorem witness_StepBoundaryChargesOrCutsOff :
    ((connected 20000 8).supplies.main = true ∧ (ratedCall 5000).nextBoundary ≤ (connected 20000 8).now ∧
      (connected 20000 8).session.state = .connected ∧ (connected 20000 8).session.decision.isSome = true) ∧
    ((after .stepBoundary (connected 20000 8)).session.state = .connected ∧
      (after .stepBoundary (connected 20000 8)).available = 0 ∧
      (after .stepBoundary (connected 20000 7)).session.state = .ended ∧ (connected 20000 7).available < 8) ∧
    (let w : Warning := ⟨20000, 5000, false⟩
     w.playing = false ∧ w.toneStart ≤ (connected 5000 0).now) := by decide +kernel

/-- Both ports. -/
theorem witness_AccruedFlagsAreReadAndCleared : ready.admits .host :=
  admits_host (by decide) (by decide)

/-- Contexts of each kind, and a call held. -/
theorem witness_CallEndClosesEverythingTheCallHeld :
    ready.rating.context = .empty ∧ (ringing .signalled).rating.context = .placed callInfo ∧
      ((connected 80000 4).rating.context = .rated callInfo (ratedCall 5000) ∧ (ratedCall 5000).answeredAt = 0 ∧
        (ratedCall 5000).steps = 1 ∧ (ratedCall 5000).total = 12) ∧
      (connected 0 4).session.decision = some decision ∧
      ((after .followOnPress (connected 80000 4)).rating.summary.map (fun m => (m.duration, m.total))) = some (80, 12) := by
  decide +kernel

/-! ## Witnesses: the line -/

/-- The line of a caller's call in a state, with a dialling phase. -/
def lineIn (x : LineState) (phase : DialPhase) (s : State) : State :=
  { s with line := { s.line with state := x, phase := phase } }

/-- A caller's call being placed, with its line in a state. -/
def placing (x : LineState) : State :=
  let s := lineIn x .sent (ringing .signalled)
  { s with session := { s.session with state := .placing } }

/-- A report call with its line in a state. -/
def reportLine (x : LineState) (r : ReportState) : State :=
  { ready with
    line := { Line.startUp with state := x, call := some (lineCall .report .signalled) }
    report := { ReportUnit.startUp with state := r } }

/-- A request waiting on a FREE line, the session's and the report unit's; a line being seized, and waiting for dial tone; the
failures of both owners. -/
theorem witness_SeizureAndDialTone :
    (let s := { ready with line := { ready.line with sessionRequest := some (lineCall .session .signalled).request } }
     s.supplies.main = true ∧ s.line.state = .free ∧ s.normal .line = true ∧ s.line.sessionRequest.isSome = true ∧
      (after .lineGrant s).line.state = .seizing) ∧
    (let s := { ready with line := { ready.line with reportRequest := some (lineCall .report .signalled).request } }
     s.line.sessionRequest = none ∧ s.line.reportRequest.isSome = true ∧ s.session.state = .idle ∧
      (after .lineGrant s).line.state = .seizing) ∧
    ((placing .seizing).line.state = .seizing ∧ (placing .awaitDialTone).line.state = .awaitDialTone ∧
      (placing .seizing).lineOwner = some .session ∧ (placing .seizing).session.state = .placing ∧
      (placing .seizing).session.decision.isSome = true) ∧
    ((reportLine .awaitDialTone .calling).lineOwner = some .report ∧ (reportLine .awaitDialTone .calling).report.state = .calling) := by
  decide +kernel

/-- A string in TONE and in PULSE; each phase of a symbol, the first and the last; and the end of the dialling. -/
theorem witness_OutDiallingSendsEverySymbol :
    (let s := lineIn .dialling .tone (placing .dialling)
     let first := { s with line := { s.line with call := some { lineCall .session .signalled with position := 0 } } }
     s.supplies.main = true ∧ first.line.state = .dialling ∧ first.line.phase ≠ .sent ∧ first.line.phaseEnds ≤ first.now ∧
      0 < (lineCall .session .signalled).request.dialString.length ∧ (lineCall .session .signalled).request.dialString ≠ []) ∧
    ((lineCall .session .signalled).request.method = .tone ∧ 6 + 1 < decision.symbols.length ∧ 7 + 1 = decision.symbols.length) ∧
    (1 ≤ (1 : Nat) ∧ 2 ≤ (10 : Nat) ∧ decision.symbols.drop 7 = 7 :: []) ∧
    (placing .dialling).line.diallingEnds ≤ (placing .dialling).now ∧
    (sending.line.state = .connected ∧ sending.lineOwner = some .report ∧ sending.line.sending.isSome = true ∧
      (connected 0 4).line.state = .connected ∧ (connected 0 4).lineOwner = some .session ∧
      (connected 0 4).line.sending = none) := by decide +kernel

/-- A tone string sends each symbol as 70 ms of its tone and 70 ms of silence (R118, R122): the opening `*` and the station number
4 of a report. -/
theorem test_tone_string_drives_each_symbol :
    [0, 69, 70, 139, 140, 209, 210].map (fun t => ({ sending with now := t } : State).symbolTone) =
      [some Symbol.star, some Symbol.star, none, none, some 4, some 4, none] ∧
    (sending.line.sending.map (fun t => [139, 140, t.sentAt].map t.position) =
      some [0, 1, (sending.line.sending.map (fun t => t.symbols.length)).getD 0]) := by decide +kernel

/-- A busy tone while a caller's call rings, a far-end clear, an answer wait at its end, and a lost line; the same of a report
call; a loop open in a pulse, and lost between two digits; and a presumed delay longer than the answer limit. -/
theorem witness_LineControllerEndsTheCall :
    (ringing .signalled).line.state = .awaitAnswer ∧ (connected 0 4).line.state = .connected ∧
      (connected 0 4).line.call.map (fun c => c.request.answerMode) = some .signalled ∧
      ({ ringing .signalled with now := 90000 } : State).line.deadline ≤ 90000 ∧
      ((ringing .signalled).supplies.main = true ∧ (ringing .signalled).lineOwner = some .session ∧
        (ringing .signalled).session.state.holdsCall = true ∧ (ringing .signalled).session.decision.isSome = true) ∧
      ((reportLine .awaitAnswer .calling).lineOwner = some .report ∧ (reportLine .awaitAnswer .calling).report.state = .calling) ∧
      ready.line.state = .free ∧
      (let s := lineIn .dialling (.pulseBreak 3) (placing .dialling)
       after .loopCurrentLoss s = s ∧ (after .loopCurrentLoss (lineIn .dialling .interDigit s)).session.state = .ended) ∧
      (let s := { ringing .presumed with now := 90001, line := { (ringing .presumed).line with presumedEnds := some 90001 } }
       s.line.deadline < 90001 ∧ after .presumedDelayEnd s = s ∧ (after .answerWaitEnd s).session.state = .ended ∧
        ({ s with clock := { s.clock with nextSecond := 91000 } } : State).due = some .answerWaitEnd) := by decide +kernel

/-- A guard at its end, with a report unit that waits for it and without; a line normal, abnormal, and a report that waits for
it. -/
theorem witness_GuardEndAndLinePresence :
    (let s := lineIn .releasing .sent ready
     s.supplies.main = true ∧ s.line.state = .releasing ∧ s.line.deadline ≤ s.now ∧ s.report.state ≠ .releasing) ∧
    ({ lineIn .releasing .sent ready with report := { ReportUnit.startUp with state := .releasing, outcome := some .failed } }
      : State).report.state = .releasing ∧
    (ready.line.state ≠ .releasing ∧ ready.normal .line = true ∧ ready.report.timer ≠ some .waitingLine) ∧
    (let s := withRecord .line (some (condition .lineDown .fault .raised 1 0 (at_ 2025 3 14 2 3 0))) true
      { ready with report := { ready.report with timer := some .waitingLine } }
     let numbered : State := { s with settings := { s.settings with centreNumber := [1] } }
     s.normal .line = false ∧ (State.makeNormal .line s).report.state = .scheduled ∧
      (State.makeNormal .line s).report.timer = some .waitingLine ∧ s.settings.centreNumber = [] ∧
      (after .linePresent10s s).line.reportRequest = none ∧ (after .linePresent10s s).report.attempts = 1 ∧
      (after .linePresent10s numbered).report.state = .waitLine) ∧
    (State.makeNormal .line (reportLine .awaitAnswer .calling)).report.state ≠ .scheduled := by decide +kernel

/-! ## Witnesses: reports -/

/-- A report unit in SCHEDULED whose timer has run out, with a centre number. -/
def expired (centre : List Symbol) (method : DialMethod) : State :=
  { ready with
    report := { ready.report with timer := some (.running 0) }
    settings := { ready.settings with centreNumber := centre, method := method } }

/-- A report unit that has ended an attempt. -/
def ended (outcome : ReportOutcome) (attempts : Nat) : ReportUnit :=
  { ReportUnit.startUp with state := .releasing, outcome := some outcome, attempts := attempts }

/-- A unit at rest and one in an attempt; an expiry with no centre number, with LINE abnormal, with one PULSE cannot send, and
with one TONE sends; and attempts that ended, at each count. -/
theorem witness_ReportsAreScheduledAndRetried :
    ready.admits .host ∧ ready.report.state = .scheduled ∧
      ¬ (sending.report.state = .idle ∨ sending.report.state = .scheduled ∨ sending.report.state = .deferred) ∧
      ((expired [] .tone).supplies.main = true ∧ (expired [] .tone).report.state = .scheduled ∧
        (expired [] .tone).report.timer = some (.running 0) ∧ (expired [] .tone).settings.centreNumber = []) ∧
      (withRecord .line none true (expired [1] .tone)).normal .line = false ∧
      ((expired [1, .star] .pulse).normal .line = true ∧ (∃ k ∈ (expired [1, .star] .pulse).settings.centreNumber, 10 ≤ k.val)) ∧
      ((expired [1] .tone).line.reportRequest = none ∧ (expired [1] .tone).lineOwner ≠ some .report ∧
        (after .retryTimerExpiry (expired [1] .tone)).report.state = .waitLine) ∧
      (ended .acknowledged 0).outcome = some .acknowledged ∧
      ((ended .failed 4).outcome = some .failed ∧ (ended .failed 4).renewal = false ∧ (ended .failed 4).attempts = 4 ∧
        (ended .failed 5).attempts = 5) :=
  ⟨admits_host (by decide) (by decide), by decide +kernel⟩

/-- A number at the top of its width; and a report call answered in each mode. -/
theorem witness_ReportSnapshotAndString :
    (4294967295 < 10 ^ 10 ∧ 255 < 10 ^ 3 ∧ 65535 < 10 ^ 5) ∧
    (let s := reportLine .awaitAnswer .calling
     s.supplies.main = true ∧ s.line.state = .awaitAnswer ∧ s.line.call = some (lineCall .report .signalled) ∧
      s.report.state = .calling ∧ (after .polarityReversal s).report.state = .sending) ∧
    (let s := { reportLine .awaitAnswer .calling with line := { (reportLine .awaitAnswer .calling).line with presumedEnds := some 0 } }
     ∃ t, s.line.presumedEnds = some t ∧ t ≤ s.line.deadline ∧ t ≤ s.now) :=
  ⟨by decide, by decide +kernel, 0, by decide +kernel⟩

/-- `sending` once its string is sent: the unit waits for the reply, to the first sending or to the repeated one. -/
def awaitingReply (repeated : Bool) : State :=
  { sending with
    line := { sending.line with sending := none }
    report := { sending.report with state := .awaitReply, repeated := repeated, replyEnds := some 8000 } }

/-- A record in report. -/
def reported (state : ConditionState) (count acked : Nat) (digit : Bool) : ConditionRecord :=
  { condition .keypadStuck .fault state count acked (at_ 2025 3 13 16 20 0) with snapshot := some ⟨1, digit⟩ }

/-- `emptied` with its COLLECTION record in report, of a count, and its tally's changed mark. -/
def collected (count : Nat) (changed : Bool) (cycle : GateCycle) : State :=
  let s := withRecord .collection (some { condition .cashboxCollected .notice .raised count 0 (at_ 2025 3 14 0 40 0) with
    snapshot := some ⟨1, false⟩ }) true (withCoin (path [] [coin 50] cycle) emptied)
  { s with comp := { s.comp with closedTally := s.comp.closedTally.map (fun t => { t with changed := changed }) } }

/-- A string at its end; a reply awaited, for the first and for the repeated string, and at its end; records acknowledged that
have and have not changed; and the closed tally in each of the three cases. -/
theorem witness_CentreReplyDecidesTheAttempt :
    (let s := { sending with now := 14 * 140 + 10000 }
     s.supplies.main = true ∧ s.line.state = .connected ∧ (∀ tones ∈ s.line.sending, tones.sentAt ≤ s.now) ∧
      s.lineOwner = some .report ∧ s.report.state = .sending ∧ (after .toneStringSent s).report.state = .awaitReply) ∧
    ((awaitingReply false).lineOwner = some .report ∧ (awaitingReply false).report.state = .awaitReply ∧
      (awaitingReply false).report.snapshot.isSome = true ∧ (awaitingReply false).report.repeated = false ∧
      (awaitingReply false).line.sending = none ∧ (awaitingReply true).report.repeated = true) ∧
    ((after .acknowledgeClassified (awaitingReply false)).report.state = .releasing ∧
      (after .acknowledgeClassified (awaitingReply false)).record .keypad = none) ∧
    ((awaitingReply false).report.replyEnds = some 8000 ∧ 8000 ≤ ({ awaitingReply false with now := 8000 } : State).now) ∧
    (let s := withRecord .keypad (some (reported .cleared 1 1 true)) false ready
     s.record .keypad = some (reported .cleared 1 1 true) ∧ s.reportEnabled .keypad = true ∧
      (reported .cleared 1 1 true).snapshot = some ⟨1, true⟩ ∧ (reported .raised 2 0 false).count ≠ 1) ∧
    ((collected 1 false .idle).lateCycle = false ∧ (collected 1 false (.collectStarted 0 600 false false)).lateCycle = true ∧
      ((collected 2 false .idle).record .collection).map ConditionRecord.count = some 2 ∧
      (collected 1 true .idle).comp.closedTally.map ClosedTally.changed = some true) := by decide +kernel

/-! ## Witnesses: the session -/

/-- `ready` in CLEARING, with the hook on or off and the account closed. -/
def clearing (hook : Hook) : State := { ready with session := { ready.session with state := .clearing, hook := hook } }

/-- A handset down in IDLE, with and without a report call, and in CLEARING; a handset up with a call and without; and a clearing
that has ended, and one whose refund still waits; and reorder tone on and off. -/
theorem witness_HookOpensAndEndsTheSession :
    (ready.supplies.main = true ∧ ready.session.hook = .on ∧ ready.session.state = .idle ∧ ready.lineOwner ≠ some .report) ∧
    (sending.lineOwner = some .report ∧ sending.line.state.seized = true ∧ sending.report.state = .sending ∧
      (after .offHook sending).report.timer = some (.held 0)) ∧
    ((connected 0 4).session.hook = .off ∧ (connected 0 4).session.state ≠ .idle ∧ (connected 0 4).session.state ≠ .clearing ∧
      (connected 0 4).session.decision.isSome = true ∧ (after .onHook (connected 0 4)).session.state = .clearing) ∧
    ((clearing .on).session.state = .clearing ∧ (clearing .on).credit.account = .notOpen ∧
      (∀ w ∈ (clearing .on).coin.waiting, w.ofSession = false) ∧ (clearing .on).coin.cycle = .idle ∧
      (clearing .off).session.hook = .off ∧ (after .clearingEnd (clearing .off)).session.state = .dialWait) ∧
    ([0, 249, 250, 500].map (fun t =>
      ({ inState .ended ready with now := t } : State).toneSounding) = [true, true, false, true] ∧
      ready.localTone = none ∧ ({ inState .awaitCredit ready with now := 200 } : State).toneSounding = false) ∧
    (∃ w, (withCoin { path [] [] .idle with waiting := some ⟨false, true⟩ } (clearing .on)).coin.waiting = some w ∧
      w.ofSession = true) :=
  ⟨by decide +kernel, by decide +kernel, by decide +kernel, by decide +kernel, by decide +kernel, ⟨false, true⟩, rfl, rfl⟩

/-- A session with a key in a state. -/
def withKey (key : Key) (x : KeyState) (s : State) : State :=
  { s with session := { s.session with keys := s.session.keys.set key.idx x } }

/-- `inState .collecting` with a buffer. -/
def dialled (buffer : List Symbol) : State :=
  let s := inState .collecting { ready with tariff := exampleTable }
  { s with session := { s.session with buffer := buffer } }

/-- A key released and pressed; a level that is CLOSED; the buffer with 19 symbols and with 20; a connected call; a key at its 30
s, with KEYPAD normal and abnormal; and the last stuck key. -/
theorem witness_KeysAreTakenByTheSessionState :
    (ready.supplies.main = true ∧ ready.session.keys[(Key.symbol 5).idx] = .released ∧ ready.sup.level ≠ .closed) ∧
    (withKey (.symbol 5) (.pressed 0) ready).session.keys[(Key.symbol 5).idx] ≠ .released ∧
    (inState .dialWait ready).session.state = .dialWait ∧
    ((dialled (List.replicate 19 5)).session.state = .collecting ∧ (dialled (List.replicate 19 5)).session.buffer.length < 20 ∧
      20 ≤ (dialled (List.replicate 20 5)).session.buffer.length) ∧
    ((connected 0 4).session.state = .connected ∧ (connected 0 4).line.state = .connected ∧
      (connected 0 4).lineOwner = some .session ∧ (connected 0 4).line.sending = none) ∧
    ((connected 0 4).session.state.holdsCall = true ∧ (connected 0 4).session.keys[Key.followOn.idx] = .released) ∧
    (let s := withKey (.symbol 11) (.pressed 0) { ready with now := 30000 }
     s.session.keys[(Key.symbol 11).idx] = .pressed 0 ∧ 0 + 30000 ≤ s.now ∧ s.normal .keypad = true ∧
      (after (.keyStuck (.symbol 11)) s).normal .keypad = false) ∧
    (let s := withRecord .keypad (some (reported .raised 1 0 false)) true (withKey .followOn .stuck ready)
     s.normal .keypad = false ∧ (∀ k : Fin 12, s.session.keys[(Key.symbol k).idx] ≠ .stuck) ∧
      (after (.keyRelease .followOn) s).normal .keypad = true) := by decide +kernel

/-- A record that a level allows and one it does not; credit at and below the threshold; strings that each method can send; and
each timer at its end. -/
theorem witness_VerdictsAndTimersMoveTheSession :
    (ready.sup.level = .full ∧ priced.category ≠ .blocked ∧ TariffContent.regionDefault.category = .blocked) ∧
    ((dialled decision.symbols).available = 0 ∧ 0 < (dialled decision.symbols).thresholdOf 0 + 1) ∧
    (ready.settings.method = .tone ∧ ready.line.sessionRequest = none ∧ ready.lineOwner ≠ some .session) ∧
    (¬ ((expired [] .pulse).settings.method = .tone ∨ ∀ k ∈ ([1, .star] : List Symbol), k.val < 10)) ∧
    ((awaiting 0).session.timer = some ⟨.creditWait, 30000⟩ ∧ 30000 ≤ ({ awaiting 0 with now := 30000 } : State).now ∧
      (after .creditWaitTimeout { awaiting 0 with now := 30000 }).session.state = .ended) ∧
    ((after .offHook ready).session.timer = some ⟨.firstSymbol, 20000⟩ ∧
      (after (.symbolKeyPress 0) (after .offHook { ready with tariff := exampleTable })).session.timer =
        some ⟨.interSymbol, 6000⟩) ∧ ready.session.timer = none := by decide +kernel

/-! ## Witnesses: supervision -/

/-- An assignment in a mode. -/
def watching (mode : InputMode) (holdOff : Nat) : Assignment :=
  { type := .housingShock, polarity := .high, mode := mode, qualifyMs := 10, count := 2, window := 1, holdOff := holdOff,
    clearDelay := 1, restriction := .full }

/-- `ready` with input 0 in a state. -/
def withInput (x : SupervisedInput) : State :=
  { ready with now := 1000, sup := { ready.sup with inputs := ready.sup.inputs.set 0 x } }

/-- An input at rest with an assignment. -/
def input (a : Assignment) : SupervisedInput := { SupervisedInput.unused with assignment := a }

/-- An UNUSED input; each mode, with the hold-off running and not; the COUNT window closed, open, and at its count; and each
duration at its end. -/
theorem witness_InputEventsFollowTheAssignment :
    (ready.supplies.main = true ∧ ready.sup.inputs[(0 : Fin 8)].assignment.type = .unused) ∧
    (let s := withInput (input (watching .edge 60))
     s.sup.inputs[(0 : Fin 8)].assignment.type ≠ .unused ∧ s.sup.inputs[(0 : Fin 8)].active = false ∧
      s.sup.inputs[(0 : Fin 8)].holdOffEnds = none ∧ (after (.inputActiveEdge 0) s).normal (.input 0) = false ∧
      (after (.inputActiveEdge 0) s).sup.inputs[(0 : Fin 8)].holdOffEnds = some 61000) ∧
    (let s := withInput (input (watching .level 0))
     s.normal (.input 0) = true ∧ (withRecord (.input 0) none true s).normal (.input 0) = false) ∧
    (let s := withInput { input (watching .count 0) with windowEnds := some 2000, edgeCount := 1 }
     2 ≤ s.sup.inputs[(0 : Fin 8)].assignment.count ∧ s.sup.inputs[(0 : Fin 8)].windowEnds = some 2000 ∧
      s.sup.inputs[(0 : Fin 8)].assignment.count ≤ s.sup.inputs[(0 : Fin 8)].edgeCount + 1) ∧
    (withInput (input (watching .count 0))).sup.inputs[(0 : Fin 8)].windowEnds = none ∧
    (let s := withInput { input (watching .edge 1) with active := true, holdOffEnds := some 1000 }
     s.sup.inputs[(0 : Fin 8)].active = true ∧ s.sup.inputs[(0 : Fin 8)].holdOffEnds = some 1000 ∧ 1000 ≤ s.now) ∧
    (let s := withInput { input (watching .count 0) with windowEnds := some 1000, clearFrom := some 0 }
     s.sup.inputs[(0 : Fin 8)].windowEnds = some 1000 ∧ s.sup.inputs[(0 : Fin 8)].clearFrom = some 0 ∧ 0 + 1 * 1000 ≤ s.now) := by
  decide +kernel

/-- No record, and one counted to 255 and acknowledged to 255; a latched record and an unlatched one, of a normal source and of an
abnormal one; and a latched record to clear. -/
theorem witness_OccurrencesAndClearings :
    ready.record .coinPath = none ∧ (jammed.record .coinPath).map ConditionRecord.count = some 255 ∧
      (condition .coinPathJam .fault .raised 255 254 (at_ 2025 3 14 2 3 0)).severity ≠ .alarm ∧
      jammed.normal .coinPath = true ∧
      (withRecord .keypad (some (reported .raised 1 0 false)) true ready).normal .keypad = false ∧
      ready.admits .host ∧ (1 : Byte).toNat = Source.coinPath.code ∧
      (after (.conditionClear .host 0 [1]) jammed).sup.level = .full ∧ 22 < (23 : Byte).toNat :=
  ⟨by decide +kernel, by decide +kernel, by decide +kernel, by decide +kernel, by decide +kernel,
    admits_host (by decide) (by decide), by decide +kernel⟩

/-- An active record and a CLEARED one; a level derived that is the one held, one that ends a charged call, and one that does
not. -/
theorem witness_ServiceLevelFollowsTheActiveRecords :
    (jammed.sup.records[Source.coinPath.idx]).map ConditionRecord.state = some .raised ∧
      (ready.sup.records[Source.retention.idx]).map ConditionRecord.state = some .cleared ∧
      ready.sup.derivedLevel = ready.sup.level ∧
      (let s := withRecord .line (some (condition .lineDown .fault .raised 1 0 (at_ 2025 3 14 2 3 0))) true (connected 0 28)
       s.sup.derivedLevel = .closed ∧ s.sup.level = .full ∧ s.session.decision = some decision ∧
        s.session.state = .connected ∧ s.deriveLevel.session.state = .ended) ∧
      (let s := withRecord .coinPath (some (condition .coinPathJam .fault .raised 1 0 (at_ 2025 3 14 2 3 0))) false
        (connected 0 28)
       s.sup.derivedLevel = .freeOnly ∧ s.deriveLevel.session.state = .connected) ∧
      (let s := { inState .collecting ready with
        settings := { ready.settings with classes := Vector.replicate 16 ⟨10, true⟩ } }
       s.classInhibited 0 = false ∧ ({ s with comp := { s.comp with presence := .absent } } : State).classInhibited 0 = true ∧
        (withCoin (path [entry .column 50 400] (List.replicate 11 (coin 50)) .idle) s).classInhibited 0 = true) := by decide +kernel

/-! ## Witnesses: the ports -/

/-- A port HELD, FREE and ANSWERED; a service port with its door closed; a body of each wrong length; a response held; the ready
line active and not; and transfers that a service port stretches. -/
theorem witness_RequestsAreTakenLockedOrRefusedFormat :
    ((Instr.clockGet .host 7 [0]).request = some (.host, 14, 7, [0]) ∧ (Instr.clockGet .host 7 [0]).wellFormed = true ∧
      ready.supplies.main = true) ∧
    ({ PortUnit.startUp with phase := .held } : PortUnit).phase = .held ∧
    ((ready.port .service).phase = .free ∧ ready.comp.door = .closed) ∧ ready.admits .host ∧
    (fixedLength 14 = some 0 ∧ ([0] : List Byte).length ≠ 0 ∧ 60 < (List.replicate 61 (0 : Byte)).length ∧ 26 < (27 : Nat)) ∧
    (([0, 1] : List Byte).length ≠ 2 + 3 * byteAt [0, 1] 1 ∧ ([2, 0] : List Byte).length ≠ 1 + 2 * byteAt [2, 0] 0) ∧
    ((after (.clockGet .host 7 []) ready).port .host).phase = .answered ∧
    ((after (.clockGet .host 7 []) ready).port .host).response.isSome = true ∧
    (ready.hostReady = true ∧ (after .mainSupplyLoss ready).hostReady = false ∧
      let x : PortUnit := { PortUnit.startUp with phase := .serving, response := some ((Reply.done .empty).response 14 7) }
      ({ ready with hostPort := x } : State).hostReady = false ∧
      (after (.responseRead .service) { ready with servicePort := x }).servicePort.phase = .free ∧
      ((after (.clockGet .service 7 []) { ready with servicePort := x }).servicePort.response.map Response.status) =
        some .refused) :=
  ⟨by decide +kernel, rfl, by decide +kernel, admits_host (by decide) (by decide), by decide +kernel, by decide +kernel,
    by decide +kernel, by decide +kernel, by decide +kernel⟩

/-- Slots EMPTY, LIVE and above 239; symbol strings of 1 and of 20 symbols, of none and of 21; filters, classes and sources at
their ends. -/
theorem witness_ReadRequestsAnswerAndChangeNothing :
    ready.admits .host ∧ 239 < (240 : Byte).toNat ∧ (∀ r ∈ ready.tariff.records, r.slot ≠ (1 : Byte).toNat) ∧
      exampleTable.Lawful ∧ (∃ r ∈ exampleTable.records, r.slot = (7 : Byte).toNat) ∧
      (symbolStringFits [1, 0x5F] = true ∧ symbolString [1, 0x5F] = some [5]) ∧
      (symbolStringFits (20 :: List.replicate 10 0x12) = true ∧
        (symbolString (20 :: List.replicate 10 0x12)).map List.length = some 20) ∧
      symbolString [0] = some [] ∧ symbolString [1, 0xC0] = none ∧
      (symbolString (21 :: List.replicate 10 0x12 ++ [0x1F])).map List.length = some 21 ∧
      (exampleTable.analyse [0] = .more ∧ (239 : Byte).toNat ≤ 239 ∧ (3 : Byte).toNat ≤ 3 ∧ 3 < (4 : Byte).toNat) ∧
      ((15 : Byte).toNat < 16 ∧ 16 ≤ (16 : Byte).toNat ∧ (22 : Byte).toNat = (Source.input 7).code ∧
        dayTypeOfCode (2 : Byte).toNat = some .holidaySunday) :=
  ⟨admits_host (by decide) (by decide), by decide, by decide +kernel, exampleTable_lawful, by decide +kernel⟩

/-- Values at both ends of their ranges, a report enable turned off and on, and assignments to an input at rest and to one that is
not. -/
theorem witness_SettingsAndAttentionAreSet :
    ready.admits .host ∧ ((15 : Byte).toNat < 16 ∧ (0x13 : Byte).toNat * 256 + (0x88 : Byte).toNat = 5000 ∧ (1 : Byte).toNat ≤ 1) ∧
      (symbolStringFits [1, 0x0F] = true ∧ symbolString [1, 0x0F] = some [0]) ∧
      ((0xFF : Byte).toNat * 256 + (0xFE : Byte).toNat < (0xFF : Byte).toNat * 256 + (0xFF : Byte).toNat) ∧
      (ready.record .retention).map ConditionRecord.state = some .cleared ∧
      (inputTypeOfCode 2 = some .housingShock ∧ polarityOfCode 1 = some .low ∧ inputModeOfCode 2 = some .count) ∧
      ready.sup.inputs[(0 : Fin 8)].assignment.type = .unused ∧
      (withInput { input (watching .edge 1) with active := true }).sup.inputs[(0 : Fin 8)].active = true ∧
      (after (.settingSet .host 0 [6, 0, 61]) ready).settings.warningLead = 60 ∧
      (after (.attentionMask .host 0 [0xFF]) ready).attentionDriven = false :=
  ⟨admits_host (by decide) (by decide), by decide +kernel⟩

/-- A call in progress, with its level and its laws. -/
theorem witness_StationInitResetsSessionAndReports :
    (connected 0 28).admits .host ∧ (connected 0 28).LevelHeld ∧ (connected 0 28).CallLaw ∧
      (after (.stationInit .host 0 []) (connected 0 28)).session.state = .clearing :=
  ⟨admits_host (by decide +kernel) (by decide +kernel), by unfold State.LevelHeld; decide +kernel,
    by unfold State.CallLaw; decide +kernel, by decide +kernel⟩

/-- `ready` with so many coins in its current tally. -/
def holding (coins : Nat) : State :=
  { ready with comp := { ready.comp with current := { Tally.zero with totalCoins := coins } } }

/-- Tallies one short of each threshold and at it, from normal and from abnormal; and a threshold reached at start-up, with an
active record and without. -/
theorem witness_ThresholdsAreJudged :
    [1599, 1600, 1999, 2000].map (fun n =>
      ((holding n).judgeThresholds.normal .cashboxNear, (holding n).judgeThresholds.normal .cashboxFull)) =
      [(true, true), (false, true), (false, true), (false, false)] ∧
    (let t := (holding 2000).judgeThresholds
     (t.record .cashboxNear).map ConditionRecord.severity = some .notice ∧
      (t.record .cashboxFull).map ConditionRecord.severity = some .fault ∧
      ((State.setComp t ready.comp).judgeThresholds.record .cashboxFull).map ConditionRecord.state = some .cleared) ∧
    (let s := withRecord .cashboxNear (some (condition .cashboxNearFull .notice .raised 3 0 (at_ 2025 3 14 2 3 0))) false ready
     s.recordActive .cashboxNear = true ∧ ready.recordActive .cashboxNear = false ∧
      ((s.startThreshold .cashboxNear .cashboxNearFull .notice true).record .cashboxNear).map ConditionRecord.count = some 3) := by
  decide +kernel

end Sys2Proof.Tests
end

/-! ## The coin path's commands (chapter 1)

What the shared steps of the coin path do, case by case, and from them the effect of the validator's reports, of the transit
window's end and of a column entry pulse during a refund. -/

section
namespace Sys2Proof.Machine

/-! ### The frame around a command -/

theorem State.whilePowered_of_main {work : State → State} {s : State} (h : s.supplies.main = true) :
    s.whilePowered work = work s := if_pos h

theorem State.handCredit_of_available_eq {a : Nat} {s : State} (h : s.available = a) : s.handCredit a = s := if_pos h

/-- R24: available credit rests on the column, the credit unit, the compartment and the condition table alone. -/
theorem State.available_congr {s t : State} (hcolumn : t.coin.column = s.coin.column) (hcredit : t.credit = s.credit)
    (hcomp : t.comp = s.comp) (hsup : t.sup = s.sup) : t.available = s.available := by
  have hactive : t.recordActive .collectGate = s.recordActive .collectGate := by
    rw [State.recordActive, State.recordActive, State.record, State.record, hsup]
  have hcollectable : t.collectable = s.collectable := by
    simp only [State.collectable, State.gateInhibited, hactive, hcomp]
  simp only [State.available, State.collectableEscrow, State.escrow, hcollectable, hcolumn, hcredit]

theorem State.reach_of_le {n : Nat} {s : State} (h : n ≤ s.now) : s.reach n = s := by
  rw [State.reach, Nat.max_eq_left h]
  rfl

/-! ### Unconfirmed coins (R8) -/

theorem State.countUnconfirmed_of_lt {s : State} (h : s.coin.streak < 2) :
    s.countUnconfirmed = s.setCoin { s.coin with streak := s.coin.streak + 1 } := if_pos (Nat.succ_lt_succ h)

theorem State.countUnconfirmed_of_le {s : State} (h : 2 ≤ s.coin.streak) :
    s.countUnconfirmed = (s.setCoin { s.coin with streak := 0 }).occurrence .coinPath .coinPathJam .fault :=
  if_neg (by omega)

/-! ### Transit entries (R4, R8) -/

/-- R4: the transit entry that an ACCEPTED report of a class makes. -/
def State.entryOf (cls : Fin 16) (s : State) : TransitEntry :=
  { cls := cls, value := s.settings.classes[cls].value, dest := if s.coin.fill < 12 then .column else .overflow,
    windowEnds := s.now + 400, noted := false }

theorem State.acceptCoin_of_lt {cls : Fin 16} {s : State} (h : s.coin.transit.length < 4) :
    s.acceptCoin cls = s.setCoin { s.coin with transit := s.coin.transit ++ [s.entryOf cls] } := if_pos h

theorem State.acceptCoin_of_le {cls : Fin 16} {s : State} (h : 4 ≤ s.coin.transit.length) :
    s.acceptCoin cls = s.countUnconfirmed := if_neg (Nat.not_lt.2 h)

theorem State.columnBound_entryOf (cls : Fin 16) (s : State) :
    columnBound [s.entryOf cls] = if s.coin.fill < 12 then 1 else 0 := by
  by_cases room : s.coin.fill < 12 <;> simp [State.entryOf, room]

/-- R4: an entry made for the column adds to the sum of held coins and column-bound entries; one for the chute does not. -/
theorem State.fill_acceptCoin {cls : Fin 16} {s : State} (h : s.coin.transit.length < 4) :
    (s.acceptCoin cls).coin.fill = if s.coin.fill < 12 then s.coin.fill + 1 else s.coin.fill := by
  calc (s.acceptCoin cls).coin.fill = s.coin.column.length + columnBound (s.coin.transit ++ [s.entryOf cls]) := by
        rw [State.acceptCoin_of_lt h]; rfl
    _ = s.coin.fill + columnBound [s.entryOf cls] := by rw [columnBound_app, fill_eq, Nat.add_assoc]
    _ = if s.coin.fill < 12 then s.coin.fill + 1 else s.coin.fill := by
        rw [State.columnBound_entryOf]; split <;> rfl

/-- R1: a full column inhibits every class. -/
theorem State.classInhibited_of_le_fill {s : State} (h : 12 ≤ s.coin.fill) (cls : Fin 16) : s.classInhibited cls = true := by
  simp [State.classInhibited, h]

theorem State.expireTransit_of_cons {e : TransitEntry} {rest : List TransitEntry} {s : State}
    (h : s.coin.transit = e :: rest) (ended : e.windowEnds ≤ s.now) :
    s.expireTransit = (s.setCoin { s.coin with transit := rest }).countUnconfirmed := by
  rw [State.expireTransit, h]
  simp only [State.reach_of_le ended]

theorem exec_validatorAccepted {s : State} (h : s.supplies.main = true) (cls : Fin 16) :
    exec (.validatorAccepted cls) s = .next (s.acceptCoin cls) :=
  congrArg _ (State.whilePowered_of_main h)

theorem exec_transitWindowEnd {s : State} (h : s.supplies.main = true) : exec .transitWindowEnd s = .next s.expireTransit :=
  congrArg _ (State.whilePowered_of_main h)

/-- Settles O15: the report by the room in the transit list, and each unconfirmed coin by the streak it meets. -/
theorem transitEntriesAreMadeAndExpire : Obligations.TransitEntriesAreMadeAndExpire := by
  unfold Obligations.TransitEntriesAreMadeAndExpire
  refine ⟨fun cls s hmain => ?accepted, fun e rest s hmain htransit hended => ?expired⟩
  case accepted =>
    rw [exec_validatorAccepted hmain]
    refine ⟨fun hroom => ⟨?entry, ?fills⟩, fun hfull => ?unconfirmed⟩
    case entry => rw [State.acceptCoin_of_lt hroom]; rfl
    case fills =>
      rintro t ⟨⟩
      have hfill := State.fill_acceptCoin (cls := cls) hroom
      exact ⟨fun (h : s.coin.fill = 11) => State.classInhibited_of_le_fill (by rw [hfill, h]; decide),
        fun (h : 12 ≤ s.coin.fill) => hfill.trans (if_neg (Nat.not_lt.2 h))⟩
    case unconfirmed =>
      rw [State.acceptCoin_of_le hfull]
      exact ⟨fun h => congrArg _ (State.countUnconfirmed_of_lt h), fun h => congrArg _ (State.countUnconfirmed_of_le h)⟩
  case expired =>
    rw [exec_transitWindowEnd hmain, State.expireTransit_of_cons htransit hended]
    exact ⟨fun h => congrArg _ (State.countUnconfirmed_of_lt h), fun h => congrArg _ (State.countUnconfirmed_of_le h)⟩

/-! ### The rejected-coin count (R2) -/

@[simp] theorem State.requestRefund_rejectedCount (startUp ofSession : Bool) (s : State) :
    (s.requestRefund startUp ofSession).coin.rejectedCount = s.coin.rejectedCount := by
  unfold State.requestRefund
  split <;> rfl

@[simp] theorem State.endSession_rejectedCount (cause : EndCause) (s : State) :
    (s.endSession cause).coin.rejectedCount = s.coin.rejectedCount := by
  simp [State.endSession]

@[simp] theorem State.initSession_rejectedCount (s : State) : s.initSession.coin.rejectedCount = s.coin.rejectedCount := by
  unfold State.initSession
  split <;> simp

@[simp] theorem State.stationInit_rejectedCount (s : State) :
    s.stationInit.1.coin.rejectedCount = s.coin.rejectedCount := by
  simp [State.stationInit]

theorem State.serve_stationInit_rejectedCount (p : Port) (tag : Byte) (body : List Byte) (s : State) :
    (s.serve p 25 tag body (ofLength 0) State.stationInit).coin.rejectedCount = s.coin.rejectedCount :=
  State.serve_keeps (P := fun u => u.coin.rejectedCount = s.coin.rejectedCount) (fun _ => s.stationInit_rejectedCount)
    (fun _ _ ht => (congrArg CoinPath.rejectedCount (by simp)).trans ht) rfl

/-- R192: a start-up begins the coin path's counts afresh. -/
@[simp] theorem State.restartWith_rejectedCount (lost : Region → Bool) (supplies : Supplies) (s : State) :
    (s.restartWith lost supplies).coin.rejectedCount = 0 := rfl

@[simp] theorem State.startTables_rejectedCount (readings : StartReadings) (s : State) :
    (s.startTables readings).coin.rejectedCount = 0 := by
  simp [State.startTables, State.restartBlocks]

/-- R192: a start-up leaves no rejected coin counted, whether it runs to its end or is cut short. -/
theorem State.startUp_rejectedCount (readings : StartReadings) (s : State) :
    (s.startUp readings).coin.rejectedCount = 0 := by
  unfold State.startUp
  split
  · simp [State.fullStart]
  · simp [State.cutJudging, State.cutTables]
  · simp [State.cutAfter]

/-- Settles O16: every path of a start-up passes through its first blocks, and no part of STATION_INIT counts a coin. -/
theorem rejectedReportCounts : Obligations.RejectedReportCounts := by
  unfold Obligations.RejectedReportCounts
  refine ⟨fun s hmain => ?report, fun s => rfl, ?start, ?init⟩
  case report => exact congrArg _ (State.whilePowered_of_main hmain)
  case start =>
    rintro readings s t ⟨⟩
    exact State.startUp_rejectedCount readings s
  case init =>
    rintro p tag body s t ⟨⟩
    exact State.whilePowered_keeps (P := fun u => u.coin.rejectedCount = s.coin.rejectedCount)
      (fun _ => State.serve_stationInit_rejectedCount p tag body s) rfl

/-! ### A column entry pulse during a refund (R6) -/

theorem takeOldest_append {d : Destination} {older newer : List TransitEntry} {e : TransitEntry}
    (hbefore : ∀ x ∈ older, x.dest ≠ d) (he : e.dest = d) :
    takeOldest d (older ++ e :: newer) = some (e, older ++ newer) := by
  induction older with
  | nil => simp [takeOldest, he]
  | cons x xs ih =>
    obtain ⟨hx, hxs⟩ := List.forall_mem_cons.1 hbefore
    simp [takeOldest, hx, ih hxs]

theorem takeOldest_of_forall_ne {d : Destination} {l : List TransitEntry} (h : ∀ x ∈ l, x.dest ≠ d) :
    takeOldest d l = none := by
  induction l with
  | nil => rfl
  | cons x xs ih =>
    obtain ⟨hx, hxs⟩ := List.forall_mem_cons.1 h
    simp [takeOldest, hx, ih hxs]

theorem State.passToCup_of_some {e : TransitEntry} {rest : List TransitEntry} {s : State}
    (h : takeOldest .column s.coin.transit = some (e, rest)) :
    s.passToCup = s.setCoin { s.coin with
      transit := rest, streak := 0, refundedCount := (s.coin.refundedCount + 1) % 65536 } := by
  rw [State.passToCup, h]
  rfl

theorem State.passToCup_of_none {s : State} (h : takeOldest .column s.coin.transit = none) :
    s.passToCup = s.setCoin { s.coin with refundedCount := (s.coin.refundedCount + 1) % 65536 } := by
  rw [State.passToCup, h]
  rfl

/-- R6: the coin never joins the column. -/
theorem State.passToCup_column (s : State) : s.passToCup.coin.column = s.coin.column := by
  unfold State.passToCup
  split <;> rfl

/-- R6, R24: a coin that passes to the cup leaves available credit as it was. -/
theorem State.passToCup_available (s : State) : s.passToCup.available = s.available :=
  State.available_congr s.passToCup_column (by simp) (by simp) (by simp)

/-- R6: during a refund a column entry pulse has no more effect than the coin's passing, for no credit is new. -/
theorem exec_columnEntryPulse_of_refund {s : State} (hmain : s.supplies.main = true)
    (hrefund : s.coin.refundInFlight = true) : exec .columnEntryPulse s = .next s.passToCup := by
  have hpulse : s.columnPulse = s.passToCup := if_pos hrefund
  calc exec .columnEntryPulse s = .next (s.creditStep State.columnPulse) := congrArg _ (State.whilePowered_of_main hmain)
    _ = .next (s.passToCup.handCredit s.available) := by rw [State.creditStep, hpulse]
    _ = .next s.passToCup := by rw [State.handCredit_of_available_eq s.passToCup_available]

/-- Settles O18, by whether the transit list holds an entry bound for the column. -/
theorem columnPulseDuringRefundPassesToTheCup : Obligations.ColumnPulseDuringRefundPassesToTheCup := by
  unfold Obligations.ColumnPulseDuringRefundPassesToTheCup
  intro s hmain hrefund
  rw [exec_columnEntryPulse_of_refund hmain hrefund]
  refine ⟨fun older e newer htransit hbefore he => ?oldest, fun hnone => ?noEntry⟩
  case oldest =>
    have hfound : takeOldest .column s.coin.transit = some (e, older ++ newer) := by
      rw [htransit, takeOldest_append hbefore he]
    exact congrArg _ (State.passToCup_of_some hfound)
  case noEntry => exact congrArg _ (State.passToCup_of_none (takeOldest_of_forall_ne hnone))

end Sys2Proof.Machine
end

/-! ## The flag of an entry written off (section 2.2)

Where `placeUnrecovered` puts the flag UNRECOVERED, case by case of the rating context, and what the end of a flagged call
hands on. -/

section
namespace Sys2Proof.Machine

/-- The call with UNRECOVERED among its call flags. -/
def CallInfo.withUnrecovered (call : CallInfo) : CallInfo :=
  { call with flags := { call.flags with unrecovered := true } }

@[simp] theorem CallInfo.summary_withUnrecovered (call : CallInfo) (duration steps total : Nat) :
    (call.withUnrecovered.summary duration steps total).flags.unrecovered = true := rfl

@[simp] theorem CallFlags.union_unrecovered (a b : CallFlags) :
    (a.union b).unrecovered = (a.unrecovered || b.unrecovered) := rfl

/-- The summary with UNRECOVERED where it describes call `n`. -/
def CallSummary.flaggedFor (n : Nat) (m : CallSummary) : CallSummary :=
  { m with flags := { m.flags with unrecovered := m.flags.unrecovered || m.number = n } }

theorem CallSummary.flaggedFor_of_eq {n : Nat} {m : CallSummary} (h : m.number = n) :
    m.flaggedFor n = { m with flags := { m.flags with unrecovered := true } } := by
  simp [CallSummary.flaggedFor, h]

/-- R33: a later call that has ended since then does not receive the flag. -/
theorem CallSummary.flaggedFor_of_ne {n : Nat} {m : CallSummary} (h : m.number ≠ n) : m.flaggedFor n = m := by
  simp [CallSummary.flaggedFor, h]

/-- R33: UNRECOVERED of call `n` placed after the call's end. -/
def Rating.flaggedLate (n : Nat) (r : Rating) : Rating :=
  { r with
    accrued := { r.accrued with unrecovered := true }
    summary := r.summary.map (CallSummary.flaggedFor n) }

/-! ### The context holds the entry's call -/

theorem Rating.placeUnrecovered_of_placed {n : Nat} {r : Rating} {call : CallInfo} (h : r.context = .placed call)
    (hn : call.number = n) : r.placeUnrecovered n = { r with context := .placed call.withUnrecovered } := by
  rw [Rating.placeUnrecovered, h]
  exact if_pos hn

theorem Rating.placeUnrecovered_of_rated {n : Nat} {r : Rating} {call : CallInfo} {c : RatedCall}
    (h : r.context = .rated call c) (hn : call.number = n) :
    r.placeUnrecovered n = { r with context := .rated call.withUnrecovered c } := by
  rw [Rating.placeUnrecovered, h]
  exact if_pos hn

theorem Rating.placeUnrecovered_of_unrated {n : Nat} {r : Rating} {call : CallInfo} {t : Nat}
    (h : r.context = .unrated call t) (hn : call.number = n) :
    r.placeUnrecovered n = { r with context := .unrated call.withUnrecovered t } := by
  rw [Rating.placeUnrecovered, h]
  exact if_pos hn

/-- R106, R108: the end of a RATED call writes its call flags to the summary and joins them to the accrued flags. -/
theorem Rating.endCall_of_rated {r : Rating} {call : CallInfo} {c : RatedCall} (h : r.context = .rated call c) (now : Nat) :
    r.endCall now = r.close (call.summary (min top32 ((now - c.answeredAt) / Config.secondMs)) c.steps c.total) := by
  rw [Rating.endCall, h]

theorem Rating.close_unrecovered {summary : CallSummary} (h : summary.flags.unrecovered = true) (r : Rating) :
    (r.close summary).accrued.unrecovered = true ∧
      (r.close summary).summary.map (fun m => m.flags.unrecovered) = some true := by
  simp [Rating.close, h]

/-! ### The context does not hold the entry's call -/

/-- The model's own reading of the late case, summary by summary. -/
theorem Rating.flaggedLate_eq (n : Nat) (r : Rating) :
    r.flaggedLate n = { r with
      accrued := { r.accrued with unrecovered := true }
      summary := r.summary.map (fun m =>
        if m.number = n then { m with flags := { m.flags with unrecovered := true } } else m) } := by
  have hsummary : CallSummary.flaggedFor n = fun m =>
      if m.number = n then { m with flags := { m.flags with unrecovered := true } } else m := by
    funext m
    split
    next h => exact CallSummary.flaggedFor_of_eq h
    next h => exact CallSummary.flaggedFor_of_ne h
  rw [Rating.flaggedLate, hsummary]

theorem Rating.placeUnrecovered_of_empty {n : Nat} {r : Rating} (h : r.context = .empty) :
    r.placeUnrecovered n = r.flaggedLate n := by
  rw [Rating.flaggedLate_eq, Rating.placeUnrecovered, h]

theorem Rating.placeUnrecovered_of_other {n : Nat} {r : Rating} {call : CallInfo} (hn : call.number ≠ n)
    (h : r.context = .placed call ∨ (∃ c, r.context = .rated call c) ∨ ∃ t, r.context = .unrated call t) :
    r.placeUnrecovered n = r.flaggedLate n := by
  rw [Rating.flaggedLate_eq, Rating.placeUnrecovered]
  obtain h | ⟨c, h⟩ | ⟨t, h⟩ := h <;> rw [h] <;> exact if_neg hn

/-- Settles O25, by whether the rating context holds the entry's call. -/
theorem unrecoveredFlagGoesToItsOwnCall : Obligations.UnrecoveredFlagGoesToItsOwnCall := by
  unfold Obligations.UnrecoveredFlagGoesToItsOwnCall
  refine fun n r => ⟨fun call hn => ⟨?placed, fun c hrated => ⟨?rated, fun now => ?ended⟩, ?unrated⟩, ?late⟩
  case placed => exact fun h => Rating.placeUnrecovered_of_placed h hn
  case rated => exact Rating.placeUnrecovered_of_rated hrated hn
  case ended =>
    rw [Rating.placeUnrecovered_of_rated hrated hn, Rating.endCall_of_rated rfl]
    exact Rating.close_unrecovered (CallInfo.summary_withUnrecovered ..) _
  case unrated => exact fun t h => Rating.placeUnrecovered_of_unrated h hn
  case late =>
    rintro (hempty | ⟨call, hn, hother⟩)
    · exact Rating.placeUnrecovered_of_empty hempty
    · exact Rating.placeUnrecovered_of_other hn hother

end Sys2Proof.Machine
end

/-! ## The closed tally's release (section 3.5)

What serving an admitted request does, when TALLY_RELEASE is refused STATE, and what a release leaves of the compartment and
of the condition table. -/

section
namespace Sys2Proof.Machine

/-! ### An admitted request (R43, R187) -/

theorem State.takes_of_admits {p : Port} {s : State} (h : s.admits p) : s.takes p = true := by
  obtain ⟨-, hhost, -⟩ := h
  cases p with
  | host => simpa [State.takes, PortUnit.takes] using hhost rfl
  | service => rfl

theorem State.locks_of_admits {p : Port} {s : State} (h : s.admits p) : s.locks p = false := by
  obtain ⟨-, -, hservice⟩ := h
  cases p with
  | host => rfl
  | service => simpa [State.locks, State.serviceEnabled] using hservice rfl

/-- R187: an admitted request with a body of an allowed length is worked and answered. -/
theorem State.serve_of_admits {p : Port} {body : List Byte} {fits : List Byte → Bool} {s : State} (h : s.admits p)
    (hfits : lengthFits fits body = true) (kind : Nat) (tag : Byte) (work : State → State × Reply) :
    s.serve p kind tag body fits work = (work s).1.answer p ((work s).2.response kind tag) := by
  rw [State.serve, if_pos (State.takes_of_admits h), State.locks_of_admits h, if_neg Bool.false_ne_true, if_pos hfits]

theorem exec_tallyRelease {p : Port} {s : State} (h : s.admits p) (tag : Byte) :
    exec (.tallyRelease p tag []) s = .next (s.releaseTally.1.answer p (s.releaseTally.2.response 17 tag)) :=
  congrArg _ ((State.whilePowered_of_main h.1).trans (State.serve_of_admits h rfl 17 tag State.releaseTally))

/-! ### When the release is refused (R52) -/

theorem State.lateCycle_iff {s : State} : s.lateCycle = true ↔
    ∃ g ends pulse home, s.coin.cycle = .collectStarted g ends pulse home ∧ g ≠ s.comp.generation := by
  unfold State.lateCycle
  cases s.coin.cycle <;> simp

theorem State.collectionInReport_iff {s : State} : s.collectionInReport = true ↔
    (s.report.state = .sending ∨ s.report.state = .awaitReply) ∧
      ∃ r snap, s.record .collection = some r ∧ r.snapshot = some snap := by
  unfold State.collectionInReport
  cases s.record .collection <;> simp [Option.isSome_iff_exists]

theorem State.releaseTally_of_none {s : State} (h : s.comp.closedTally = none) :
    s.releaseTally = (s, .refused .notFound) := if_pos h

theorem State.releaseTally_of_busy {s : State} (hheld : s.comp.closedTally ≠ none)
    (h : s.lateCycle = true ∨ s.collectionInReport = true) : s.releaseTally = (s, .refused .state) := by
  rw [State.releaseTally, if_neg hheld]
  obtain hlate | hreport := h
  · exact if_pos hlate
  · rw [if_pos hreport, ite_self]

theorem State.releaseTally_of_free {s : State} (hheld : s.comp.closedTally ≠ none) (hlate : ¬ s.lateCycle = true)
    (hreport : ¬ s.collectionInReport = true) : s.releaseTally = (s.releaseClosedTally, .done .empty) := by
  rw [State.releaseTally, if_neg hheld, if_neg hlate, if_neg hreport]

/-! ### What a release leaves (R51) -/

/-- R52: of the compartment, a release touches the closed tally alone. -/
theorem State.releaseClosedTally_comp (s : State) :
    s.releaseClosedTally.comp = { s.comp with closedTally := none } := by
  simp [State.releaseClosedTally]

theorem State.releaseClosedTally_record_collection (s : State) : s.releaseClosedTally.record .collection = none := by
  obtain ⟨hrecord, -, -⟩ := collectionLaw_release (s := s)
  rw [State.releaseClosedTally_comp] at hrecord
  simpa using hrecord

theorem State.same_releaseClosedTally {src : Source} {s : State} (h : .collection ≠ src) :
    Same src s s.releaseClosedTally :=
  ((same_sup (t := s.setComp { s.comp with closedTally := none }) rfl).trans (same_retire h)).trans (same_setNormality h)

/-- Settles O30, by the three ways TALLY_RELEASE is judged. -/
theorem tallyReleaseDiscardsTheClosedTally : Obligations.TallyReleaseDiscardsTheClosedTally := by
  unfold Obligations.TallyReleaseDiscardsTheClosedTally
  intro p tag s hadmits
  rw [exec_tallyRelease hadmits, ← State.lateCycle_iff, ← State.collectionInReport_iff]
  refine ⟨fun hnone => ?notFound, fun hheld hbusy => ?busy, fun hheld hlate hreport => ⟨?done, ?comp, ?retired, ?others⟩⟩
  case notFound => rw [State.releaseTally_of_none hnone]; rfl
  case busy => rw [State.releaseTally_of_busy hheld hbusy]; rfl
  case done => rw [State.releaseTally_of_free hheld hlate hreport]; rfl
  case comp => exact s.releaseClosedTally_comp
  case retired => exact s.releaseClosedTally_record_collection
  case others => exact fun src hsrc => (State.same_releaseClosedTally hsrc.symm).1

end Sys2Proof.Machine
end

/-! ## The evaluation (section 4.5)

First the retirements, by whether a record leaves; then the promotions, by whether a record is held PENDING. Both are said of
the records before the evaluation, and `evaluate` is tied to them record by record. -/

section
namespace Sys2Proof.Machine

theorem hasPassed_iff {now : MinuteTime} {retireAt : Option MinuteTime} :
    hasPassed now retireAt = true ↔ ∃ t, retireAt = some t ∧ t.key ≤ now.key := by
  cases retireAt <;> simp [hasPassed]

theorem notYet_iff {now : MinuteTime} {effectiveFrom : Option MinuteTime} :
    notYet now effectiveFrom = true ↔ ∃ e, effectiveFrom = some e ∧ now.key < e.key := by
  cases effectiveFrom <;> simp [notYet]

theorem liveWith_iff {pre : List Symbol} {records : List TariffRecord} :
    liveWith pre records = true ↔ ∃ q ∈ records, q.state = .live ∧ q.content.pre = pre := by
  simp [liveWith]

/-! ### The retirements -/

/-- R64: the record is not RETIRING and its retire-at has come. -/
def TariffRecord.Leaves (now : MinuteTime) (r : TariffRecord) : Prop :=
  r.state ≠ .retiring ∧ ∃ t, r.content.retireAt = some t ∧ t.key ≤ now.key

theorem TariffRecord.retired_of_leaves {now : MinuteTime} {r : TariffRecord} (h : r.Leaves now) :
    r.retired now = r.withdrawn := by
  obtain ⟨hstate, hpassed⟩ := h
  exact if_pos (by simp [hstate, hasPassed_iff.2 hpassed])

theorem TariffRecord.retired_of_not_leaves {now : MinuteTime} {r : TariffRecord} (h : ¬ r.Leaves now) :
    r.retired now = some r := by
  refine if_neg fun hc => h ?_
  simpa [TariffRecord.Leaves, hasPassed_iff] using hc

theorem TariffRecord.withdrawn_eq_some_iff {r k : TariffRecord} :
    r.withdrawn = some k ↔ r.state = .live ∧ r.pinned = true ∧ k = { r with state := .retiring } := by
  rw [TariffRecord.withdrawn, Option.ite_none_right_eq_some, Bool.and_eq_true, decide_eq_true_eq, and_assoc,
    Option.some.injEq, eq_comm (b := k)]

theorem TariffRecord.retired_slot {now : MinuteTime} {r k : TariffRecord} (h : r.retired now = some k) :
    k.slot = r.slot := by
  by_cases hleaves : r.Leaves now
  case pos =>
    rw [retired_of_leaves hleaves] at h
    exact (withdrawn_some h).1
  case neg =>
    rw [retired_of_not_leaves hleaves] at h
    cases h
    rfl

/-- R64: what the retirements leave: the pinned LIVE records that leave, as RETIRING, and the records that do not leave. -/
theorem mem_retirements {now : MinuteTime} {records : List TariffRecord} {k : TariffRecord} :
    k ∈ records.filterMap (TariffRecord.retired now) ↔
      (∃ r ∈ records, r.Leaves now ∧ r.state = .live ∧ r.pinned = true ∧ k = { r with state := .retiring }) ∨
      (k ∈ records ∧ ¬ k.Leaves now) := by
  rw [List.mem_filterMap]
  constructor
  case mp =>
    rintro ⟨r, hr, hk⟩
    by_cases hleaves : r.Leaves now
    case pos =>
      rw [TariffRecord.retired_of_leaves hleaves, TariffRecord.withdrawn_eq_some_iff] at hk
      exact .inl ⟨r, hr, hleaves, hk⟩
    case neg =>
      rw [TariffRecord.retired_of_not_leaves hleaves] at hk
      cases hk
      exact .inr ⟨hr, hleaves⟩
  case mpr =>
    rintro (⟨r, hr, hleaves, hk⟩ | ⟨hk, hstays⟩)
    · exact ⟨r, hr, (TariffRecord.retired_of_leaves hleaves).trans (TariffRecord.withdrawn_eq_some_iff.2 hk)⟩
    · exact ⟨k, hk, TariffRecord.retired_of_not_leaves hstays⟩

/-- R64: a record that the retirements leave LIVE is one that was LIVE and does not leave. -/
theorem liveWith_retirements {now : MinuteTime} {records : List TariffRecord} {pre : List Symbol} :
    liveWith pre (records.filterMap (TariffRecord.retired now)) = true ↔
      ∃ q ∈ records, q.state = .live ∧ ¬ q.Leaves now ∧ q.content.pre = pre := by
  rw [liveWith_iff]
  constructor
  case mp =>
    rintro ⟨q, hq, hlive, hpre⟩
    obtain ⟨r, -, -, -, -, rfl⟩ | ⟨hq, hstays⟩ := mem_retirements.1 hq
    · cases hlive
    · exact ⟨q, hq, hlive, hstays, hpre⟩
  case mpr =>
    rintro ⟨q, hq, hlive, hstays, hpre⟩
    exact ⟨q, mem_retirements.2 (.inr ⟨hq, hstays⟩), hlive, hpre⟩

/-! ### The promotions -/

/-- R64: what holds a PENDING record PENDING: its effective-from, or a LIVE record of the same symbols that does not leave. -/
def TariffRecord.Held (now : MinuteTime) (records : List TariffRecord) (r : TariffRecord) : Prop :=
  (∃ e, r.content.effectiveFrom = some e ∧ now.key < e.key) ∨
    ∃ q ∈ records, q.state = .live ∧ ¬ q.Leaves now ∧ q.content.pre = r.content.pre

theorem TariffRecord.held_iff {now : MinuteTime} {records : List TariffRecord} {r : TariffRecord} :
    r.Held now records ↔ notYet now r.content.effectiveFrom = true ∨
      liveWith r.content.pre (records.filterMap (TariffRecord.retired now)) = true :=
  or_congr notYet_iff.symm liveWith_retirements.symm

theorem TariffRecord.promoted_of_not_held {now : MinuteTime} {records : List TariffRecord} {r : TariffRecord}
    (hpending : r.state = .pending) (h : ¬ r.Held now records) :
    r.promoted now (records.filterMap (TariffRecord.retired now)) = { r with state := .live } := by
  rw [held_iff, not_or] at h
  exact if_pos (by simp [hpending, h])

theorem TariffRecord.promoted_of_held {now : MinuteTime} {records : List TariffRecord} {r : TariffRecord}
    (h : r.state = .pending → r.Held now records) :
    r.promoted now (records.filterMap (TariffRecord.retired now)) = r := by
  refine if_neg fun hc => ?_
  simp only [Bool.and_eq_true, decide_eq_true_eq, Bool.not_eq_true'] at hc
  obtain ⟨⟨hpending, hcome⟩, hnone⟩ := hc
  simpa [hcome, hnone] using held_iff.1 (h hpending)

theorem TariffRecord.promoted_slot (now : MinuteTime) (kept : List TariffRecord) (r : TariffRecord) :
    (r.promoted now kept).slot = r.slot := by
  unfold TariffRecord.promoted
  split <;> rfl

/-! ### The evaluation, taken whole -/

/-- R64: the records after an evaluation, each with the record it was. -/
theorem mem_evaluate {now : MinuteTime} {records : List TariffRecord} {q : TariffRecord} :
    q ∈ evaluate now records ↔
      (∃ r ∈ records, r.Leaves now ∧ r.state = .live ∧ r.pinned = true ∧ q = { r with state := .retiring }) ∨
      (∃ r ∈ records, ¬ r.Leaves now ∧ r.state = .pending ∧ ¬ r.Held now records ∧ q = { r with state := .live }) ∨
      (q ∈ records ∧ ¬ q.Leaves now ∧ (q.state = .pending → q.Held now records)) := by
  rw [evaluate, List.mem_map]
  constructor
  case mp =>
    rintro ⟨k, hk, rfl⟩
    obtain ⟨r, hr, hleaves, hlive, hpinned, rfl⟩ | ⟨hmem, hstays⟩ := mem_retirements.1 hk
    · rw [TariffRecord.promoted_of_held fun hpending => by cases hpending]
      exact .inl ⟨r, hr, hleaves, hlive, hpinned, rfl⟩
    · by_cases hheld : k.state = .pending → k.Held now records
      case pos =>
        rw [TariffRecord.promoted_of_held hheld]
        exact .inr (.inr ⟨hmem, hstays, hheld⟩)
      case neg =>
        obtain ⟨hpending, hfree⟩ := Classical.not_imp.1 hheld
        exact .inr (.inl ⟨k, hmem, hstays, hpending, hfree, TariffRecord.promoted_of_not_held hpending hfree⟩)
  case mpr =>
    rintro (hretiring | ⟨r, hr, hstays, hpending, hfree, rfl⟩ | ⟨hq, hstays, hheld⟩)
    · refine ⟨q, mem_retirements.2 (.inl hretiring), TariffRecord.promoted_of_held fun hpending => ?_⟩
      obtain ⟨r, -, -, -, -, rfl⟩ := hretiring
      cases hpending
    · exact ⟨r, mem_retirements.2 (.inr ⟨hr, hstays⟩), TariffRecord.promoted_of_not_held hpending hfree⟩
    · exact ⟨q, mem_retirements.2 (.inr ⟨hq, hstays⟩), TariffRecord.promoted_of_held hheld⟩

/-- Records that keep their slots or go leave their slots in order, and bring no slot in. -/
theorem map_slot_filterMap_sublist {f : TariffRecord → Option TariffRecord}
    (hf : ∀ {r k}, f r = some k → k.slot = r.slot) (records : List TariffRecord) :
    ((records.filterMap f).map TariffRecord.slot).Sublist (records.map TariffRecord.slot) := by
  induction records with
  | nil => exact .slnil
  | cons r rest ih =>
    cases hr : f r with
    | none => simpa [hr] using ih.cons r.slot
    | some k => simpa [hr, hf hr] using ih

theorem map_slot_evaluate_sublist (now : MinuteTime) (records : List TariffRecord) :
    ((evaluate now records).map TariffRecord.slot).Sublist (records.map TariffRecord.slot) := by
  have hslot : (evaluate now records).map TariffRecord.slot =
      (records.filterMap (TariffRecord.retired now)).map TariffRecord.slot := by
    simp [evaluate, TariffRecord.promoted_slot]
  rw [hslot]
  exact map_slot_filterMap_sublist TariffRecord.retired_slot records

/-- Settles O32: each record by whether it leaves and whether it is held PENDING, with its slot and the table's laws kept. -/
theorem evaluationMovesEachRecord : Obligations.EvaluationMovesEachRecord := by
  unfold Obligations.EvaluationMovesEachRecord
  intro now records leaves held
  refine ⟨fun _ => mem_evaluate, map_slot_evaluate_sublist now records, ?lawful⟩
  case lawful =>
    rintro t rfl hlawful
    exact TariffTable.evaluate_lawful hlawful

end Sys2Proof.Machine
end

/-! ## The accrued rating flags (section 6)

FLAGS_READ_CLEAR as an admitted request: the reply carries the flags from before the clearing, and the port is answered in the
state that the clearing leaves. -/

section
namespace Sys2Proof.Machine

/-- R109: the reply is formed from the flags as they stand, and of the state the accrued flags alone are cleared. -/
theorem State.readClearFlags_eq (s : State) :
    s.readClearFlags =
      ({ s with rating := { s.rating with accrued := CallFlags.empty } }, .done (.callFlags s.rating.accrued)) := rfl

theorem exec_flagsReadClear {p : Port} {s : State} (h : s.admits p) (tag : Byte) :
    exec (.flagsReadClear p tag []) s = .next (s.readClearFlags.1.answer p (s.readClearFlags.2.response 21 tag)) :=
  congrArg _ ((State.whilePowered_of_main h.1).trans (State.serve_of_admits h rfl 21 tag State.readClearFlags))

/-- Settles O41: an admitted request is worked and answered, and its work reads the flags before it clears them. -/
theorem accruedFlagsAreReadAndCleared : Obligations.AccruedFlagsAreReadAndCleared := by
  unfold Obligations.AccruedFlagsAreReadAndCleared
  intro p tag s hadmits
  rw [exec_flagsReadClear hadmits, State.readClearFlags_eq]

end Sys2Proof.Machine
end

/-! ## The laws of every step

Each law is kept by every command's work (Sys2Proof/Laws/), and rests on none of the queue, elapsed time and the ports. -/

section
namespace Sys2Proof.Machine

/-- A law that a command's work keeps, and that rests neither on the queue, nor on elapsed time, nor on the ports, every step
keeps. -/
theorem step_keeps_of_work {P : State → Prop} (work : ∀ c s, P s → P (Instr.work c s))
    (hand : ∀ a s, P s → P (s.handCredit a)) (answer : ∀ p r s, P s → P (s.answer p r))
    (hqueue : ∀ s q, P s → P (s.setPending q)) (htime : ∀ s n, P s → P (s.setNow n)) (s t : State) (hs : P s)
    (h : step s = .next t) : P t :=
  step_keeps (exec_keeps hand answer work) hqueue htime hs h

theorem step_keeps_coinLaws (s t : State) (hs : s.CoinLaws) (h : step s = .next t) : t.CoinLaws :=
  step_keeps_of_work coinLaws_work (fun _ _ => coinLaws_congr (by simp)) (fun _ _ _ => coinLaws_congr (by simp))
    (fun _ _ => coinLaws_congr rfl) (fun _ _ => coinLaws_congr rfl) s t hs h

theorem step_keeps_owedLaw (s t : State) (hs : s.OwedLaw) (h : step s = .next t) : t.OwedLaw :=
  step_keeps_of_work owedLaw_work (fun _ _ => owedLaw_congr (by simp) (by simp))
    (fun _ _ _ => owedLaw_congr (by simp) (by simp)) (fun _ _ => owedLaw_congr rfl rfl) (fun _ _ => owedLaw_congr rfl rfl)
    s t hs h

theorem step_keeps_calendarLaw (s t : State) (hs : s.CalendarLaw) (h : step s = .next t) : t.CalendarLaw :=
  step_keeps_of_work calendarLaw_work (fun _ _ => calendarLaw_congr (by simp)) (fun _ _ _ => calendarLaw_congr (by simp))
    (fun _ _ => calendarLaw_congr rfl) (fun _ _ => calendarLaw_congr rfl) s t hs h

theorem step_keeps_figures (s t : State) (hs : s.FiguresInRange) (h : step s = .next t) : t.FiguresInRange :=
  step_keeps_of_work figures_work (fun _ _ => figures_same (by simp) (by simp))
    (fun _ _ _ => figures_same (by simp) (by simp)) (fun _ _ => figures_same rfl rfl) (fun _ _ => figures_same rfl rfl)
    s t hs h

theorem step_keeps_reportLaw (s t : State) (hs : s.ReportLaw) (h : step s = .next t) : t.ReportLaw :=
  step_keeps_of_work reportLaw_work (fun _ _ => reportLaw_congr (by simp)) (fun _ _ _ => reportLaw_congr (by simp))
    (fun _ _ => reportLaw_congr rfl) (fun _ _ => reportLaw_congr rfl) s t hs h

theorem step_keeps_callLaws (s t : State) (hs : s.CallLaws) (h : step s = .next t) : t.CallLaws :=
  step_keeps_of_work callLaws_work (fun _ _ => callLaws_hand) (fun _ _ _ => callLaws_congr (by simp))
    (fun _ _ => callLaws_congr (by simp)) (fun _ _ => callLaws_congr (by simp)) s t hs h

theorem TableKeeper.step {P : State → Prop} (K : TableKeeper P) (s t : State) (hs : P s) (h : step s = .next t) : P t :=
  step_keeps_of_work K.work (fun _ _ => K.same (by simp)) (fun _ _ _ => K.same (by simp))
    (fun _ _ => K.same (by simp)) (fun _ _ => K.same (by simp)) s t hs h

/-- Settles O5. -/
theorem everyStepKeepsTheCoinLaws : Obligations.EveryStepKeepsTheCoinLaws :=
  fun s t hfirst hcollect h => step_keeps_coinLaws s t ⟨hfirst, hcollect⟩ h

/-- Settles O6. -/
theorem everyStepKeepsTheAccountLaw : Obligations.EveryStepKeepsTheAccountLaw := step_keeps_owedLaw

/-- Settles O7: both laws rest on the condition table, which each command's work keeps lawful. -/
theorem everyStepKeepsTheConditionTable : Obligations.EveryStepKeepsTheConditionTable :=
  ⟨levelHeld_keeper.step, recordsLawful_keeper.step⟩

/-- Settles O8. -/
theorem everyStepKeepsTallyAndCollectionRecordTogether : Obligations.EveryStepKeepsTallyAndCollectionRecordTogether :=
  collectionLaw_keeper.step

/-- Settles O9: the three laws are kept together, since each needs the others at the end of a call. -/
theorem everyStepKeepsTheCallLaws : Obligations.EveryStepKeepsTheCallLaws :=
  fun s t htable hcall hpin h => step_keeps_callLaws s t ⟨htable, hcall, hpin⟩ h

/-- Settles O10. -/
theorem everyStepKeepsTheReportUnitLawful : Obligations.EveryStepKeepsTheReportUnitLawful := step_keeps_reportLaw

/-- Settles O11. -/
theorem everyStepKeepsTheFiguresAndTheCalendar : Obligations.EveryStepKeepsTheFiguresAndTheCalendar :=
  ⟨step_keeps_figures, step_keeps_calendarLaw⟩

/-- Settles O1. -/
theorem stepRunsFrontCommand : Obligations.StepRunsFrontCommand := by
  intro c rest s h
  simp only [step, h]
  rfl

end Sys2Proof.Machine
end

/-! ## Commands, steps and elapsed time

Every command answers a next state and leaves the queue alone; what falls due falls at its deadline; and a command executed before
its deadline first brings elapsed time there. -/

section
namespace Sys2Proof.Machine

/-! ### Every command completes -/

theorem work_pending (c : Instr) (s : State) : (Instr.work c s).pending = s.pending := by
  cases c <;> dsimp only [Instr.work]
  case symbolKeyPress =>
    exact State.pressKey_keeps (P := fun t => t.pending = s.pending) (fun _ h => by simp [h]) (fun _ => by simp) rfl
  case followOnPress =>
    exact State.pressKey_keeps (P := fun t => t.pending = s.pending) (fun _ h => by simp [h]) (fun _ => by simp) rfl
  case clockSecond | unknownRequest => (repeat' split) <;> simp
  all_goals simp

theorem exec_pending {c : Instr} {s t : State} (h : exec c s = .next t) : t.pending = s.pending :=
  exec_keeps (P := fun u => u.pending = s.pending) (fun _ _ h => by simp [h]) (fun _ _ _ h => by simp [h])
    (fun c _ h => (work_pending c _).trans h) c s t rfl h

/-- Settles O3: each command has an arm that answers, and its frame leaves the queue alone. -/
theorem everyCommandCompletes : Obligations.EveryCommandCompletes := by
  intro c s
  obtain ⟨t, ht⟩ := exec_next c s
  exact ⟨t, ht, exec_pending ht⟩

/-! ### What is due is due at its deadline -/

/-- The command, where there is one, is not due before its deadline; DIALLING_END apart. -/
def State.Timely (s : State) (due : Option Instr) : Prop :=
  ∀ c, due = some c → ∀ t, c.deadline s = some t → c = .diallingEnd ∨ t ≤ s.now

section
variable {s : State}

theorem State.timely_none : s.Timely none := by
  rintro c ⟨⟩

theorem State.timely_or {a b : Option Instr} (ha : s.Timely a) (hb : s.Timely b) : s.Timely (a.or b) := by
  intro c h
  cases a with
  | none => exact hb c h
  | some x => exact ha c h

theorem State.timely_dueIf {c : Instr} {due : Bool} (h : c = .diallingEnd ∨ c.deadline s = none) :
    s.Timely (dueIf c due) := by
  intro x hx t ht
  cases due with
  | false => cases hx
  | true =>
    cases hx
    exact h.imp_right fun hnone => by rw [hnone] at ht; cases ht

theorem State.timely_dueAt {c : Instr} {at? : Option Nat} (h : c.deadline s = at?) : s.Timely (dueAt s.now c at?) := by
  intro x hx t ht
  cases at? with
  | none => cases hx
  | some n =>
    obtain ⟨hn, ⟨⟩⟩ := Option.ite_none_right_eq_some.1 hx
    rw [h] at ht
    cases ht
    exact .inr hn

theorem State.timely_findSome {α : Type} {f : α → Option Instr} {l : List α} (h : ∀ a, s.Timely (f a)) :
    s.Timely (l.findSome? f) := by
  intro c hc
  obtain ⟨a, -, ha⟩ := List.exists_of_findSome?_eq_some hc
  exact h a c ha

theorem State.timely_internalDue : s.Timely s.internalDue :=
  timely_or (timely_dueIf (.inr rfl)) <| timely_or (timely_dueIf (.inr rfl)) <| timely_or (timely_dueIf (.inr rfl)) <|
    timely_or (timely_dueIf (.inr rfl)) <| timely_or (timely_dueIf (.inr rfl)) <| timely_dueIf (.inl rfl)

theorem State.timely_clockDue : s.Timely s.clockDue := by
  unfold State.clockDue
  split
  · exact timely_dueAt rfl
  · exact timely_none

theorem State.timely_coinDue : s.Timely s.coinDue :=
  timely_or (timely_dueAt rfl) <| timely_or (timely_dueAt rfl) <| timely_or (timely_dueAt rfl) (timely_dueAt rfl)

theorem State.timely_ratingDue : s.Timely s.ratingDue := by
  unfold State.ratingDue
  split
  next call c hc =>
    have hboundary : Instr.stepBoundary.deadline s = some c.nextBoundary := by rw [Instr.deadline, hc]
    refine timely_or (timely_dueAt hboundary) (timely_dueAt ?_)
    cases hwarning : c.warning <;> simp [Instr.deadline, hc, hwarning]
  all_goals exact timely_none

theorem State.timely_lineDue : s.Timely s.lineDue := by
  unfold State.lineDue
  split
  case h_1 => exact timely_none
  case h_4 h =>
    by_cases hsent : s.line.phase = .sent
    · exact timely_dueAt (by simp [Instr.deadline, hsent])
    · exact timely_dueAt (by simp [Instr.deadline, h, hsent])
  case h_5 h => exact timely_or (timely_dueAt (by simp [Instr.deadline, h])) (timely_dueAt (by simp [Instr.deadline, h]))
  all_goals next h => exact timely_dueAt (by simp [Instr.deadline, h])

theorem State.timely_sessionDue : s.Timely s.sessionDue := by
  refine timely_or ?timer (timely_findSome fun key => ?key)
  case timer =>
    split
    next t ht => exact timely_dueAt (by cases hk : t.kind <;> simp [TimerKind.command, Instr.deadline, Session.timerOf, ht, hk])
    next => exact timely_none
  case key =>
    unfold State.keyDue
    split
    next since h => exact timely_dueAt (by simp [Instr.deadline, h])
    all_goals exact timely_none

theorem State.timely_inputDue (i : Fin 8) : s.Timely (s.inputDue i) :=
  timely_or (timely_dueAt rfl) <| timely_or (timely_dueAt rfl) (timely_dueAt rfl)

theorem State.timely_reportDue : s.Timely s.reportDue := by
  refine timely_or ?retry ?reply
  case retry =>
    split
    next t hstate htimer => exact timely_dueAt (by simp [Instr.deadline, hstate, htimer])
    next => exact timely_none
  case reply =>
    split
    next h => exact timely_dueAt (by simp [Instr.deadline, h])
    next => exact timely_none

theorem State.timely_due : s.Timely s.due := by
  unfold State.due
  split
  · exact timely_or timely_internalDue <| timely_or timely_clockDue <| timely_or timely_coinDue <|
      timely_or timely_ratingDue <| timely_or timely_lineDue <| timely_or timely_sessionDue <|
      timely_or (timely_findSome timely_inputDue) timely_reportDue
  · exact timely_clockDue

end

/-! ### A timed command executed early -/

/-- Elapsed time brought to an instant is there; it is not brought there twice. -/
@[simp] theorem State.reach_reach (s : State) (t : Nat) : (s.reach t).reach t = s.reach t := by
  simp [State.reach, State.setNow]

theorem State.available_reach (s : State) (t : Nat) : (s.reach t).available = s.available := rfl

/-- Log entry 3: the work of a command at its deadline, whether elapsed time was there already. -/
theorem work_reach {c : Instr} {s : State} {t : Nat} (hmain : s.supplies.main = true) (h : c.deadline s = some t) :
    Instr.work c (s.reach t) = Instr.work c s := by
  cases c <;> simp only [Instr.deadline, reduceCtorEq] at h <;> dsimp only [Instr.work]
  case transitWindowEnd =>
    obtain ⟨e, he, rfl⟩ := Option.map_eq_some_iff.1 h
    obtain ⟨rest, hrest⟩ := List.head?_eq_some_iff.1 he
    simp [State.expireTransit, hrest]
  case returnCupWatchEnd =>
    obtain ⟨w, hw, rfl⟩ := Option.map_eq_some_iff.1 h
    obtain ⟨rest, hrest⟩ := List.head?_eq_some_iff.1 hw
    simp [State.endWatch, hrest]
  case collectWindowTimeout | refundWindowTimeout =>
    split at h <;> cases h
    next hcycle => simp [State.timeOutCollect, State.timeOutRefund, hcycle]
  case clockSecond =>
    obtain rfl := Option.some.inj h
    have hadvance : (s.reach s.clock.nextSecond).advanceClock = s.advanceClock := by simp [State.advanceClock]
    simp only [State.reach_frame, hmain, if_true, State.clockTick, hadvance]
  case stepBoundary =>
    split at h <;> cases h
    next hcontext => simp [State.stepBoundary, hcontext]
  case warningToneStart =>
    (repeat' split at h) <;> cases h
    next hcontext _ _ hwarning _ => simp_all [State.startWarningTone]
  case seizureTimeout | dialToneTimeout =>
    obtain ⟨hstate, ⟨⟩⟩ := Option.ite_none_right_eq_some.1 h
    simp [State.endSeizure, State.endDialTone, State.failDialTone, hstate]
  case dialSymbolSent =>
    obtain ⟨hstate, ⟨⟩⟩ := Option.ite_none_right_eq_some.1 h
    simp [State.passDialPoint, hstate]
  case diallingEnd =>
    obtain ⟨hstate, ⟨⟩⟩ := Option.ite_none_right_eq_some.1 h
    simp [State.endDialling, hstate]
  case presumedDelayEnd =>
    obtain ⟨hstate, hends⟩ := Option.ite_none_right_eq_some.1 h
    simp [State.endPresumedDelay, hstate, hends]
  case answerWaitEnd =>
    obtain ⟨hstate, hends⟩ := Option.ite_none_right_eq_some.1 h
    simp [State.endAnswerWait, hstate, hends]
  case toneStringSent =>
    obtain ⟨hstate, hends⟩ := Option.ite_none_right_eq_some.1 h
    obtain ⟨tones, hsending, rfl⟩ := Option.map_eq_some_iff.1 hends
    simp [State.endToneString, State.lineOwner, hstate, hsending]
  case releaseGuardEnd =>
    obtain ⟨hstate, ⟨⟩⟩ := Option.ite_none_right_eq_some.1 h
    simp [State.endGuard, hstate]
  case keyStuck key =>
    split at h <;> cases h
    next hkey => simp [State.stickKey, hkey]
  case firstSymbolTimeout => simp [State.expireFirstSymbol, h]
  case interSymbolTimeout => simp [State.expireInterSymbol, h]
  case creditWaitTimeout => simp [State.expireCreditWait, h]
  case countWindowEnd i => simp [State.endWindow, h, -Fin.getElem_fin]
  case holdOffEnd i => simp [State.endHoldOff, h, -Fin.getElem_fin]
  case clearDelayEnd i =>
    obtain ⟨since, hfrom, rfl⟩ := Option.map_eq_some_iff.1 h
    simp [State.endClearDelay, hfrom, -Fin.getElem_fin]
  case retryTimerExpiry =>
    split at h <;> cases h
    next hstate htimer => simp [State.expireRetry, hstate, htimer]
  case replyWaitEnd =>
    obtain ⟨hstate, hends⟩ := Option.ite_none_right_eq_some.1 h
    simp [State.endReplyWait, hstate, hends]

/-- Log entry 3: the frame around the work of a command that has a deadline does not read elapsed time. -/
theorem exec_reach {c : Instr} {s : State} {t : Nat} (hmain : s.supplies.main = true) (h : c.deadline s = some t) :
    exec c (s.reach t) = exec c s := by
  have hwork := work_reach hmain h
  have hpowered (work : State → State) (hw : work (s.reach t) = work s) :
      (s.reach t).whilePowered work = s.whilePowered work := by
    rw [State.whilePowered_of_main hmain, State.whilePowered_of_main (by simpa using hmain), hw]
  have hcredit (work : State → State) (hw : work (s.reach t) = work s) :
      (s.reach t).whilePowered (State.creditStep work) = s.whilePowered (State.creditStep work) :=
    hpowered _ (by rw [State.creditStep, State.creditStep, hw, State.available_reach])
  cases c <;> simp only [Instr.deadline, reduceCtorEq] at h
  case clockSecond => exact congrArg Host.Outcome.next hwork
  case collectWindowTimeout | refundWindowTimeout => exact congrArg Host.Outcome.next (hcredit _ hwork)
  all_goals exact congrArg Host.Outcome.next (hpowered _ hwork)

theorem step_of_empty {s : State} (h : s.pending = []) : step s = s.idle := by
  rw [step, h]

/-- Settles O2: the idle step by what is due, the deadlines block by block, and the early command by its own work. -/
theorem idleStepsAndDeadlines : Obligations.IdleStepsAndDeadlines := by
  refine ⟨⟨fun s hempty => ⟨fun c hdue => ?due, fun hnone => ?tick⟩, fun s c t hdue ht => ?deadline⟩,
    fun c s t hmain ht => ?early⟩
  case due => rw [step_of_empty hempty, State.idle, hdue]
  case tick =>
    rw [step_of_empty hempty, State.idle, hnone]
    rfl
  case deadline => exact State.timely_due c hdue t ht
  case early => exact (exec_reach hmain ht).symm

end Sys2Proof.Machine
end

/-! ## The state after reset -/

section
namespace Sys2Proof.Machine

/-- After reset two sources have a record: RETENTION and CLOCK. -/
theorem State.reset_record (src : Source) : State.reset.record src =
    match src with
    | .retention => some resetRetentionRecord
    | .clock => some resetClockRecord
    | _ => none := by
  cases src with
  | input i => revert i; decide
  | _ => rfl

theorem State.reset_recordsLawful : State.reset.RecordsLawful := by
  intro src r h
  rw [State.reset_record] at h
  split at h <;> cases h
  · exact ⟨by decide, by decide, by decide, by decide, by decide, by decide⟩
  · exact ⟨by decide, by decide, by decide, by decide, by decide, by decide⟩

theorem State.reset_collectionLaw : State.reset.CollectionLaw := by
  refine ⟨rfl, rfl, fun r h => ?_⟩
  rw [State.reset_record] at h
  cases h

theorem State.reset_figures : State.reset.FiguresInRange :=
  ⟨Tally.zero_inRange, nofun, by decide⟩

/-- Settles O12. -/
theorem resetMeetsEveryLaw : Obligations.ResetMeetsEveryLaw := by
  refine ⟨?first, ?collect, ?owed, ?level, State.reset_recordsLawful, State.reset_collectionLaw, State.reset_figures, ?table,
    ?call, ?pin, ?report, ?clock⟩
  case first => exact ⟨by decide, by decide, by decide⟩
  case collect => exact fun h => absurd h (by decide)
  case owed => exact ⟨by decide, by decide, by decide, fun h => absurd rfl h⟩
  case level => unfold State.LevelHeld; decide
  case table => exact ⟨.nil, by decide, .nil⟩
  case call => exact ⟨rfl, rfl, rfl, rfl, nofun, nofun, nofun⟩
  case pin => exact ⟨nofun, by decide, nofun, nofun⟩
  case report => exact ⟨by decide, rfl, rfl, rfl, rfl⟩
  case clock => exact ⟨by decide, by decide⟩

end Sys2Proof.Machine
end

/-! ## Coins that enter the column (section 1.3) -/

section
namespace Sys2Proof.Machine

/-! ### Available credit and the frame around a command -/

/-- R24: available credit follows escrow credit, the credit unit, the compartment and the condition table. -/
theorem State.available_of_escrow {s t : State} (hescrow : t.escrow = s.escrow) (hcredit : t.credit = s.credit)
    (hcomp : t.comp = s.comp) (hsup : t.sup = s.sup) : t.available = s.available := by
  have hactive : t.recordActive .collectGate = s.recordActive .collectGate := by
    rw [State.recordActive, State.recordActive, State.record, State.record, hsup]
  have hcollectable : t.collectable = s.collectable := by
    simp only [State.collectable, State.gateInhibited, hactive, hcomp]
  simp only [State.available, State.collectableEscrow, hcollectable, hescrow, hcredit]

theorem escrowOf_append (a b : List HeldCoin) : escrowOf (a ++ b) = escrowOf a + escrowOf b := by
  simp [escrowOf]

/-! ### A refund request (R10) -/

theorem State.requestRefund_of_none {s : State} (h : s.coin.waiting = none) (startUp ofSession : Bool) :
    s.requestRefund startUp ofSession = { s with coin := { s.coin with
      waiting := some ⟨startUp, ofSession⟩, sessionRefunded := s.coin.sessionRefunded && !ofSession
      transit := s.coin.transit.map (fun e => { e with noted := true }) } } := by
  rw [State.requestRefund, h]
  rfl

theorem State.requestRefund_of_some {s : State} {w : WaitingRefund} (h : s.coin.waiting = some w) (startUp ofSession : Bool) :
    s.requestRefund startUp ofSession = { s with coin := { s.coin with
      waiting := some ⟨w.startUp || startUp, w.ofSession || ofSession⟩
      sessionRefunded := s.coin.sessionRefunded && !ofSession } } := by
  rw [State.requestRefund, h]
  rfl

theorem State.refundBetweenSessions_eq {s : State} (h : s.coin.refundInFlight = false) :
    s.refundBetweenSessions =
      if (s.session.state = .idle ∨ s.session.state = .clearing ∧ s.coin.sessionRefunded = true) ∧ s.coin.waiting = none then
        { s with coin := { s.coin with
          waiting := some ⟨false, false⟩, transit := s.coin.transit.map (fun e => { e with noted := true }) } }
      else s := by
  unfold State.refundBetweenSessions
  by_cases hbetween : s.session.state = .idle ∨ s.session.state = .clearing ∧ s.coin.sessionRefunded = true
  case neg => rw [if_neg hbetween, if_neg fun hc => hbetween hc.1]
  case pos =>
    rw [if_pos hbetween]
    by_cases hwaiting : s.coin.waiting = none
    case pos => rw [if_pos ⟨hwaiting, h⟩, if_pos ⟨hbetween, hwaiting⟩, requestRefund_of_none hwaiting, Bool.not_false, Bool.and_true]
    case neg => rw [if_neg fun hc => hwaiting hc.1, if_neg fun hc => hwaiting hc.2]

theorem State.available_refundBetweenSessions (s : State) : s.refundBetweenSessions.available = s.available := by
  refine available_of_escrow (congrArg escrowOf ?column) (by simp) (by simp) (by simp)
  case column =>
    unfold State.refundBetweenSessions State.requestRefund
    (repeat' split) <;> rfl

/-! ### A column entry pulse while no refund is in flight (R5) -/

theorem exec_columnEntryPulse {s : State} (hmain : s.supplies.main = true) (hfree : s.coin.refundInFlight = false) :
    exec .columnEntryPulse s = .next (s.enterColumn.handCredit s.available) := by
  have hpulse : s.columnPulse = s.enterColumn := if_neg (by simp [hfree])
  rw [← hpulse]
  exact congrArg _ (State.whilePowered_of_main hmain)

theorem State.enterColumn_of_some {e : TransitEntry} {rest : List TransitEntry} {s : State}
    (h : takeOldest .column s.coin.transit = some (e, rest)) :
    s.enterColumn = (s.setCoin { s.coin with
      transit := rest
      column := s.coin.column ++ [{ cls := some e.cls, value := e.value, tag := .credited }]
      streak := 0 }).refundBetweenSessions := by
  rw [State.enterColumn, h]

/-- R5: the coin that a column with room holds where no transit entry announced it. -/
def HeldCoin.unannounced : HeldCoin := { cls := none, value := 0, tag := .unvalued }

theorem State.enterColumn_of_room {s : State} (h : takeOldest .column s.coin.transit = none)
    (room : s.coin.column.length < 12) :
    s.enterColumn = (s.setCoin { s.coin with column := s.coin.column ++ [HeldCoin.unannounced] }).refundBetweenSessions := by
  rw [State.enterColumn, h]
  exact if_pos room

theorem State.enterColumn_of_full {s : State} (h : takeOldest .column s.coin.transit = none)
    (full : 12 ≤ s.coin.column.length) : s.enterColumn = s.countUnconfirmed := by
  rw [State.enterColumn, h]
  exact if_neg (Nat.not_lt.2 full)

/-- R9: an UNVALUED coin is no escrow credit. -/
theorem State.available_enterColumn_of_room {s : State} (h : takeOldest .column s.coin.transit = none)
    (room : s.coin.column.length < 12) : s.enterColumn.available = s.available := by
  rw [State.enterColumn_of_room h room, State.available_refundBetweenSessions]
  refine State.available_of_escrow ?_ rfl rfl rfl
  exact escrowOf_append _ _

/-- Settles O17, by whether the transit list holds an entry for the column, and then by the column's room. -/
theorem columnPulseHoldsTheCoin : Obligations.ColumnPulseHoldsTheCoin := by
  intro s hmain hfree back
  have hback (c : CoinPath) (hc : c.cycle = s.coin.cycle) : (s.setCoin c).refundBetweenSessions = back (s.setCoin c) :=
    State.refundBetweenSessions_eq (by rw [← hfree, CoinPath.refundInFlight, CoinPath.refundInFlight, State.setCoin_coin, hc])
  rw [exec_columnEntryPulse hmain hfree]
  refine ⟨fun older e newer htransit hbefore he => ?announced, fun hnone => ⟨fun hroom => ?unannounced, fun hfull => ?full⟩⟩
  case announced =>
    have hfound := takeOldest_append (newer := newer) hbefore he
    rw [← htransit] at hfound
    rw [State.enterColumn_of_some hfound]
    exact congrArg Host.Outcome.next (congrArg (State.handCredit s.available) (hback _ (by rfl)))
  case unannounced =>
    have hfound := takeOldest_of_forall_ne hnone
    rw [State.handCredit_of_available_eq (State.available_enterColumn_of_room hfound hroom),
      State.enterColumn_of_room hfound hroom]
    exact congrArg Host.Outcome.next (hback _ (by rfl))
  case full =>
    rw [State.enterColumn_of_full (takeOldest_of_forall_ne hnone) hfull]
    refine ⟨fun hstreak => ?counted, fun hstreak => ?jam⟩
    case counted =>
      rw [State.countUnconfirmed_of_lt hstreak]
      exact congrArg _ (State.handCredit_of_available_eq rfl)
    case jam => rw [State.countUnconfirmed_of_le hstreak]; rfl

end Sys2Proof.Machine
end

/-! ## The credit unit (chapter 2)

Settlement and charges through what `payOwed`, `joinOwed` and a write-off do to the owed list; then the close of a session's
account, and the handing on of credit. -/

section
namespace Sys2Proof.Machine

/-! ### Paying the owed list (R26) -/

@[simp] theorem owedTotal_nil : owedTotal [] = 0 := rfl

@[simp] theorem owedTotal_cons (e : OwedEntry) (l : List OwedEntry) : owedTotal (e :: l) = e.amount + owedTotal l := by
  simp [owedTotal]

/-- R26: the oldest entries that B can pay are paid in full. -/
theorem payOwed_append {b : Nat} {paid rest : List OwedEntry} (h : owedTotal paid ≤ b) :
    payOwed b (paid ++ rest) = payOwed (b - owedTotal paid) rest := by
  induction paid generalizing b with
  | nil => rfl
  | cons e later ih =>
    rw [owedTotal_cons] at h ⊢
    rw [List.cons_append, payOwed, if_pos (by omega), ih (by omega), Nat.sub_sub]

theorem payOwed_of_le {b : Nat} {owed : List OwedEntry} (h : owedTotal owed ≤ b) :
    payOwed b owed = (b - owedTotal owed, []) := by
  simpa [payOwed] using payOwed_append (rest := []) h

theorem payOwed_of_short {b : Nat} {paid later : List OwedEntry} {e : OwedEntry} (hpaid : owedTotal paid ≤ b)
    (hshort : b < owedTotal paid + e.amount) :
    payOwed b (paid ++ e :: later) = (0, { e with amount := owedTotal paid + e.amount - b } :: later) := by
  have hrest : e.amount - (b - owedTotal paid) = owedTotal paid + e.amount - b := by omega
  rw [payOwed_append hpaid, payOwed, if_neg (by omega), hrest]

/-! ### Settlement (R26, R27) -/

theorem State.settle_of_le {s : State} (h : owedTotal s.credit.owed ≤ s.credit.banked) :
    s.settle = { s with credit := { s.credit with
      banked := s.credit.banked - owedTotal s.credit.owed, owed := [] } } := by
  rw [State.settle, payOwed_of_le h]
  rfl

/-- R26: what settlement does with what B leaves owed. -/
theorem State.settle_of_left {s : State} {left : List OwedEntry} (h : (payOwed s.credit.banked s.credit.owed).2 = left)
    (hleft : left ≠ []) :
    let t : State := s.setCredit { s.credit with banked := (payOwed s.credit.banked s.credit.owed).1, owed := left }
    (s.coin.collectInFlight = true → s.settle = t) ∧
    (s.coin.collectInFlight = false → s.collectable = false ∨ s.coin.column = [] → s.settle = t.writeOff) ∧
    (s.coin.collectInFlight = false → s.collectable = true → s.coin.column ≠ [] → s.settle = t.requestCollect) := by
  intro t
  have hsettle : s.settle = if s.coin.collectInFlight then t
      else if s.collectable = false ∨ s.coin.column = [] then t.writeOff else t.requestCollect := by
    subst h
    exact if_neg hleft
  rw [hsettle]
  refine ⟨fun hflight => if_pos hflight, fun hfree hnone => ?_, fun hfree hcollectable hcolumn => ?_⟩
  · rw [hfree, if_neg Bool.false_ne_true, if_pos hnone]
  · rw [hfree, if_neg Bool.false_ne_true, if_neg (by simp [hcollectable, hcolumn])]

/-- R11: a collect request with no collect cycle in flight. -/
theorem State.requestCollect_of_free {s : State} (hfree : s.coin.collectInFlight = false) (hcollectable : s.collectable = true)
    (hcolumn : s.coin.column ≠ []) :
    s.requestCollect =
      if s.coin.refundInFlight then s.writeOff else s.setCoin { s.coin with cycle := .collectHeld } := by
  have hstart : s.collectCanStart = !s.coin.refundInFlight := by
    simp only [State.collectable, Bool.and_eq_true, decide_eq_true_eq] at hcollectable
    simp [State.collectCanStart, hcollectable, hcolumn]
  rw [State.requestCollect, hfree, if_neg Bool.false_ne_true, hstart]
  cases s.coin.refundInFlight <;> rfl

/-! ### A write-off (R32) -/

theorem State.foldl_writeOffEntry {l : List OwedEntry} {s : State} (h : s.comp.current.unrecovered ≤ 4294967295) :
    l.foldl (fun s e => s.writeOffEntry e) s = { s with
      comp := { s.comp with current := { s.comp.current with
        unrecovered := min 4294967295 (s.comp.current.unrecovered + owedTotal l) } }
      rating := l.foldl (fun r e => r.placeUnrecovered e.call) s.rating } := by
  induction l generalizing s with
  | nil =>
    have hnothing : min 4294967295 (s.comp.current.unrecovered + owedTotal []) = s.comp.current.unrecovered :=
      Nat.min_eq_right h
    rw [hnothing]
    rfl
  | cons e later ih =>
    have hsum : min 4294967295 (min 4294967295 (s.comp.current.unrecovered + e.amount) + owedTotal later) =
        min 4294967295 (s.comp.current.unrecovered + owedTotal (e :: later)) := by
      rw [owedTotal_cons]
      omega
    rw [List.foldl_cons, ih (s := s.writeOffEntry e) (Nat.min_le_left _ _), ← hsum]
    rfl

theorem State.writeOff_eq {s : State} (h : s.comp.current.unrecovered ≤ 4294967295) :
    s.writeOff = { s with
      credit := { s.credit with owed := [] }
      comp := { s.comp with current := { s.comp.current with
        unrecovered := min 4294967295 (s.comp.current.unrecovered + owedTotal s.credit.owed) } }
      rating := s.credit.owed.foldl (fun r e => r.placeUnrecovered e.call) s.rating } := by
  rw [State.writeOff, State.foldl_writeOffEntry h]
  rfl

theorem State.FiguresInRange.unrecovered_le {s : State} (h : s.FiguresInRange) : s.comp.current.unrecovered ≤ 4294967295 := by
  obtain ⟨⟨-, -, -, -, -, hunrecovered, -⟩, -, -⟩ := h
  exact hunrecovered

/-- Settles O24: settlement by what B leaves owed, and the write-off by its sums. -/
theorem settlementAndWriteOff : Obligations.SettlementAndWriteOff := by
  refine ⟨fun s => ⟨State.settle_of_le, ?short⟩, fun s h => State.writeOff_eq h.unrecovered_le⟩
  case short =>
    intro paid e later howed hpaid hshort left
    have hpay := payOwed_of_short (later := later) hpaid hshort
    rw [← howed] at hpay
    obtain ⟨hflight, hnone, hstart⟩ := State.settle_of_left (congrArg Prod.snd hpay) (List.cons_ne_nil _ _)
    rw [hpay] at hflight hnone hstart
    refine ⟨hflight, fun hfree => ⟨fun hcannot => ?cannot, fun hcollectable hcolumn hrefund => ?starts⟩⟩
    case cannot =>
      by_cases hc : s.collectable = false ∨ s.coin.column = []
      case pos => exact hnone hfree hc
      case neg =>
        obtain ⟨hcollectable, hcolumn⟩ := not_or.1 hc
        have hrefund : s.coin.refundInFlight = true := by simpa [hcollectable, hcolumn] using hcannot
        have hcollectable : s.collectable = true := by simpa using hcollectable
        rw [hstart hfree hcollectable hcolumn, State.requestCollect_of_free (by exact hfree) (by exact hcollectable) (by exact hcolumn)]
        exact if_pos hrefund
    case starts =>
      rw [hstart hfree hcollectable hcolumn, State.requestCollect_of_free (by exact hfree) (by exact hcollectable) (by exact hcolumn)]
      exact if_neg (by simp [hrefund])

/-! ### A charge (R25) -/

theorem joinOwed_of_newest {call charge : Nat} {older : List OwedEntry} {e : OwedEntry} (h : e.call = call) :
    joinOwed call charge (older ++ [e]) = older ++ [{ e with amount := e.amount + charge }] := by
  induction older with
  | nil => exact if_pos h
  | cons x rest ih =>
    cases rest with
    | nil => simpa [joinOwed] using ih
    | cons y more => simpa [joinOwed] using ih

theorem joinOwed_of_other {call charge : Nat} {owed : List OwedEntry} (h : ∀ e, owed.getLast? = some e → e.call ≠ call) :
    joinOwed call charge owed = owed ++ [⟨call, charge⟩] := by
  induction owed with
  | nil => rfl
  | cons x rest ih =>
    cases rest with
    | nil => exact if_neg (h x rfl)
    | cons y more => simpa [joinOwed] using ih (by simpa using h)

theorem newestIsOf_eq_false {call : Nat} {owed : List OwedEntry} (h : ∀ e, owed.getLast? = some e → e.call ≠ call) :
    newestIsOf call owed = false := by
  unfold newestIsOf
  split
  next e he => simpa using h e he
  next => rfl

theorem newestIsOf_of_newest {call : Nat} {older : List OwedEntry} {e : OwedEntry} (h : e.call = call) :
    newestIsOf call (older ++ [e]) = true := by
  simp [newestIsOf, h]

/-- R25: a charge of at least 1 MU, by what making room leaves. -/
theorem State.takeCharge_of_makeRoom {call charge : Nat} {s t : State} (hcharge : 1 ≤ charge) (h : s.makeRoom call = t) :
    s.takeCharge call charge = (t.setCredit { t.credit with owed := joinOwed call charge t.credit.owed }).settle := by
  rw [State.takeCharge, if_neg (by omega), h]

/-- Settles O26, by what the owed list has room for. -/
theorem chargeJoinsTheOwedList : Obligations.ChargeJoinsTheOwedList := by
  intro call charge s
  refine ⟨if_pos rfl, fun hcharge => ⟨fun older e howed he => ?joins, fun hroom hother => ?room,
    fun oldest later howed hfull hother => ?full⟩⟩
  case joins =>
    have hmake : s.makeRoom call = s := if_neg (by simp [howed, newestIsOf_of_newest he])
    rw [State.takeCharge_of_makeRoom hcharge hmake, howed, joinOwed_of_newest he]
    rfl
  case room =>
    have hmake : s.makeRoom call = s := if_neg fun hc => absurd hc.1 (Nat.not_le.2 hroom)
    rw [State.takeCharge_of_makeRoom hcharge hmake, joinOwed_of_other hother]
    rfl
  case full =>
    have hlast : (oldest :: later).getLast? = later.getLast? := by
      cases later with
      | nil => simp at hfull
      | cons x more => simp
    have hmake : s.makeRoom call = (s.writeOffEntry oldest).setCredit { s.credit with owed := later } := by
      unfold State.makeRoom
      rw [howed, if_pos ⟨Nat.succ_le_succ hfull, newestIsOf_eq_false (hlast ▸ hother)⟩]
    rw [State.takeCharge_of_makeRoom hcharge hmake, State.setCredit_credit, joinOwed_of_other hother]
    rfl

/-! ### The close of a session end (R36) -/

theorem exec_sessionEndClose {s : State} (h : s.supplies.main = true) :
    exec .sessionEndClose s = .next s.closeSessionAccount := congrArg _ (State.whilePowered_of_main h)

theorem State.closeStands_iff {s : State} : s.closeStands = true ↔
    s.credit.account = .closing ∧ s.credit.owed = [] ∧ s.coin.collectInFlight = false := by
  simp [State.closeStands, and_assoc]

/-- Settles O27. -/
theorem sessionCloseForfeitsBanked : Obligations.SessionCloseForfeitsBanked := by
  intro s hmain
  rw [exec_sessionEndClose hmain]
  refine ⟨fun hclosing howed hflight => ?closes, fun hlasts => ?lasts⟩
  case closes => exact congrArg _ (if_pos (State.closeStands_iff.2 ⟨hclosing, howed, hflight⟩))
  case lasts =>
    refine congrArg _ (if_neg fun hc => ?_)
    obtain ⟨hclosing, howed, hflight⟩ := State.closeStands_iff.1 hc
    simp [hclosing, howed, hflight] at hlasts

/-! ### New available credit (R24, R138) -/

theorem State.handCredit_of_available_ne {a : Nat} {s : State} (h : s.available ≠ a) :
    s.handCredit a = s.lookAhead.recheck := if_neg h

theorem State.lookAhead_of_not_rated {s : State} (h : ∀ call c, s.rating.context ≠ .rated call c) : s.lookAhead = s := by
  unfold State.lookAhead
  split
  next call c hc => exact absurd hc (h call c)
  next => rfl

theorem State.recheck_of_ne {s : State} (h : s.session.state ≠ .awaitCredit) : s.recheck = s := by
  unfold State.recheck
  split
  next hstate _ => exact absurd hstate h
  next => rfl

theorem State.recheck_of_awaitCredit {s : State} {d : Decision} (hstate : s.session.state = .awaitCredit)
    (hd : s.session.decision = some d) :
    s.recheck = if s.thresholdOf d.slot ≤ s.available then
        (s.setSession { s.session with threshold := some (s.thresholdOf d.slot) }).place d
      else s.setSession { s.session with threshold := some (s.thresholdOf d.slot) } := by
  rw [State.recheck, hstate, hd]
  rfl

/-- Settles O28: the rating unit's part stands only in a RATED context, the session's only in AWAIT_CREDIT. -/
theorem newCreditIsHandedOn : Obligations.NewCreditIsHandedOn := by
  intro before s
  refine ⟨State.handCredit_of_available_eq, fun hnew => ?_⟩
  rw [State.handCredit_of_available_ne hnew]
  refine ⟨fun hcontext hstate => ?nothing, fun d hcontext hstate hd => ?waiting, fun call c hcontext hstate => ?rated⟩
  case nothing => rw [State.lookAhead_of_not_rated hcontext, State.recheck_of_ne hstate]
  case waiting =>
    rw [State.lookAhead_of_not_rated hcontext, State.recheck_of_awaitCredit hstate hd]
    exact ⟨fun hshort => if_neg (Nat.not_le.2 hshort), fun hreached => if_pos hreached⟩
  case rated => exact State.recheck_of_ne (by simpa using hstate)

end Sys2Proof.Machine
end

/-! ## The condition table (sections 9.5 to 9.8)

What an occurrence, a change of normality and a clearing leave of their own source's record; the thresholds and the service
level through them. -/

section
namespace Sys2Proof.Machine

/-! ### Normality -/

theorem State.normal_recount (src x : Source) (s : State) : (s.recount src).normal x = s.normal x := by
  unfold State.recount
  split <;> rfl

theorem State.normal_retireIfDue (src x : Source) (s : State) : (s.retireIfDue src).normal x = s.normal x := by
  unfold State.retireIfDue
  (repeat' split)
  · rfl
  · exact same_deriveLevel.2
  · rfl

theorem State.normal_clearRecord (src x : Source) (s : State) : (s.clearRecord src).normal x = s.normal x := by
  unfold State.clearRecord
  split
  · rfl
  · exact (State.normal_retireIfDue ..).trans same_deriveLevel.2

theorem State.normal_clearIfNormal (src x : Source) (s : State) : (s.clearIfNormal src).normal x = s.normal x := by
  unfold State.clearIfNormal
  (repeat' split)
  · rfl
  · exact State.normal_clearRecord ..
  · rfl

theorem State.normal_recordOccurrence (src : Source) (type : ConditionType) (severity : Severity) (x : Source) (s : State) :
    (s.recordOccurrence src type severity).normal x = s.normal x := State.normal_recount ..

theorem same_reportTrigger {x : Source} {severity : Severity} {s : State} : Same x s (s.reportTrigger severity) :=
  same_sup (by simp)

/-- R162: no occurrence changes a normality. -/
theorem State.normal_occurrence (src : Source) (type : ConditionType) (severity : Severity) (x : Source) (s : State) :
    (s.occurrence src type severity).normal x = s.normal x := by
  calc (s.occurrence src type severity).normal x
      = ((s.recordOccurrence src type severity).reportTrigger severity).deriveLevel.normal x :=
        State.normal_clearIfNormal ..
    _ = (s.recordOccurrence src type severity).normal x := same_deriveLevel.2.trans same_reportTrigger.2
    _ = s.normal x := State.normal_recordOccurrence ..

theorem State.normal_becomeAbnormal (src : Source) (type : ConditionType) (severity : Severity) (s : State) :
    (s.becomeAbnormal src type severity).normal src = false :=
  (State.normal_occurrence ..).trans (State.normal_setNormality ..)

theorem State.normal_makeNormal (src : Source) (s : State) : (s.makeNormal src).normal src = true :=
  (State.normal_clearIfNormal ..).trans (State.normal_setNormality ..)

/-! ### A source's own record -/

theorem ConditionRecord.recount_severity (now : Nat) (counting : Bool) (r : ConditionRecord) :
    (r.recount now counting).severity = r.severity := by
  unfold ConditionRecord.recount
  (repeat' split) <;> rfl

theorem ConditionRecord.recount_state (now : Nat) (counting : Bool) (r : ConditionRecord) :
    (r.recount now counting).state = r.state := by
  unfold ConditionRecord.recount
  (repeat' split) <;> rfl

theorem ConditionRecord.recount_count (now : Nat) (counting : Bool) (r : ConditionRecord) :
    (r.recount now counting).count = r.count := by
  unfold ConditionRecord.recount
  (repeat' split) <;> rfl

theorem ConditionRecord.recount_lastChange (now : Nat) (counting : Bool) (r : ConditionRecord) :
    (r.recount now counting).lastChange = r.lastChange := by
  unfold ConditionRecord.recount
  (repeat' split) <;> rfl

/-- R159: latching follows the severity and the source. -/
theorem latched_congr {src : Source} {r r' : ConditionRecord} (h : r'.severity = r.severity) : latched src r' = latched src r := by
  rw [latched, latched, h]

theorem latched_recount (src : Source) (now : Nat) (counting : Bool) (r : ConditionRecord) :
    latched src (r.recount now counting) = latched src r := latched_congr (ConditionRecord.recount_severity ..)

theorem State.record_recount (src : Source) (s : State) :
    (s.recount src).record src = (s.record src).map (ConditionRecord.recount s.now (s.counting src)) := by
  unfold State.recount
  split
  next h => rw [h]; rfl
  next r h => rw [State.record_putRecord, if_pos rfl, h]; rfl

/-- R166: a change of normality recounts its source's record. -/
theorem State.record_setNormality_of_some {src : Source} {b : Bool} {s : State} {r : ConditionRecord}
    (h : (s.setNormality src b).record src = some r) : ∃ old counting, s.record src = some old ∧ r = old.recount s.now counting := by
  rw [State.setNormality, State.record_recount] at h
  obtain ⟨old, hold, heq⟩ := Option.map_eq_some_iff.1 h
  exact ⟨old, _, hold, heq.symm⟩

theorem State.clearIfNormal_of_latched {src : Source} {s : State} (h : ∀ r, s.record src = some r → latched src r = true) :
    s.clearIfNormal src = s := by
  unfold State.clearIfNormal
  split
  next => rfl
  next r hr => exact if_neg (by simp [h r hr])

theorem State.clearIfNormal_of_abnormal {src : Source} {s : State} (h : s.normal src = false) : s.clearIfNormal src = s := by
  unfold State.clearIfNormal
  split
  next => rfl
  next r hr => exact if_neg (by simp [h])

/-- R162: a source reported normal clears no latched record. -/
theorem State.makeNormal_of_latched {src : Source} {s : State} (h : ∀ r, s.record src = some r → latched src r = true) :
    s.makeNormal src = s.setNormality src false := by
  refine State.clearIfNormal_of_latched fun r hr => ?_
  obtain ⟨old, counting, hold, rfl⟩ := State.record_setNormality_of_some hr
  rw [latched_recount]
  exact h old hold

/-! ### An occurrence's record (R160, R161) -/

/-- R160, R161: the record that an occurrence leaves on its source. -/
def State.occurred (src : Source) (type : ConditionType) (severity : Severity) (s : State) : ConditionRecord :=
  match s.record src with
  | none => (ConditionRecord.create type severity s.clock.time).recount s.now (s.counting src)
  | some r => (r.occur type severity s.clock.time).recount s.now (s.counting src)

theorem State.record_recordOccurrence (src : Source) (type : ConditionType) (severity : Severity) (s : State) :
    (s.recordOccurrence src type severity).record src = some (s.occurred src type severity) := by
  have hcounting (r : Option ConditionRecord) : (s.putRecord src r).counting src = s.counting src := rfl
  unfold State.recordOccurrence State.occurred
  calc _ = ((s.putRecord src _).recount src).record src := rfl
    _ = _ := State.record_recount ..
    _ = _ := by
      rw [State.record_putRecord, if_pos rfl, hcounting]
      cases s.record src <;> rfl

theorem State.occurred_severity (src : Source) (type : ConditionType) (severity : Severity) (s : State) :
    (s.occurred src type severity).severity = severity := by
  unfold State.occurred
  split <;> rw [ConditionRecord.recount_severity] <;> rfl

theorem State.occurred_type (src : Source) (type : ConditionType) (severity : Severity) (s : State) :
    (s.occurred src type severity).type = type := by
  unfold State.occurred
  split <;> rw [(ConditionRecord.recount_same ..).2] <;> rfl

theorem State.occurred_state (src : Source) (type : ConditionType) (severity : Severity) (s : State) :
    (s.occurred src type severity).state = .raised := by
  unfold State.occurred
  split <;> rw [ConditionRecord.recount_state] <;> rfl

theorem State.occurred_lastChange (src : Source) (type : ConditionType) (severity : Severity) (s : State) :
    (s.occurred src type severity).lastChange = s.clock.time := by
  unfold State.occurred
  split <;> rw [ConditionRecord.recount_lastChange] <;> rfl

/-- R161: the count is held at 255. -/
theorem State.occurred_count (src : Source) (type : ConditionType) (severity : Severity) (s : State) :
    (s.occurred src type severity).count = match s.record src with
      | none => 1
      | some old => if old.count < 255 then old.count + 1 else 255 := by
  unfold State.occurred
  split <;> rw [ConditionRecord.recount_count] <;> rfl

/-- R161: an occurrence whose record latches, or whose source is abnormal, leaves the record it makes. -/
theorem State.occurrence_of_kept {src : Source} {type : ConditionType} {severity : Severity} {s : State}
    (h : latched src (s.occurred src type severity) = true ∨ s.normal src = false) :
    s.occurrence src type severity = ((s.recordOccurrence src type severity).reportTrigger severity).deriveLevel := by
  obtain hlatched | habnormal := h
  · refine State.clearIfNormal_of_latched fun r hr => ?_
    rw [same_deriveLevel.1, same_reportTrigger.1, State.record_recordOccurrence] at hr
    rwa [← Option.some.inj hr]
  · refine State.clearIfNormal_of_abnormal ?_
    rw [same_deriveLevel.2, same_reportTrigger.2, State.normal_recordOccurrence]
    exact habnormal

theorem State.record_occurrence_of_kept {src : Source} {type : ConditionType} {severity : Severity} {s : State}
    (h : latched src (s.occurred src type severity) = true ∨ s.normal src = false) :
    (s.occurrence src type severity).record src = some (s.occurred src type severity) := by
  rw [State.occurrence_of_kept h, same_deriveLevel.1, same_reportTrigger.1, State.record_recordOccurrence]

/-- R117, R46: the occurrence at the instant a source becomes abnormal. -/
theorem State.record_becomeAbnormal (src : Source) (type : ConditionType) (severity : Severity) (s : State) :
    (s.becomeAbnormal src type severity).record src = some ((s.makeAbnormal src).occurred src type severity) :=
  State.record_occurrence_of_kept (.inr (State.normal_setNormality ..))

end Sys2Proof.Machine
end

/-! ## Occurrences, clearings and CONDITION_CLEAR; the thresholds; the service level -/

section
namespace Sys2Proof.Machine

/-! ### Whether a record's active time is counted (R166) -/

/-- R166: whether a source's record counts active time, given the normality its owner reports. -/
def State.countsAt (src : Source) (abnormal : Bool) (s : State) : Bool :=
  match src with
  | .input i => s.sup.inputs[i].active
  | _ => abnormal

theorem State.counting_eq (src : Source) (s : State) : s.counting src = s.countsAt src (!s.normal src) := by
  cases src <;> rfl

theorem State.record_setNormality_eq (src : Source) (abnormal : Bool) (s : State) :
    (s.setNormality src abnormal).record src = (s.record src).map (ConditionRecord.recount s.now (s.countsAt src abnormal)) := by
  have hcounts : (s.setSup { s.sup with abnormal := s.sup.abnormal.set src.idx abnormal }).counting src =
      s.countsAt src abnormal := by
    cases src <;> simp [State.counting, State.countsAt, State.normal]
  rw [State.setNormality, State.record_recount, hcounts]
  rfl

theorem ConditionRecord.recount_eq (now : Nat) (counts : Bool) (r : ConditionRecord) :
    r.recount now counts = match r.activeSince, counts with
      | none, true => { r with activeSince := some now }
      | some t, false => { r with activeMs := r.activeMs + (now - t), activeSince := none }
      | _, _ => r := by
  unfold ConditionRecord.recount
  cases r.activeSince <;> cases counts <;> rfl

/-! ### Clearing (R162, R165) -/

/-- R162, R163: a record's change to CLEARED, before R165 may retire it. -/
def State.putCleared (src : Source) (r : ConditionRecord) (s : State) : State :=
  ((s.putRecord src (some { r with state := .cleared, lastChange := s.clock.time })).raise .conditionChanged).deriveLevel

theorem State.record_putCleared (src : Source) (r : ConditionRecord) (s : State) :
    (s.putCleared src r).record src = some { r with state := .cleared, lastChange := s.clock.time } :=
  same_deriveLevel.1.trans ((State.record_putRecord ..).trans (if_pos rfl))

theorem State.clearRecord_of_some {src : Source} {s : State} {r : ConditionRecord} (h : s.record src = some r) :
    s.clearRecord src =
      if s.reportEnabled src = false ∧ r.snapshot = none then (s.putCleared src r).retire src else s.putCleared src r := by
  have henabled : (s.putCleared src r).reportEnabled src = s.reportEnabled src := by
    simp [State.putCleared, State.reportEnabled]
  rw [State.clearRecord, h]
  change (s.putCleared src r).retireIfDue src = _
  rw [State.retireIfDue, State.record_putCleared, henabled]
  simp

theorem latched_eq_true_iff {src : Source} {r : ConditionRecord} : latched src r = true ↔
    r.severity = .alarm ∨ src = .collectGate ∨ src = .refundGate ∨ src = .coinPath := by
  simp [latched, or_assoc]

theorem State.clearIfNormal_of_clears {src : Source} {s : State} {r : ConditionRecord} (h : s.record src = some r)
    (hactive : r.active = true) (hlatched : latched src r = false) (hnormal : s.normal src = true) :
    s.clearIfNormal src = s.clearRecord src := by
  rw [State.clearIfNormal, h]
  exact if_pos ⟨hactive, hlatched, hnormal⟩

theorem State.clearIfNormal_of_inactive_or_latched {src : Source} {s : State}
    (h : ∀ r, s.record src = some r → r.state = .cleared ∨ latched src r = true) : s.clearIfNormal src = s := by
  unfold State.clearIfNormal
  split
  next => rfl
  next r hr =>
    refine if_neg fun ⟨hactive, hunlatched, _⟩ => ?_
    obtain hcleared | hlatched := h r hr
    · simp [ConditionRecord.active, hcleared] at hactive
    · simp [hlatched] at hunlatched

theorem State.recordOccurrence_eq (src : Source) (type : ConditionType) (severity : Severity) (s : State) :
    s.recordOccurrence src type severity =
      (s.putRecord src (some (s.occurred src type severity))).raise .conditionChanged := by
  have htwice (r r' : ConditionRecord) : (s.putRecord src (some r)).putRecord src (some r') = s.putRecord src (some r') := by
    simp [State.putRecord, State.setSup, Vector.set_set]
  have hput (r : ConditionRecord) : (s.putRecord src (some r)).recount src =
      s.putRecord src (some (r.recount s.now (s.counting src))) := by
    rw [State.recount, State.record_putRecord, if_pos rfl]
    exact htwice ..
  unfold State.recordOccurrence State.occurred
  cases s.record src with
  | none => exact congrArg (State.raise .conditionChanged) (hput _)
  | some r => exact congrArg (State.raise .conditionChanged) (hput _)

/-! ### Source codes -/

theorem Source.ofCode_code (src : Source) : Source.ofCode src.code = some src := by
  cases src with
  | input i => revert i; decide
  | _ => decide

theorem Source.ofCode_eq_none {code : Nat} (h : code = 0 ∨ 22 < code) : Source.ofCode code = none := by
  refine List.find?_eq_none.2 fun src _ hcode => ?_
  have hidx := src.idx.isLt
  have hcode : src.idx.val + 1 = code := of_decide_eq_true hcode
  omega

/-! ### CONDITION_CLEAR (R163) -/

theorem exec_conditionClear {p : Port} {s : State} (h : s.admits p) (tag code : Byte) :
    exec (.conditionClear p tag [code]) s = .next (State.handCredit s.available
      ((s.clearCode code.toNat).1.answer p ((s.clearCode code.toNat).2.response 19 tag))) := by
  have hserve := State.serve_of_admits (fits := ofLength 1) (body := [code]) h (by rfl) 19 tag (State.clearCode code.toNat)
  rw [← hserve]
  exact congrArg _ (State.whilePowered_of_main h.1)

theorem State.clearCode_of_outside {code : Nat} {s : State} (h : code = 0 ∨ 22 < code) :
    s.clearCode code = (s, .refused .invalid) := by
  rw [State.clearCode, Source.ofCode_eq_none h]

theorem State.clearCode_of_code {code : Nat} {src : Source} {s : State} (h : code = src.code) :
    s.clearCode code = s.judgeClear src := by
  rw [State.clearCode, h, Source.ofCode_code]

theorem State.judgeClear_of_none {src : Source} {s : State} (h : s.record src = none) :
    s.judgeClear src = (s, .refused .notFound) := by
  rw [State.judgeClear, h]

section
variable {src : Source} {s : State} {r : ConditionRecord} (h : s.record src = some r)
include h

theorem State.judgeClear_of_unlatched (hlatched : ¬ latched src r = true) : s.judgeClear src = (s, .refused .state) := by
  rw [State.judgeClear, h]
  exact if_pos (by simpa using hlatched)

theorem State.judgeClear_of_latched (hlatched : latched src r = true) : s.judgeClear src =
    if r.state = .cleared then (s, .done .empty)
    else if s.normal src then (s.clearCondition src, .done .empty)
    else (s, .refused .state) := by
  rw [State.judgeClear, h]
  exact if_neg (by simp [hlatched])

theorem State.judgeClear_of_cleared (hlatched : latched src r = true) (hcleared : r.state = .cleared) :
    s.judgeClear src = (s, .done .empty) := (State.judgeClear_of_latched h hlatched).trans (if_pos hcleared)

theorem State.judgeClear_of_abnormal (hlatched : latched src r = true) (hactive : r.state ≠ .cleared)
    (habnormal : s.normal src = false) : s.judgeClear src = (s, .refused .state) := by
  rw [State.judgeClear_of_latched h hlatched, if_neg hactive, habnormal, if_neg Bool.false_ne_true]

theorem State.judgeClear_of_normal (hlatched : latched src r = true) (hactive : r.state ≠ .cleared)
    (hnormal : s.normal src = true) : s.judgeClear src = (s.clearCondition src, .done .empty) := by
  rw [State.judgeClear_of_latched h hlatched, if_neg hactive, if_pos hnormal]

end

/-- Settles O54: the record by what it counts, and its clearing by whether it latches. -/
theorem occurrencesAndClearings : Obligations.OccurrencesAndClearings := by
  intro src s changed latches counted clear
  have hchanged (r : Option ConditionRecord) (t : State) : changed r t = (t.putRecord src r).raise .conditionChanged := rfl
  have hlatches (r : ConditionRecord) : latches r ↔ latched src r = true := latched_eq_true_iff.symm
  have hcounted (abnormal : Bool) (r : ConditionRecord) :
      counted abnormal r = r.recount s.now (s.countsAt src abnormal) :=
    (ConditionRecord.recount_eq ..).symm
  have hclear {t : State} {r : ConditionRecord} (h : t.record src = some r) : t.clearRecord src = clear r t := by
    have hretire (u : State) : u.retire src = State.deriveLevel (changed none u) := rfl
    have hput : State.putCleared src r t =
        State.deriveLevel (changed (some { r with state := .cleared, lastChange := t.clock.time }) t) := rfl
    rw [State.clearRecord_of_some h, hretire, hput]
  refine ⟨fun type severity => ?occurrence, fun r hr => hclear hr, fun abnormal => ?normality, ?makeNormal,
    fun p tag code hadmits => ?request⟩
  case occurrence =>
    intro r t
    have hr : r = s.occurred src type severity := by
      refine (hcounted ..).trans ?_
      rw [← State.counting_eq]
      unfold State.occurred
      cases s.record src <;> rfl
    have ht : t = ((s.recordOccurrence src type severity).reportTrigger severity).deriveLevel := by
      rw [State.recordOccurrence_eq, ← hr]
      rfl
    have hrecord : t.record src = some r := by
      rw [ht, same_deriveLevel.1, same_reportTrigger.1, State.record_recordOccurrence, hr]
    have hactive : r.active = true := by rw [hr, ConditionRecord.active, State.occurred_state]; rfl
    have hnormal : t.normal src = s.normal src := by
      rw [ht, same_deriveLevel.2, same_reportTrigger.2, State.normal_recordOccurrence]
    have hoccurs : s.occurrence src type severity = t.clearIfNormal src := by rw [ht]; rfl
    refine ⟨fun hkept => ?_, fun hunlatched hnormal' => ?_⟩
    · rw [hlatches, hr] at hkept
      rw [ht]
      exact State.occurrence_of_kept hkept
    · rw [hoccurs, State.clearIfNormal_of_clears hrecord hactive (by simpa [hlatches] using hunlatched)
        (hnormal.trans hnormal')]
      exact hclear hrecord
  case normality =>
    refine ⟨?_, State.normal_setNormality .., ?_, fun other hother => ?_⟩
    · unfold State.setNormality State.recount
      split <;> rfl
    · rw [State.record_setNormality_eq]
      exact congrArg (Option.map · (s.record src)) (funext fun r => (hcounted abnormal r).symm)
    · obtain ⟨hrecord, hnormal⟩ := same_setNormality (b := abnormal) (s := s) hother.symm
      exact ⟨hnormal, hrecord⟩
  case makeNormal =>
    refine ⟨fun r hr hstate hunlatched => ?_, fun hkept => ?_⟩
    · exact State.clearIfNormal_of_clears hr (by simpa [ConditionRecord.active] using hstate)
        (by simpa [hlatches] using hunlatched) (State.normal_setNormality ..)
    · exact State.clearIfNormal_of_inactive_or_latched fun r hr => (hkept r hr).imp_right (hlatches r).1
  case request =>
    intro answers
    have hanswers {t : State} {r : Reply} (h : s.clearCode code.toNat = (t, r)) : answers t r := by
      rw [← show (s.clearCode code.toNat).1 = t from congrArg Prod.fst h,
        ← show (s.clearCode code.toNat).2 = r from congrArg Prod.snd h]
      exact exec_conditionClear hadmits tag code
    refine ⟨fun hcode => hanswers (State.clearCode_of_outside hcode), fun hcode => ?_⟩
    have hjudged {t : State} {r : Reply} (h : s.judgeClear src = (t, r)) : answers t r :=
      hanswers ((State.clearCode_of_code hcode).trans h)
    refine ⟨fun hnone => hjudged (State.judgeClear_of_none hnone), fun r hr => ?_⟩
    simp only [hlatches]
    refine ⟨fun h => hjudged (State.judgeClear_of_unlatched hr h), fun h hcleared => hjudged (State.judgeClear_of_cleared hr h hcleared),
      fun h hactive habnormal => hjudged (State.judgeClear_of_abnormal hr h hactive habnormal), fun h hactive hnormal => ?_⟩
    have hclears := State.judgeClear_of_normal hr h hactive hnormal
    exact ⟨fun hother => hjudged (hclears.trans (congrArg (·, Reply.done .empty) (if_neg hother))),
      fun hgate => hjudged (hclears.trans (congrArg (·, Reply.done .empty) (if_pos hgate)))⟩

/-! ### The thresholds (R46, R55) -/

theorem State.record_clearRecord {src : Source} {s : State} {r : ConditionRecord} (h : s.record src = some r) :
    (s.clearRecord src).record src = if s.reportEnabled src = false ∧ r.snapshot = none then none
      else some { r with state := .cleared, lastChange := s.clock.time } := by
  have hretire (u : State) : (u.retire src).record src = none :=
    same_deriveLevel.1.trans ((State.record_putRecord ..).trans (if_pos rfl))
  rw [State.clearRecord_of_some h]
  split
  next => exact hretire _
  next => exact State.record_putCleared ..

/-- R162: an unlatched record of a normal source is CLEARED. -/
theorem State.state_of_makeNormal {src : Source} {s : State} {r : ConditionRecord} (h : (s.makeNormal src).record src = some r)
    (hunlatched : latched src r = false) : r.state = .cleared := by
  unfold State.makeNormal State.clearIfNormal at h
  split at h
  next hnone => simp [hnone] at h
  next old hold =>
    split at h
    next =>
      rw [State.record_clearRecord hold] at h
      obtain ⟨-, ⟨⟩⟩ := Option.ite_none_left_eq_some.1 h
      rfl
    next hkept =>
      obtain ⟨⟩ : old = r := Option.some.inj (hold.symm.trans h)
      refine Decidable.byContradiction fun hactive => ?_
      exact hkept ⟨by simpa [ConditionRecord.active] using hactive, hunlatched, State.normal_setNormality ..⟩

theorem State.normal_judgeThreshold (src : Source) (type : ConditionType) (severity : Severity) (reached : Bool) (s : State) :
    (s.judgeThreshold src type severity reached).normal src = !reached := by
  unfold State.judgeThreshold
  cases reached <;> cases h : s.normal src <;> simp [h, State.normal_becomeAbnormal, State.normal_makeNormal]

/-- R46: what the judgement of one threshold leaves of its source's record. -/
structure State.ThresholdJudged (src : Source) (type : ConditionType) (severity : Severity) (reached : Bool)
    (s t : State) : Prop where
  raised : reached = true → s.normal src = true → ∃ r, t.record src = some r ∧ r.type = type ∧ r.severity = severity ∧
    r.state = .raised ∧ r.lastChange = s.clock.time ∧
    r.count = match s.record src with
      | none => 1
      | some old => if old.count < 255 then old.count + 1 else 255
  cleared : reached = false → s.normal src = false → ∀ r, t.record src = some r → latched src r = false → r.state = .cleared
  kept : s.normal src = !reached → t.record src = s.record src

theorem State.occurred_count_setNormality (src : Source) (type : ConditionType) (severity : Severity) (abnormal : Bool) (s : State) :
    ((s.setNormality src abnormal).occurred src type severity).count = match s.record src with
      | none => 1
      | some old => if old.count < 255 then old.count + 1 else 255 := by
  rw [State.occurred_count, State.record_setNormality_eq]
  cases s.record src with
  | none => rfl
  | some old => simp [ConditionRecord.recount_count]

theorem State.thresholdJudged (src : Source) (type : ConditionType) (severity : Severity) (reached : Bool) (s : State) :
    s.ThresholdJudged src type severity reached (s.judgeThreshold src type severity reached) where
  raised hreached hnormal := by
    have hjudge : s.judgeThreshold src type severity reached = s.becomeAbnormal src type severity := by
      rw [State.judgeThreshold, if_pos hreached, if_pos hnormal]
    rw [hjudge]
    refine ⟨_, State.record_becomeAbnormal .., State.occurred_type .., State.occurred_severity .., State.occurred_state .., ?_,
      State.occurred_count_setNormality ..⟩
    rw [State.occurred_lastChange]
    simp
  cleared hbelow habnormal r hr hunlatched := by
    have hjudge : s.judgeThreshold src type severity reached = s.makeNormal src := by
      rw [State.judgeThreshold, if_neg (by simp [hbelow]), if_neg (by simp [habnormal])]
    rw [hjudge] at hr
    exact State.state_of_makeNormal hr hunlatched
  kept hquiet := by
    have hjudge : s.judgeThreshold src type severity reached = s := by
      unfold State.judgeThreshold
      cases reached <;> simp [hquiet]
    rw [hjudge]

/-- The judgement read before and after steps that leave the source and the clock alone. -/
theorem State.ThresholdJudged.of_same {src : Source} {type : ConditionType} {severity : Severity} {reached : Bool}
    {s s' t t' : State} (hbefore : Same src s s') (hclock : s'.clock = s.clock) (hafter : Same src t t')
    (h : s'.ThresholdJudged src type severity reached t) : s.ThresholdJudged src type severity reached t' := by
  obtain ⟨hrecord, hnormal⟩ := hbefore
  obtain ⟨hraised, hcleared, hkept⟩ := h
  rw [hnormal] at hraised hcleared hkept
  rw [hrecord] at hraised hkept
  rw [hclock, ← hafter.1] at hraised
  rw [← hafter.1] at hcleared hkept
  exact ⟨hraised, hcleared, hkept⟩

/-- Settles O60: each threshold's judgement touches its own source alone. -/
theorem thresholdsAreJudged : Obligations.ThresholdsAreJudged := by
  refine ⟨fun s => ?judgement, fun src type severity reached s => ?start⟩
  case judgement =>
    intro n judged near t
    have hjudged (src type severity reached) (u : State) :
        judged src type severity reached u = u.judgeThreshold src type severity reached := by
      unfold State.judgeThreshold
      cases reached <;> cases hnormal : u.normal src <;> simp [judged, hnormal, State.becomeAbnormal, State.makeAbnormal]
    have hnear : near = s.judgeThreshold .cashboxNear .cashboxNearFull .notice (s.settings.near ≤ n) := hjudged ..
    have hsettings : near.settings = s.settings := by rw [hnear]; simp
    have hcomp : near.comp = s.comp := by rw [hnear]; simp
    have hclock : near.clock = s.clock := by rw [hnear]; simp
    have ht : t = near.judgeThreshold .cashboxFull .cashboxFull .fault (s.settings.full ≤ n) := by
      rw [← hsettings, show n = near.comp.current.totalCoins by rw [hcomp], hnear]
      rfl
    have hkeepsNear {src : Source} (h : src ≠ .cashboxNear) : Same src s near := by
      rw [hnear]
      exact same_judgeThreshold h.symm
    have hkeepsFull {src : Source} (h : src ≠ .cashboxFull) : Same src near t := by
      rw [ht]
      exact same_judgeThreshold h.symm
    have hnearJudged : s.ThresholdJudged .cashboxNear .cashboxNearFull .notice (s.settings.near ≤ n) t :=
      (hnear ▸ State.thresholdJudged ..).of_same .refl rfl (hkeepsFull (by simp))
    have hfullJudged : s.ThresholdJudged .cashboxFull .cashboxFull .fault (s.settings.full ≤ n) t :=
      (ht ▸ State.thresholdJudged ..).of_same (hkeepsNear (by simp)) hclock .refl
    refine ⟨ht.trans (hjudged ..).symm, ?_, ?_, ?_, ?_, ?_, fun src hn hf => (hkeepsNear hn).trans (hkeepsFull hf)⟩
    · rw [(hkeepsFull (by simp)).2, hnear, State.normal_judgeThreshold]
      simp [← decide_not]
    · rw [ht, State.normal_judgeThreshold]
      simp [← decide_not]
    · rw [ht]; simp [hcomp]
    · rw [ht]; simp [hsettings]
    · intro src type severity limit hmem
      obtain ⟨hjudge, hlatches⟩ : s.ThresholdJudged src type severity (limit ≤ n) t ∧
          ∀ r : ConditionRecord, r.severity ≠ .alarm → latched src r = false := by
        simp only [List.mem_cons, Prod.mk.injEq, List.not_mem_nil, or_false] at hmem
        obtain ⟨rfl, rfl, rfl, rfl⟩ | ⟨rfl, rfl, rfl, rfl⟩ := hmem
        · exact ⟨hnearJudged, fun r hr => by simp [latched, hr]⟩
        · exact ⟨hfullJudged, fun r hr => by simp [latched, hr]⟩
      refine ⟨fun hreached => hjudge.raised (decide_eq_true hreached), fun hbelow habnormal r hr hseverity => ?_, fun hquiet => ?_⟩
      · exact hjudge.cleared (decide_eq_false (Nat.not_le.2 hbelow)) habnormal r hr (hlatches r hseverity)
      · exact hjudge.kept (by simpa [← decide_not] using hquiet)
  case start =>
    intro t
    have hactive : (s.setNormality src true).recordActive src = s.recordActive src := recordActive_setNormality ..
    refine ⟨fun hbelow => if_neg (by simp [hbelow]), fun hreached => ?_⟩
    have ht : t = if s.recordActive src = true then s.setNormality src true
        else (s.setNormality src true).recordOccurrence src type severity := by
      rw [← hactive]
      exact if_pos hreached
    refine ⟨?_, fun other hother => ?_, fun hheld r hr => ?_, fun hnone => ?_⟩
    · rw [ht]
      split
      · exact State.normal_setNormality ..
      · exact (State.normal_recordOccurrence ..).trans (State.normal_setNormality ..)
    · rw [ht]
      have hset : Same other s (s.setNormality src true) := same_setNormality hother.symm
      split
      · exact hset
      · exact hset.trans (same_recordOccurrence hother.symm)
    · rw [ht, if_pos hheld, State.record_setNormality_eq, hr]
      exact ⟨_, rfl, ConditionRecord.recount_state .., ConditionRecord.recount_count ..⟩
    · rw [ht, if_neg (by simp [hnone])]
      exact ⟨_, State.record_recordOccurrence .., State.occurred_type .., State.occurred_severity .., State.occurred_state ..,
        State.occurred_count_setNormality ..⟩

end Sys2Proof.Machine
end

/-! ## The service level and the inhibit set (R1, R139, R146, R167, R168) -/

section
namespace Sys2Proof.Machine

/-! ### The derived level -/

/-- R167: how restrictive a service level is. -/
def ServiceLevel.rank : ServiceLevel → Nat
  | .full => 0
  | .freeOnly => 1
  | .emergencyOnly => 2
  | .closed => 3

theorem ServiceLevel.rank_meet (a b : ServiceLevel) : (a.meet b).rank = max a.rank b.rank := by
  cases a <;> cases b <;> rfl

theorem ServiceLevel.meet_eq_or (a b : ServiceLevel) : a.meet b = a ∨ a.meet b = b := by
  cases a <;> cases b <;> decide

/-- R167: a fold of levels is the most restrictive of them. -/
theorem ServiceLevel.rank_foldl_meet {α : Type} (f : α → ServiceLevel) (l : List α) (init : ServiceLevel) :
    init.rank ≤ (l.foldl (fun level a => level.meet (f a)) init).rank ∧
      ∀ a ∈ l, (f a).rank ≤ (l.foldl (fun level a => level.meet (f a)) init).rank := by
  induction l generalizing init with
  | nil => exact ⟨Nat.le_refl _, nofun⟩
  | cons b rest ih =>
    obtain ⟨hinit, hrest⟩ := ih (init.meet (f b))
    rw [ServiceLevel.rank_meet, Nat.max_le] at hinit
    exact ⟨hinit.1, List.forall_mem_cons.2 ⟨hinit.2, hrest⟩⟩

theorem ServiceLevel.foldl_meet_mem {α : Type} (f : α → ServiceLevel) (l : List α) (init : ServiceLevel) :
    l.foldl (fun level a => level.meet (f a)) init = init ∨
      ∃ a ∈ l, f a = l.foldl (fun level a => level.meet (f a)) init := by
  induction l generalizing init with
  | nil => exact .inl rfl
  | cons b rest ih =>
    rw [List.foldl_cons]
    obtain hinit | ⟨a, ha, hfa⟩ := ih (init.meet (f b))
    · rw [hinit]
      exact (init.meet_eq_or (f b)).imp_right fun h => ⟨b, List.mem_cons_self, h.symm⟩
    · exact .inr ⟨a, List.mem_cons_of_mem b ha, hfa⟩

theorem Supervision.sourceLevel_of_active {v : Supervision} {src : Source} {r : ConditionRecord}
    (h : v.records[src.idx] = some r) (hactive : r.state ≠ .cleared) : v.sourceLevel src = v.restriction src r := by
  rw [Supervision.sourceLevel, h]
  exact if_pos (by simpa [ConditionRecord.active] using hactive)

theorem Supervision.sourceLevel_of_cleared {v : Supervision} {src : Source} {r : ConditionRecord}
    (h : v.records[src.idx] = some r) (hcleared : r.state = .cleared) : v.sourceLevel src = .full := by
  rw [Supervision.sourceLevel, h]
  exact if_neg (by simp [ConditionRecord.active, hcleared])

/-- R167: the types that leave their source's calls to the free categories. -/
theorem Supervision.restriction_of_freeOnly {v : Supervision} {src : Source} {r : ConditionRecord}
    (h : r.type ∈ [.coinPathJam, .gateJam, .slotBlocked, .returnBlocked, .cashboxFull, .compartmentForced]) :
    v.restriction src r = .freeOnly := by
  simp only [List.mem_cons, List.not_mem_nil, or_false] at h
  unfold Supervision.restriction
  obtain h | h | h | h | h | h := h <;> rw [h]

/-- R167: the types that restrict nothing. -/
theorem Supervision.restriction_of_unrestricted {v : Supervision} {src : Source} {r : ConditionRecord}
    (h : r.type ∈ [.cashboxNearFull, .keypadStuck, .noDialTone, .retentionLost, .clockUnset, .cashboxCollected]) :
    v.restriction src r = .full := by
  simp only [List.mem_cons, List.not_mem_nil, or_false] at h
  unfold Supervision.restriction
  obtain h | h | h | h | h | h := h <;> rw [h]

/-! ### The session's judgement of its call (R139, R146) -/

theorem ServiceLevel.continues_eq_false_iff {level : ServiceLevel} {category : Category} :
    level.continues category = false ↔ level = .closed ∨ level = .emergencyOnly ∧ category ≠ .emergency := by
  cases level <;> simp [ServiceLevel.continues]

theorem State.judgeLevel_of_none {s : State} (h : s.session.decision = none) (level : ServiceLevel) :
    s.judgeLevel level = s := by
  unfold State.judgeLevel
  split <;> simp_all

/-- R139, R146: whether a new level ends the call of a category that the session holds. -/
def SessionState.endedBy (state : SessionState) (level : ServiceLevel) (category : Category) : Prop :=
  state = .awaitCredit ∧ level ≠ .full ∨
    (state = .placing ∨ state = .ringing ∨ state = .connected) ∧
      (level = .closed ∨ level = .emergencyOnly ∧ category ≠ .emergency)

theorem State.judgeLevel_of_some {s : State} {d : Decision} (h : s.session.decision = some d) (level : ServiceLevel) :
    (s.session.state.endedBy level d.category → s.judgeLevel level = s.endCallToEnded .levelDrop) ∧
      (¬ s.session.state.endedBy level d.category → s.judgeLevel level = s) := by
  unfold State.judgeLevel SessionState.endedBy
  rw [h, ← ServiceLevel.continues_eq_false_iff]
  cases s.session.state <;> simp +contextual

theorem State.deriveLevel_of_ne {s : State} (h : s.sup.derivedLevel ≠ s.sup.level) :
    s.deriveLevel = ((s.setSup { s.sup with level := s.sup.derivedLevel, levelSince := s.now }).raise .levelChanged).judgeLevel
      s.sup.derivedLevel := if_neg h

/-! ### The inhibit set (R1) -/

theorem SessionState.acceptsCoins_eq_false_iff {state : SessionState} :
    state.acceptsCoins = false ↔ state = .idle ∨ state = .clearing := by
  cases state <;> simp [SessionState.acceptsCoins]

theorem CoinPath.refundInFlight_iff {c : CoinPath} :
    c.refundInFlight = true ↔ ∃ ends startUp ofSession, c.cycle = .refund ends startUp ofSession := by
  unfold CoinPath.refundInFlight
  cases c.cycle <;> simp

/-- Settles O55. -/
theorem serviceLevelFollowsTheActiveRecords : Obligations.ServiceLevelFollowsTheActiveRecords := by
  unfold Obligations.ServiceLevelFollowsTheActiveRecords
  intro rank
  have hrank (level : ServiceLevel) : rank level = level.rank := by cases level <;> rfl
  refine ⟨fun v src r => ?source, fun v => ?derived, fun s => ?state⟩
  case source =>
    refine ⟨fun hnone => ?_, Supervision.sourceLevel_of_cleared, fun hr hactive => ?_⟩
    · rw [Supervision.sourceLevel, hnone]
    · rw [Supervision.sourceLevel_of_active hr hactive]
      refine ⟨Supervision.restriction_of_freeOnly, fun htype => ?_, fun i type hsrc htype => ?_,
        Supervision.restriction_of_unrestricted⟩
      · simp [Supervision.restriction, htype]
      · simp [Supervision.restriction, htype, hsrc]
  case derived =>
    simp only [hrank]
    refine ⟨fun src => (ServiceLevel.rank_foldl_meet ..).2 src src.mem_all, ?_⟩
    exact (ServiceLevel.foldl_meet_mem v.sourceLevel Source.all .full).imp_right fun ⟨src, _, h⟩ => ⟨src, h⟩
  case state =>
    intro level lowered
    have hlowered : lowered = (s.setSup { s.sup with level := level, levelSince := s.now }).raise .levelChanged := rfl
    have hderived (h : level ≠ s.sup.level) : s.deriveLevel = lowered.judgeLevel level := State.deriveLevel_of_ne h
    refine ⟨fun h => if_pos h, fun h hd => (hderived h).trans (State.judgeLevel_of_none (s := lowered) hd level), fun d h hd => ?_, ?_,
      fun cls => ?_⟩
    · rw [hderived h]
      exact State.judgeLevel_of_some (s := lowered) hd level
    · simp [State.lampLit]
    · rw [← CoinPath.refundInFlight_iff]
      simp only [State.classInhibited, Bool.or_eq_true, Bool.not_eq_true', SessionState.acceptsCoins_eq_false_iff,
        decide_eq_true_eq, or_assoc]
      rfl

end Sys2Proof.Machine
end

/-! ## Coins that reach the cashbox, and the two gate cycles (sections 1.3 to 1.6) -/

section
namespace Sys2Proof.Machine

/-! ### Value reaching B (R22, R35) -/

theorem State.addBanked_of_notOpen {s : State} (h : s.credit.account = .notOpen) (amount : Nat) :
    s.addBanked amount = s.addForfeit amount := by
  rw [State.addBanked, h]

theorem State.addBanked_of_open {s : State} (h : s.credit.account ≠ .notOpen) (amount : Nat) :
    s.addBanked amount = { s with
      credit := { s.credit with
        banked := min 65535 (s.credit.banked + amount)
        sessionForfeit := min 4294967295 (s.credit.sessionForfeit + (s.credit.banked + amount - 65535)) }
      comp := { s.comp with current := { s.comp.current with
        forfeit := min 4294967295 (s.comp.current.forfeit + (s.credit.banked + amount - 65535)) } } } := by
  unfold State.addBanked
  split
  next hnot => exact absurd hnot h
  next => rfl
  next => rfl

theorem State.addBanked_eq (amount : Nat) (s : State) : s.addBanked amount =
    if s.credit.account = .notOpen then
      { s with comp := { s.comp with current := { s.comp.current with
          forfeit := min 4294967295 (s.comp.current.forfeit + amount) } } }
    else { s with
      credit := { s.credit with
        banked := min 65535 (s.credit.banked + amount)
        sessionForfeit := min 4294967295 (s.credit.sessionForfeit + (s.credit.banked + amount - 65535)) }
      comp := { s.comp with current := { s.comp.current with
        forfeit := min 4294967295 (s.comp.current.forfeit + (s.credit.banked + amount - 65535)) } } } := by
  split
  next h => exact State.addBanked_of_notOpen h amount
  next h => exact State.addBanked_of_open h amount

/-- R22: an amount that B has room for is not forfeited. -/
theorem State.addBanked_of_room {s : State} {amount : Nat} (hforfeit : s.comp.current.forfeit ≤ 4294967295)
    (hsession : s.credit.sessionForfeit ≤ 4294967295) (h : s.credit.account ≠ .notOpen)
    (hroom : s.credit.banked + amount ≤ 65535) :
    s.addBanked amount = { s with credit := { s.credit with banked := s.credit.banked + amount } } := by
  rw [State.addBanked_of_open h, Nat.sub_eq_zero_of_le hroom, Nat.min_eq_right hroom, Nat.add_zero, Nat.add_zero,
    Nat.min_eq_right hforfeit, Nat.min_eq_right hsession]

/-! ### Available credit (R24) -/

/-- R24: what available credit is read from. -/
theorem State.available_of_views {s t : State} (hcolumn : t.coin.column = s.coin.column) (hcredit : t.credit = s.credit)
    (hpresence : t.comp.presence = s.comp.presence)
    (hactive : t.recordActive .collectGate = s.recordActive .collectGate) : t.available = s.available := by
  have hcollectable : t.collectable = s.collectable := by
    simp only [State.collectable, State.gateInhibited, hactive, hpresence]
  simp only [State.available, State.collectableEscrow, State.escrow, hcollectable, hcolumn, hcredit]

@[simp] theorem State.available_setNormality (src : Source) (abnormal : Bool) (s : State) :
    (s.setNormality src abnormal).available = s.available :=
  State.available_of_views (by simp) (by simp) (by simp) (recordActive_setNormality ..)

theorem State.whilePowered_creditStep {work : State → State} {s : State} (h : s.supplies.main = true) :
    s.whilePowered (State.creditStep work) = (work s).handCredit s.available := State.whilePowered_of_main h

/-! ### Thresholds that nothing crosses (R46) -/

theorem State.judgeThreshold_of_quiet {src : Source} {type : ConditionType} {severity : Severity} {reached : Bool} {s : State}
    (h : s.normal src = !reached) : s.judgeThreshold src type severity reached = s := by
  unfold State.judgeThreshold
  cases reached <;> simp [h]

theorem State.judgeThresholds_of_quiet {s : State} (h : s.thresholdsQuiet s.comp.current.totalCoins) :
    s.judgeThresholds = s := by
  obtain ⟨hnear, hfull⟩ := h
  have hkeeps : s.judgeThreshold .cashboxNear .cashboxNearFull .notice (s.settings.near ≤ s.comp.current.totalCoins) = s :=
    State.judgeThreshold_of_quiet (by rw [hnear, ← decide_not]; exact decide_eq_decide.2 Nat.not_le.symm)
  rw [State.judgeThresholds, hkeeps]
  exact State.judgeThreshold_of_quiet (by rw [hfull, ← decide_not]; exact decide_eq_decide.2 Nat.not_le.symm)

/-! ### A cashbox entry pulse (R7) -/

theorem exec_cashboxEntryPulse {s : State} (h : s.supplies.main = true) :
    exec .cashboxEntryPulse s = .next (s.cashboxPulse.handCredit s.available) :=
  congrArg _ (State.whilePowered_creditStep h)

theorem State.cashboxPulse_of_first {s : State} {g ends : Nat} (h : s.coin.cycle = .collectStarted g ends false false) :
    s.cashboxPulse = s.setCoin { s.coin with cycle := .collectStarted g ends true false } := by
  rw [State.cashboxPulse, h]

theorem State.cashboxPulse_of_home {s : State} {g ends : Nat} (h : s.coin.cycle = .collectStarted g ends false true) :
    s.cashboxPulse = s.completeCollect g := by
  rw [State.cashboxPulse, h]

/-- R7: a pulse that is not a collect cycle's own. -/
theorem State.cashboxPulse_of_other {s : State} (h : ∀ g ends home, s.coin.cycle ≠ .collectStarted g ends false home) :
    s.cashboxPulse = s.cashboxArrival := by
  unfold State.cashboxPulse
  split
  next g ends hc => exact absurd hc (h g ends false)
  next g ends hc => exact absurd hc (h g ends true)
  all_goals rfl

/-- R7: what an overflow coin that reached the cashbox leaves, once its value is received and settled. -/
def State.countArrival (e : TransitEntry) (paid : State) : State :=
  let judged := paid.countOverflow e.cls e.value
  judged.setCoin { judged.coin with streak := 0 }

theorem State.cashboxArrival_of_some {s : State} {e : TransitEntry} {rest : List TransitEntry}
    (h : takeOldest .overflow s.coin.transit = some (e, rest)) :
    s.cashboxArrival = (((s.setCoin { s.coin with transit := rest }).addBanked e.value).settle).countArrival e := by
  rw [State.cashboxArrival, h]
  rfl

theorem State.cashboxArrival_of_none {s : State} (h : takeOldest .overflow s.coin.transit = none) :
    s.cashboxArrival = s.countUnexpected := by
  rw [State.cashboxArrival, h]

/-- R46: a count that moves neither threshold source judges nothing. -/
theorem State.countCurrent_of_quiet {s : State} {t : Tally} (h : s.thresholdsQuiet t.totalCoins) :
    (s.setCurrent t).judgeThresholds = s.setCurrent t := State.judgeThresholds_of_quiet (s := s.setCurrent t) h

theorem State.countArrival_of_quiet {s : State} (h : s.thresholdsQuiet (min 65535 (s.comp.current.totalCoins + 1)))
    (e : TransitEntry) : s.countArrival e = { s with
      coin := { s.coin with streak := 0 }
      comp := { s.comp with current := s.comp.current.addCollected (some e.cls) e.value } } := by
  have hcounts : s.countOverflow e.cls e.value = s.setCurrent (s.comp.current.addCollected (some e.cls) e.value) :=
    State.countCurrent_of_quiet h
  rw [State.countArrival, hcounts]
  rfl

/-- Settles O19, by the collect cycle that the pulse meets and then by the oldest OVERFLOW entry. -/
theorem cashboxPulseCountsTheCoin : Obligations.CashboxPulseCountsTheCoin := by
  intro s hmain hfigures quiet
  obtain ⟨⟨-, -, -, -, hforfeit, -⟩, -, hsession⟩ := hfigures
  rw [exec_cashboxEntryPulse hmain]
  refine ⟨fun g ends hcycle => ?first, fun hother => ?other⟩
  case first =>
    rw [State.cashboxPulse_of_first hcycle]
    exact congrArg Host.Outcome.next (State.handCredit_of_available_eq rfl)
  case other =>
    rw [State.cashboxPulse_of_other hother]
    refine ⟨?arrives, fun hnone => ?uncredited⟩
    case arrives =>
      intro older e newer htransit hbefore he taken excess received counted paid judged
      have hfound : takeOldest .overflow s.coin.transit = some (e, older ++ newer) := by
        rw [htransit, takeOldest_append hbefore he]
      have hreceived : received = taken.addBanked e.value := (State.addBanked_eq e.value taken).symm
      rw [State.cashboxArrival_of_some hfound]
      refine ⟨?_, fun hquiet hopen hroom hpays => ?_⟩
      · change _ = Host.Outcome.next (State.handCredit s.available (paid.countArrival e))
        rw [show paid = received.settle from rfl, hreceived]
        rfl
      · have hbanked : taken.addBanked e.value = { taken with
            credit := { s.credit with banked := s.credit.banked + e.value } } :=
          State.addBanked_of_room hforfeit hsession hopen hroom
        have hpaid : (taken.addBanked e.value).settle = { taken with credit := { s.credit with
            banked := s.credit.banked + e.value - owedTotal s.credit.owed, owed := [] } } := by
          rw [hbanked]
          exact State.settle_of_le hpays
        change Host.Outcome.next (State.handCredit s.available (((taken.addBanked e.value).settle).countArrival e)) = _
        rw [hpaid, State.countArrival_of_quiet (by exact hquiet)]
        rfl
    case uncredited =>
      intro uncredited
      rw [State.cashboxArrival_of_none (takeOldest_of_forall_ne hnone)]
      refine ⟨rfl, fun hquiet => ?_⟩
      have hcounts : s.countUnexpected = uncredited := State.countCurrent_of_quiet hquiet
      rw [hcounts]
      exact congrArg Host.Outcome.next
        (State.handCredit_of_available_eq (State.available_of_views rfl rfl rfl rfl))

/-! ### A collect cycle (R12, R13) -/

theorem State.collectGateLatched {s : State} (r : ConditionRecord) (_ : s.record .collectGate = some r) :
    latched .collectGate r = true := by simp [latched]

theorem State.makeNormal_collectGate (s : State) : s.makeNormal .collectGate = s.setNormality .collectGate false :=
  State.makeNormal_of_latched State.collectGateLatched

theorem exec_collectGateHome {s : State} (h : s.supplies.main = true) :
    exec .collectGateHome s = .next (s.collectHome.handCredit s.available) :=
  congrArg _ (State.whilePowered_creditStep h)

theorem exec_collectCycleStart {s : State} (h : s.supplies.main = true) : exec .collectCycleStart s = .next s.startCollect :=
  congrArg _ (State.whilePowered_of_main h)

theorem CoinPath.overflowPending_iff {c : CoinPath} : c.overflowPending = true ↔ ∃ x ∈ c.transit, x.dest = .overflow := by
  simp [CoinPath.overflowPending]

theorem State.collectHome_of_pulse {s : State} {g ends : Nat} {home : Bool}
    (h : s.coin.cycle = .collectStarted g ends true home) :
    s.collectHome = (s.setNormality .collectGate false).completeCollect g := by
  rw [State.collectHome, State.makeNormal_collectGate]
  simp [h]

theorem State.collectHome_of_waiting {s : State} {g ends : Nat} {home : Bool}
    (h : s.coin.cycle = .collectStarted g ends false home) :
    s.collectHome = { s.setNormality .collectGate false with
      coin := { s.coin with cycle := .collectStarted g ends false true } } := by
  have hcoin : (s.setNormality .collectGate false).coin = s.coin := by simp
  rw [State.collectHome, State.makeNormal_collectGate]
  simp only [hcoin, h]
  rfl

theorem State.collectHome_of_other {s : State} (h : ∀ g ends pulse home, s.coin.cycle ≠ .collectStarted g ends pulse home) :
    s.collectHome = s.setNormality .collectGate false := by
  have hcoin : (s.setNormality .collectGate false).coin = s.coin := by simp
  rw [State.collectHome, State.makeNormal_collectGate]
  simp only [hcoin]
  split
  next g ends home hc => exact absurd hc (h _ _ _ _)
  next g ends home hc => exact absurd hc (h _ _ _ _)
  all_goals rfl

theorem State.completeCollect_of_credited {s : State} {c : HeldCoin} {rest : List HeldCoin} (h : s.coin.column = c :: rest)
    (hc : c.tag = .credited) (g : Nat) : s.completeCollect g =
      (((s.setCoin { s.coin with cycle := .idle, column := rest }).countCollected g c).addBanked c.value).settle := by
  rw [State.completeCollect, h]
  exact if_pos hc

theorem State.completeCollect_of_uncredited {s : State} {c : HeldCoin} {rest : List HeldCoin} (h : s.coin.column = c :: rest)
    (hc : c.tag ≠ .credited) (g : Nat) : s.completeCollect g =
      ((s.setCoin { s.coin with cycle := .idle, column := rest }).countCollected g c).settle := by
  rw [State.completeCollect, h]
  exact if_neg hc

theorem State.countCollected_of_current {s : State} {g : Nat} (h : g = s.comp.generation) (c : HeldCoin) :
    s.countCollected g c = (s.setCurrent (s.comp.current.addHeld c)).judgeThresholds := if_pos h

theorem State.countCollected_of_late {s : State} {g : Nat} {tally : ClosedTally} (h : g ≠ s.comp.generation)
    (htally : s.comp.closedTally = some tally) (c : HeldCoin) :
    s.countCollected g c = (s.setComp { s.comp with
      closedTally := some { tally with figures := tally.figures.addHeld c, changed := true, withheld := false } }).occurrence
        .collection .cashboxCollected .notice := by
  rw [State.countCollected, if_neg h, htally]

/-- R13, R28: a CREDITED coin that a cycle of the current generation collects, with room in B, enough for what is owed, and no
threshold crossed. -/
theorem State.completeCollect_of_quiet {s : State} {cls : Fin 16} {c : Nat} {rest : List HeldCoin}
    (hcolumn : s.coin.column = { cls := some cls, value := c, tag := .credited } :: rest)
    (hfigures : s.FiguresInRange) (hopen : s.credit.account ≠ .notOpen) (hroom : s.credit.banked + c ≤ 65535)
    (hpays : owedTotal s.credit.owed ≤ s.credit.banked + c)
    (hquiet : s.thresholdsQuiet (min 65535 (s.comp.current.totalCoins + 1))) :
    s.completeCollect s.comp.generation = { s with
      coin := { s.coin with cycle := .idle, column := rest }
      credit := { s.credit with banked := s.credit.banked + c - owedTotal s.credit.owed, owed := [] }
      comp := { s.comp with current := { s.comp.current with
        counts := s.comp.current.counts.set cls (min 65535 (s.comp.current.counts[cls] + 1))
        totalCoins := min 65535 (s.comp.current.totalCoins + 1)
        totalValue := min 4294967295 (s.comp.current.totalValue + c) } } } := by
  obtain ⟨⟨-, -, -, -, hforfeit, -⟩, -, hsession⟩ := hfigures
  let held : HeldCoin := { cls := some cls, value := c, tag := .credited }
  let left : State := s.setCoin { s.coin with cycle := .idle, column := rest }
  have hcounts : left.countCollected s.comp.generation held = left.setCurrent (s.comp.current.addCollected (some cls) c) :=
    (State.countCollected_of_current rfl held).trans (State.countCurrent_of_quiet (s := left) hquiet)
  rw [State.completeCollect_of_credited hcolumn rfl]
  have hbanked : (left.setCurrent (s.comp.current.addCollected (some cls) c)).addBanked c =
      { left.setCurrent (s.comp.current.addCollected (some cls) c) with
        credit := { s.credit with banked := s.credit.banked + c } } :=
    State.addBanked_of_room hforfeit hsession hopen hroom
  change ((left.countCollected s.comp.generation held).addBanked c).settle = _
  rw [hcounts, hbanked]
  exact State.settle_of_le hpays

/-- Settles O20. -/
theorem collectCycleStartsAndCompletes : Obligations.CollectCycleStartsAndCompletes := by
  intro s hmain hfigures
  refine ⟨fun hheld => ?starts, fun g ends hcycle => ?home, ?completes⟩
  case starts =>
    rw [exec_collectCycleStart hmain]
    refine ⟨fun hnone => congrArg Host.Outcome.next (if_pos ?_), fun hpending => congrArg Host.Outcome.next (if_neg ?_)⟩
    · simpa [State.collectStarts, hheld, CoinPath.overflowPending] using hnone
    · simp [State.collectStarts, CoinPath.overflowPending_iff.2 hpending]
  case home =>
    rw [exec_collectGateHome hmain, State.collectHome_of_waiting hcycle]
    refine congrArg Host.Outcome.next (State.handCredit_of_available_eq ?_)
    exact State.available_of_views rfl (by simp) (by simp) (recordActive_setNormality ..)
  case completes =>
    intro ends c cls rest hcolumn hopen hroom hpays hquiet collected
    refine ⟨fun hcycle => ?_, fun hcycle => ?_⟩
    · rw [exec_cashboxEntryPulse hmain, State.cashboxPulse_of_home hcycle,
        State.completeCollect_of_quiet hcolumn hfigures hopen hroom hpays hquiet]
    · have hcomp : (s.setNormality .collectGate false).comp = s.comp := by simp
      have hcredit : (s.setNormality .collectGate false).credit = s.credit := by simp
      have hcoin : (s.setNormality .collectGate false).coin = s.coin := by simp
      have hquiet' : (s.setNormality .collectGate false).thresholdsQuiet (min 65535 (s.comp.current.totalCoins + 1)) := by
        obtain ⟨hnear, hfull⟩ := hquiet
        have hsettings : (s.setNormality .collectGate false).settings = s.settings := by simp
        rw [State.thresholdsQuiet, (same_setNormality (by simp)).2, (same_setNormality (by simp)).2, hsettings]
        exact ⟨hnear, hfull⟩
      have hcompletes := State.completeCollect_of_quiet (s := s.setNormality .collectGate false) (by rw [hcoin]; exact hcolumn)
        (by unfold State.FiguresInRange; rw [hcomp, hcredit]; exact hfigures) (by rw [hcredit]; exact hopen)
        (by rw [hcredit]; exact hroom) (by rw [hcredit]; exact hpays) (by rw [hcomp]; exact hquiet')
      rw [hcomp, hcredit, hcoin] at hcompletes
      rw [exec_collectGateHome hmain, State.collectHome_of_pulse hcycle, hcompletes]

/-! ### The coin of a completed cycle, late or not (R13, R49), and the end of the window (R14) -/

theorem Tally.addHeld_eq (c : HeldCoin) (f : Tally) : f.addHeld c =
    if c.tag = .credited then f.addCollected c.cls c.value else f.addUncredited := by
  unfold Tally.addHeld
  cases c.tag <;> rfl

/-- R13, R28: a completed cycle, its coin counted as given. -/
theorem State.completeCollect_of_counted {s t : State} {c : HeldCoin} {rest : List HeldCoin} {g : Nat}
    (h : s.coin.column = c :: rest)
    (ht : (s.setCoin { s.coin with cycle := .idle, column := rest }).countCollected g c = t) :
    s.completeCollect g = (if c.tag ≠ .credited then t else t.addBanked c.value).settle := by
  by_cases hc : c.tag = .credited
  · rw [State.completeCollect_of_credited h hc, ht, if_neg (fun h => h hc)]
  · rw [State.completeCollect_of_uncredited h hc, ht, if_pos hc]

theorem exec_collectWindowTimeout {s : State} (h : s.supplies.main = true) :
    exec .collectWindowTimeout s = .next (s.timeOutCollect.handCredit s.available) :=
  congrArg _ (State.whilePowered_creditStep h)

/-- R14, R30: a collect window's end, but for a release withheld behind the cycle. -/
def State.collectJammed (s : State) : State := (s.occurrence .collectGate .gateJam .fault).writeOff

theorem State.collectJammed_coin (s : State) : s.collectJammed.coin = s.coin := by simp [State.collectJammed]

theorem State.timeOutCollect_of_ended {s : State} {g ends : Nat} {pulse home : Bool}
    (h : s.coin.cycle = .collectStarted g ends pulse home) (hended : ends ≤ s.now) :
    s.timeOutCollect =
      ({ s.collectJammed with coin := { s.coin with cycle := .idle } } : State).resolveWithheld g := by
  rw [State.timeOutCollect, h]
  simp only [State.reach_of_le hended]
  exact congrArg (fun c : CoinPath => ({ s.collectJammed with coin := { c with cycle := .idle } } : State).resolveWithheld g)
    s.collectJammed_coin

/-- R14, R19: the jam's record is active, and inhibits the gate. -/
theorem State.gateInhibited_collectJammed (s : State) : s.collectJammed.gateInhibited .collect = true := by
  have hrecord : s.collectJammed.record .collectGate = some (s.occurred .collectGate .gateJam .fault) :=
    (same_sup (by simp [State.collectJammed])).1.trans (State.record_occurrence_of_kept (.inl (by simp [latched])))
  rw [State.gateInhibited, State.recordActive, hrecord]
  simp [ConditionRecord.active, State.occurred_state]

/-- Settles O21. -/
theorem lateCoinsAndCollectTimeouts : Obligations.LateCoinsAndCollectTimeouts := by
  refine ⟨fun s g ends c rest hmain hcolumn => ?completes, fun s g ends pulse home hmain hcycle hended => ?timeout,
    fun s g => ?withheld⟩
  case completes =>
    intro counted received left completes
    have hcounted (f : Tally) : counted f = f.addHeld c := (Tally.addHeld_eq c f).symm
    have hreceived (t : State) : received t = if c.tag ≠ .credited then t else t.addBanked c.value := by
      rw [State.addBanked_eq]
    have hcompletes {tallied : State → State}
        (h : ∀ t : State, t.comp = s.comp → t.countCollected g c = tallied t) : completes tallied := by
      refine ⟨fun hcycle => ?_, fun home hcycle => ?_⟩
      · rw [exec_cashboxEntryPulse hmain, State.cashboxPulse_of_home hcycle, hreceived]
        exact congrArg (fun t => Host.Outcome.next (State.handCredit s.available t))
          (State.completeCollect_of_counted hcolumn (h (left s) (by rfl)))
      · have hcoin : (s.setNormality .collectGate false).coin.column = c :: rest := by simpa using hcolumn
        rw [exec_collectGateHome hmain, State.collectHome_of_pulse hcycle, hreceived]
        exact congrArg (fun t => Host.Outcome.next (State.handCredit s.available t))
          (State.completeCollect_of_counted hcoin (h (left (s.setNormality .collectGate false)) (by simp [left])))
    clear_value completes
    refine ⟨fun hcurrent => hcompletes fun t hcomp => ?_, fun tally hlate htally => hcompletes fun t hcomp => ?_⟩
    · rw [State.countCollected_of_current (by rw [hcomp]; exact hcurrent), hcounted]
      rfl
    · rw [State.countCollected_of_late (by rw [hcomp]; exact hlate) (by rw [hcomp]; exact htally), hcounted]
      rfl
  case timeout =>
    intro jammed
    refine ⟨?_, s.gateInhibited_collectJammed, rfl, fun hfigures => ?_, ?_⟩
    · rw [exec_collectWindowTimeout hmain, State.timeOutCollect_of_ended hcycle hended]
      rfl
    · have hcomp : (s.occurrence .collectGate .gateJam .fault).comp = s.comp := by simp
      have hcredit : (s.occurrence .collectGate .gateJam .fault).credit = s.credit := by simp
      have hwritten := State.writeOff_eq (s := s.occurrence .collectGate .gateJam .fault) (by
        rw [hcomp]; exact hfigures.unrecovered_le)
      rw [hcomp, hcredit] at hwritten
      exact congrArg (fun t : State => t.comp.current.unrecovered) hwritten
    · simp [jammed, State.writeOff]
  case withheld =>
    unfold State.resolveWithheld
    refine ⟨fun hnone => by rw [hnone], fun tally htally => ?_⟩
    rw [htally]
    refine ⟨fun hstays => if_neg ?_, fun hlate hwithheld => ⟨fun hclear => ?_, fun hchanged => ?_⟩⟩
    · rintro ⟨hlate, hwithheld⟩
      obtain hcurrent | hnot := hstays
      · exact hlate hcurrent
      · simp [hnot] at hwithheld
    · exact (if_pos ⟨hlate, hwithheld⟩).trans (if_neg (by simp [hclear]))
    · exact (if_pos ⟨hlate, hwithheld⟩).trans (if_pos hchanged)

end Sys2Proof.Machine
end

/-! ## The refund cycle, the return cup and the coin slot (sections 1.5 and 1.6) -/

section
namespace Sys2Proof.Machine

/-! ### The refund cycle (R10, R15 to R17) -/

theorem exec_refundCycleStart {s : State} (h : s.supplies.main = true) :
    exec .refundCycleStart s = .next (s.startRefund.handCredit s.available) := congrArg _ (State.whilePowered_creditStep h)

theorem exec_refundGateHome {s : State} (h : s.supplies.main = true) :
    exec .refundGateHome s = .next (s.refundHome.handCredit s.available) := congrArg _ (State.whilePowered_creditStep h)

theorem exec_refundWindowTimeout {s : State} (h : s.supplies.main = true) :
    exec .refundWindowTimeout s = .next (s.timeOutRefund.handCredit s.available) :=
  congrArg _ (State.whilePowered_creditStep h)

theorem State.requestRefund_eq (startUp ofSession : Bool) (s : State) : s.requestRefund startUp ofSession =
    { s with coin := match s.coin.waiting with
      | some w => { s.coin with
          waiting := some ⟨w.startUp || startUp, w.ofSession || ofSession⟩
          sessionRefunded := s.coin.sessionRefunded && !ofSession }
      | none => { s.coin with
          waiting := some ⟨startUp, ofSession⟩, sessionRefunded := s.coin.sessionRefunded && !ofSession
          transit := s.coin.transit.map (fun e => { e with noted := true }) } } := by
  cases h : s.coin.waiting with
  | none => exact State.requestRefund_of_none h startUp ofSession
  | some w => exact State.requestRefund_of_some h startUp ofSession

theorem State.refundStarts_of_free {s : State} (hidle : s.coin.cycle = .idle) (hnoted : ∀ e ∈ s.coin.transit, e.noted = false) :
    s.refundStarts = s.coin.waiting := if_pos ⟨hidle, List.any_eq_false.2 (by simpa using hnoted)⟩

theorem State.refundStarts_of_busy {s : State}
    (h : s.coin.cycle ≠ .idle ∨ ∃ e ∈ s.coin.transit, e.noted = true) : s.refundStarts = none := by
  refine if_neg fun ⟨hidle, hnoted⟩ => ?_
  obtain hcycle | ⟨e, he, hen⟩ := h
  · exact hcycle hidle
  · simp [List.any_eq_true.2 ⟨e, he, hen⟩] at hnoted

theorem State.startRefund_of_none {s : State} (h : s.refundStarts = none) : s.startRefund = s := by
  rw [State.startRefund, h]

theorem State.startRefund_of_some {s : State} {w : WaitingRefund} (h : s.refundStarts = some w) : s.startRefund =
    if s.gateInhibited .refund then
      { s with coin := { s.coin with
          waiting := none, sessionRefunded := s.coin.sessionRefunded && !w.ofSession
          column := s.coin.column.map (fun c => { c with tag := .orphan }) } }
    else
      { s with coin := { s.coin with
          waiting := none
          cycle := .refund (s.now + 1200) w.startUp w.ofSession
          watches := s.coin.watches ++ if s.coin.column = [] then [] else [⟨s.now + 1500, true⟩] } } := by
  rw [State.startRefund, h]
  by_cases hcolumn : s.coin.column = []
  · simp only [if_pos hcolumn, List.append_nil]
    rfl
  · simp only [if_neg hcolumn]
    rfl

theorem State.refundGateLatched {s : State} (r : ConditionRecord) (_ : s.record .refundGate = some r) :
    latched .refundGate r = true := by simp [latched]

theorem State.makeNormal_refundGate (s : State) : s.makeNormal .refundGate = s.setNormality .refundGate false :=
  State.makeNormal_of_latched State.refundGateLatched

theorem State.refundHome_of_other {s : State} (h : s.coin.refundInFlight = false) :
    s.refundHome = s.setNormality .refundGate false := by
  have hcoin : (s.setNormality .refundGate false).coin = s.coin := by simp
  rw [State.refundHome, State.makeNormal_refundGate]
  simp only [hcoin]
  unfold CoinPath.refundInFlight at h
  split
  next hc => simp [hc] at h
  all_goals rfl

/-- R16: the gate's return home completes the refund cycle in flight. -/
theorem State.refundHome_of_refund {s : State} {ends : Nat} {startUp ofSession : Bool}
    (h : s.coin.cycle = .refund ends startUp ofSession) : s.refundHome =
      { s.setNormality .refundGate false with
        coin := { s.coin with
          column := []
          refundedCount := (s.coin.refundedCount + returned s.coin.column) % 65536
          cycle := .idle
          sessionRefunded := s.coin.sessionRefunded || ofSession
          watches := s.coin.watches.map (fun w => { w with ofCycle := false }) }
        comp := if startUp then { s.comp with current := { s.comp.current with
            refundedAtRestart := min 65535 (s.comp.current.refundedAtRestart + returned s.coin.column) } }
          else s.comp } := by
  have hcoin : (s.setNormality .refundGate false).coin = s.coin := by simp
  have hcomp : (s.setNormality .refundGate false).comp = s.comp := by simp
  rw [State.refundHome, State.makeNormal_refundGate]
  simp only [hcoin, h, ← hcomp]
  cases startUp <;> rfl

/-- R17: the end of a refund cycle's window. -/
theorem State.timeOutRefund_of_ended {s : State} {ends : Nat} {startUp ofSession : Bool}
    (h : s.coin.cycle = .refund ends startUp ofSession) (hended : ends ≤ s.now) : s.timeOutRefund =
      { s.occurrence .refundGate .gateJam .fault with coin := { s.coin with
          column := s.coin.column.map (fun c => { c with tag := .orphan })
          cycle := .idle
          sessionRefunded := s.coin.sessionRefunded && !ofSession
          watches := s.coin.watches.filter (fun w => !w.ofCycle) } } := by
  have hcoin : (s.occurrence .refundGate .gateJam .fault).coin = s.coin := by simp
  rw [State.timeOutRefund, h, ← hcoin]
  simp only [State.reach_of_le hended]
  rfl

/-- Settles O22. -/
theorem refundCyclesStartAndEnd : Obligations.RefundCyclesStartAndEnd := by
  refine ⟨State.requestRefund_eq, fun s w hmain hwaiting => ⟨fun hidle hnoted => ?starts, fun hbusy => ?waits⟩,
    fun s hmain => ⟨fun ends startUp ofSession hcycle => ⟨?home, fun hended => ?timeout⟩, fun hfree => ?refundNormal,
      fun hother => ?collectNormal, fun gate => ?leaves⟩⟩
  case starts =>
    rw [exec_refundCycleStart hmain, State.startRefund_of_some ((State.refundStarts_of_free hidle hnoted).trans hwaiting)]
    refine ⟨fun hinhibited => ?_, fun hopen => ?_⟩
    · rw [if_pos hinhibited]
    · rw [hopen, if_neg Bool.false_ne_true]
      exact congrArg Host.Outcome.next (State.handCredit_of_available_eq (State.available_of_views rfl rfl rfl rfl))
  case waits =>
    rw [exec_refundCycleStart hmain, State.startRefund_of_none (State.refundStarts_of_busy hbusy),
      State.handCredit_of_available_eq rfl]
  case home =>
    rw [exec_refundGateHome hmain, State.refundHome_of_refund hcycle]
    rfl
  case timeout => rw [exec_refundWindowTimeout hmain, State.timeOutRefund_of_ended hcycle hended]
  case refundNormal =>
    rw [exec_refundGateHome hmain, State.refundHome_of_other hfree, State.handCredit_of_available_eq (by simp)]
  case collectNormal =>
    rw [exec_collectGateHome hmain, State.collectHome_of_other hother, State.handCredit_of_available_eq (by simp)]
  case leaves =>
    refine (congrArg Host.Outcome.next (State.whilePowered_of_main hmain)).trans ?_
    cases gate <;> rfl

/-! ### The return cup and the coin slot (R18, R20) -/

/-- Settles O23. -/
theorem cupAndSlotAreWatched : Obligations.CupAndSlotAreWatched := by
  intro s hmain
  have hexec {work : State → State} : s.whilePowered work = work s := State.whilePowered_of_main hmain
  refine ⟨congrArg Host.Outcome.next hexec, fun w rest hwatches hended => ?watch, fun hnormal => ?obstructed,
    fun habnormal => ?again, fun halarm => ?clear⟩
  case watch =>
    refine congrArg Host.Outcome.next (hexec.trans ?_)
    rw [State.endWatch, hwatches]
    simp only [State.reach_of_le hended]
    rfl
  case obstructed => exact congrArg Host.Outcome.next (hexec.trans (if_pos hnormal))
  case again => exact congrArg Host.Outcome.next (hexec.trans (if_neg (by simp [habnormal])))
  case clear =>
    refine congrArg Host.Outcome.next (hexec.trans (State.makeNormal_of_latched fun r hr => ?_))
    exact latched_eq_true_iff.2 (.inl (halarm r hr))

/-! ### The cash compartment (R41 to R50) -/

theorem exec_doorReading {s : State} (h : s.supplies.main = true) (reading : DoorReading) :
    exec (.doorReading reading) s = .next (s.readDoor reading) := congrArg _ (State.whilePowered_of_main h)

theorem exec_cashboxRemoval {s : State} (h : s.supplies.main = true) :
    exec .cashboxRemoval s = .next (s.removeCashbox.handCredit s.available) := congrArg _ (State.whilePowered_creditStep h)

theorem State.serviceEnabled_iff {s : State} : s.serviceEnabled = true ↔ s.comp.door = .opened ∧ s.comp.key ≠ .locked := by
  simp [State.serviceEnabled]

theorem State.readDoor_of_opened {s : State} (h : s.comp.door = .closed) : s.readDoor .opened =
    let opened : State := State.setNormality .compartment true { s with comp := { s.comp with door := .opened } }
    if s.comp.key = .locked then State.occurrence .compartment .compartmentForced .alarm opened else opened := by
  let opened : State := State.setNormality .compartment true { s with comp := { s.comp with door := .opened } }
  have hcomp : opened.comp = { s.comp with door := .opened } := by simp only [opened, State.setNormality_frame]
  have hkey : opened.comp.key = s.comp.key := by rw [hcomp]
  have hread : s.readDoor .opened =
      if opened.comp.key = .locked then State.occurrence .compartment .compartmentForced .alarm opened else opened :=
    if_neg (by simp [h])
  rw [hread, hkey]

theorem State.readDoor_of_closed {s : State} (h : s.comp.door = .opened) : s.readDoor .closed =
    State.makeNormal .compartment { s with comp := { s.comp with door := .closed } } := by
  rw [State.readDoor, if_neg (by simp [h])]
  rfl

theorem State.dropHeldCollect_of_held {s : State} (h : s.coin.cycle = .collectHeld) :
    s.dropHeldCollect = State.writeOff { s with coin := { s.coin with cycle := .idle } } := if_pos h

theorem State.dropHeldCollect_of_other {s : State} (h : s.coin.cycle ≠ .collectHeld) : s.dropHeldCollect = s := if_neg h

/-- R47: what follows the closure of a tally: its occurrences, TALLY_CLOSED and the thresholds. -/
def State.afterClosure (forced : Bool) (closed : State) : State :=
  let collected := closed.becomeAbnormal .collection .cashboxCollected .notice
  let entered := if forced then collected.occurrence .compartment .compartmentForced .alarm else collected
  (entered.raise .tallyClosed).judgeThresholds

/-- Settles O29. -/
theorem compartmentReadingsAndRemoval : Obligations.CompartmentReadingsAndRemoval := by
  refine ⟨⟨fun s => State.serviceEnabled_iff, fun s hmain => ?readings⟩, fun a b cls => ?merged, ⟨rfl, rfl, rfl, rfl⟩,
    fun s hmain hpresent => ?removal⟩
  case readings =>
    have hexec {work : State → State} : s.whilePowered work = work s := State.whilePowered_of_main hmain
    refine ⟨fun reading => congrArg Host.Outcome.next hexec, congrArg Host.Outcome.next hexec, ?_, fun hclosed => ?_,
      fun hopened halarm => ?_⟩
    · exact congrArg Host.Outcome.next (hexec.trans (if_pos rfl))
    · intro opened
      rw [exec_doorReading hmain, State.readDoor_of_opened hclosed]
      exact ⟨fun hlocked => congrArg Host.Outcome.next (if_pos hlocked), fun hunlocked => congrArg Host.Outcome.next (if_neg hunlocked)⟩
    · rw [exec_doorReading hmain, State.readDoor_of_closed hopened]
      exact congrArg Host.Outcome.next
        (State.makeNormal_of_latched fun r hr => latched_eq_true_iff.2 (.inl (halarm r hr)))
  case merged =>
    refine ⟨?_, rfl, rfl, rfl, rfl, rfl, rfl⟩
    simp [Tally.merge, satAdd]
  case removal =>
    intro forced closed t₀ t₁ t₂ t
    have hclosed : (s.setComp { s.comp with presence := .absent }).closeTally = t := by
      have hstart : (s.setComp { s.comp with presence := .absent }).setComp
          (Compartment.close forced { s.comp with presence := .absent }) = t₀ := rfl
      exact congrArg (State.afterClosure forced) hstart
    have hcycle : t.coin.cycle = s.coin.cycle := by
      rw [← hclosed]
      simp
    have hremoved : s.removeCashbox = t.dropHeldCollect := by
      rw [← hclosed]
      exact if_pos hpresent
    rw [exec_cashboxRemoval hmain, hremoved]
    refine ⟨fun hother => ?_, fun hheld => ?_⟩
    · rw [State.dropHeldCollect_of_other (by rw [hcycle]; exact hother)]
    · rw [State.dropHeldCollect_of_held (by rw [hcycle]; exact hheld)]

end Sys2Proof.Machine
end

/-! ## The tariff table's requests (sections 4.1 to 4.4, 4.6) -/

section
namespace Sys2Proof.Machine

/-! ### Windows (section 4.1) -/

/-- Section 4.1: a clock time lies in a content's window. -/
def TariffContent.Holds (now : MinuteTime) (c : TariffContent) : Prop :=
  (∀ e, c.effectiveFrom = some e → e.key ≤ now.key) ∧ ∀ r, c.retireAt = some r → now.key < r.key

theorem endsBefore_eq_false_iff {retireAt effectiveFrom : Option MinuteTime} : endsBefore retireAt effectiveFrom = false ↔
    ∀ r e, retireAt = some r → effectiveFrom = some e → e.key < r.key := by
  cases retireAt <;> cases effectiveFrom <;> simp [endsBefore]

theorem windowsIntersect_iff {a b : TariffContent} : windowsIntersect a b = true ↔
    (∀ r e, a.retireAt = some r → b.effectiveFrom = some e → e.key < r.key) ∧
      ∀ r e, b.retireAt = some r → a.effectiveFrom = some e → e.key < r.key := by
  simp only [windowsIntersect, Bool.and_eq_true, Bool.not_eq_true', endsBefore_eq_false_iff]

/-- Section 4.1: of two windows the later beginning lies in both, where each holds some clock time and neither ends before the
other begins. -/
theorem exists_holds_both {a b : TariffContent} (ha : ∃ now, a.Holds now) (hb : ∃ now, b.Holds now)
    (h : windowsIntersect a b = true) : ∃ now, a.Holds now ∧ b.Holds now := by
  obtain ⟨x, hxa, hxr⟩ := ha
  obtain ⟨y, hyb, hyr⟩ := hb
  obtain ⟨hab, hba⟩ := windowsIntersect_iff.1 h
  cases hea : a.effectiveFrom with
  | none =>
    cases heb : b.effectiveFrom with
    | none =>
      obtain hle | hle := Nat.le_total x.key y.key
      · exact ⟨x, ⟨by simp [hea], hxr⟩, by simp [heb], fun r hr => Nat.lt_of_le_of_lt hle (hyr r hr)⟩
      · exact ⟨y, ⟨by simp [hea], fun r hr => Nat.lt_of_le_of_lt hle (hxr r hr)⟩, by simp [heb], hyr⟩
    | some e =>
      exact ⟨e, ⟨by simp [hea], fun r hr => hab r e hr heb⟩, by simp [heb],
        fun r hr => Nat.lt_of_le_of_lt (hyb e heb) (hyr r hr)⟩
  | some d =>
    cases heb : b.effectiveFrom with
    | none =>
      exact ⟨d, ⟨by simp [hea], fun r hr => Nat.lt_of_le_of_lt (hxa d hea) (hxr r hr)⟩, by simp [heb],
        fun r hr => hba r d hr hea⟩
    | some e =>
      obtain hle | hle := Nat.le_total d.key e.key
      · exact ⟨e, ⟨by simp [hea, hle], fun r hr => hab r e hr heb⟩, by simp [heb],
          fun r hr => Nat.lt_of_le_of_lt (hyb e heb) (hyr r hr)⟩
      · exact ⟨d, ⟨by simp [hea], fun r hr => Nat.lt_of_le_of_lt (hxa d hea) (hxr r hr)⟩, by simp [heb, hle],
          fun r hr => hba r d hr hea⟩

theorem windowsIntersect_of_holds {a b : TariffContent} {now : MinuteTime} (ha : a.Holds now) (hb : b.Holds now) :
    windowsIntersect a b = true := by
  obtain ⟨hae, har⟩ := ha
  obtain ⟨hbe, hbr⟩ := hb
  exact windowsIntersect_iff.2 ⟨fun r e hr he => Nat.lt_of_le_of_lt (hbe e he) (har r hr),
    fun r e hr he => Nat.lt_of_le_of_lt (hae e he) (hbr r hr)⟩

/-! ### The lowest EMPTY slot, and a record's place (R60) -/

theorem lowestEmpty_eq_none_iff {records : List TariffRecord} :
    lowestEmpty records = none ↔ ∀ n, 1 ≤ n → n ≤ 239 → ∃ r ∈ records, r.slot = n := by
  simp only [lowestEmpty, List.find?_eq_none, List.mem_range'_1, Bool.not_eq_true', Bool.not_eq_false, List.any_eq_true,
    decide_eq_true_eq]
  exact ⟨fun h n hlow hhigh => h n ⟨hlow, by omega⟩, fun h n hn => h n hn.1 (by omega)⟩

theorem lowestEmpty_eq_some {records : List TariffRecord} {slot : Nat} (hlow : 1 ≤ slot) (hhigh : slot ≤ 239)
    (htaken : ∀ n, 1 ≤ n → n < slot → ∃ r ∈ records, r.slot = n) (hfree : ∀ r ∈ records, r.slot ≠ slot) :
    lowestEmpty records = some slot := by
  have hfind {a n : Nat} (hn : slot - a < n) (ha : a ≤ slot) (ha1 : 1 ≤ a) :
      (List.range' a n).find? (fun n => !records.any (fun r => r.slot = n)) = some slot := by
    induction n generalizing a with
    | zero => omega
    | succ n ih =>
      rw [List.range'_succ, List.find?_cons]
      obtain rfl | hlt := Nat.eq_or_lt_of_le ha
      · have hnone : records.any (fun r => r.slot = a) = false := by simpa using hfree
        simp [hnone]
      · have hsome : records.any (fun r => r.slot = a) = true := by simpa using htaken a ha1 hlt
        simp only [hsome, Bool.not_true]
        exact ih (by omega) hlt (by omega)
  exact hfind (by omega) hlow (Nat.le_refl 1)

theorem insertRecord_append {r : TariffRecord} {lower higher : List TariffRecord} (hlower : ∀ q ∈ lower, q.slot < r.slot)
    (hhigher : ∀ q ∈ higher, r.slot < q.slot) : insertRecord r (lower ++ higher) = lower ++ r :: higher := by
  induction lower with
  | nil =>
    cases higher with
    | nil => rfl
    | cons q rest => exact if_pos (hhigher q List.mem_cons_self)
  | cons q rest ih =>
    obtain ⟨hq, hrest⟩ := List.forall_mem_cons.1 hlower
    rw [List.cons_append, insertRecord, if_neg (by omega), ih hrest]
    rfl

/-! ### TARIFF_PUT (R56, R57, R60, R61) -/

/-- R56: the content that TARIFF_PUT allows. -/
def TariffOffer.Allowed (now : MinuteTime) (o : TariffOffer) : Prop :=
  (o.toDefault = true → o.content.pre = [] ∧ o.content.effectiveFrom = none ∧ o.content.retireAt = none) ∧
  (o.toDefault = false → o.content.pre ≠ []) ∧ o.content.pre.length ≤ 12 ∧
  1 ≤ o.content.minLength ∧ o.content.minLength ≤ 20 ∧ 1 ≤ o.content.maxLength ∧ o.content.maxLength ≤ 20 ∧
  o.content.pre.length ≤ o.content.minLength ∧ o.content.minLength ≤ o.content.maxLength ∧
  (∀ band : Fin 4, o.content.rates[band] ≤ 999999) ∧ o.content.connection ≤ 9999 ∧
  1 ≤ o.content.period ∧ o.content.period ≤ 600 ∧ o.content.minCredit ≤ 9999 ∧
  (∀ e, o.content.effectiveFrom = some e → e.valid = true) ∧
  (∀ r, o.content.retireAt = some r → r.valid = true ∧ now.key < r.key) ∧
  (∀ e r, o.content.effectiveFrom = some e → o.content.retireAt = some r → e.key < r.key)

theorem TariffOffer.acceptable_iff {now : MinuteTime} {o : TariffOffer} : o.acceptable now = true ↔ o.Allowed now := by
  have htarget : (if o.toDefault then
        decide (o.content.pre = []) && decide (o.content.effectiveFrom = none) && decide (o.content.retireAt = none)
      else decide (o.content.pre ≠ [])) = true ↔
      (o.toDefault = true → o.content.pre = [] ∧ o.content.effectiveFrom = none ∧ o.content.retireAt = none) ∧
        (o.toDefault = false → o.content.pre ≠ []) := by
    cases o.toDefault <;> simp [and_assoc]
  have hrates : (∀ band : Fin 4, o.content.rates[band] ≤ 999999) ↔ o.content.rates[0] ≤ 999999 ∧
      o.content.rates[1] ≤ 999999 ∧ o.content.rates[2] ≤ 999999 ∧ o.content.rates[3] ≤ 999999 :=
    ⟨fun h => ⟨h 0, h 1, h 2, h 3⟩, fun ⟨h0, h1, h2, h3⟩ band => by
      match band with
      | 0 => exact h0
      | 1 => exact h1
      | 2 => exact h2
      | 3 => exact h3⟩
  unfold TariffOffer.acceptable TariffOffer.Allowed
  simp only [Bool.and_eq_true, htarget, hrates, decide_eq_true_eq, and_assoc]
  cases o.content.effectiveFrom <;> cases o.content.retireAt <;> simp [and_assoc]

theorem exec_tariffPut {p : Port} {body : List Byte} {s : State} (h : s.admits p) (hlength : body.length = 42) (tag : Byte) :
    exec (.tariffPut p tag body) s = .next ((s.putTariff body).1.answer p ((s.putTariff body).2.response 1 tag)) := by
  have hfits : lengthFits (ofLength 42) body = true := by simp [lengthFits, ofLength, hlength]
  exact congrArg _ ((State.whilePowered_of_main h.1).trans (State.serve_of_admits h hfits 1 tag (State.putTariff body)))

theorem State.putTariff_of_not_allowed {body : List Byte} {s : State}
    (h : ∀ o, tariffOffer body = some o → ¬ o.Allowed s.clock.time.toMinute) : s.putTariff body = (s, .refused .invalid) := by
  unfold State.putTariff
  cases ho : tariffOffer body with
  | none => rfl
  | some o => exact if_neg fun hc => h o ho (TariffOffer.acceptable_iff.1 hc)

theorem State.putTariff_of_allowed {body : List Byte} {s : State} {o : TariffOffer} (h : tariffOffer body = some o)
    (hallowed : o.Allowed s.clock.time.toMinute) : s.putTariff body =
      let put := if o.toDefault then s.tariff.putDefault o.content
        else if o.replace then s.tariff.putReplace s.clock.time.toMinute o.content
        else s.tariff.putNew s.clock.time.toMinute o.content
      (s.setTariff put.1, put.2) := by
  unfold State.putTariff
  rw [h]
  exact if_pos (TariffOffer.acceptable_iff.2 hallowed)

theorem installState_eq (now : MinuteTime) (records : List TariffRecord) (c : TariffContent)
    [Decidable ((∃ e, c.effectiveFrom = some e ∧ now.key < e.key) ∨ ∃ r ∈ records, r.state = .live ∧ r.content.pre = c.pre)] :
    installState now records c =
      if (∃ e, c.effectiveFrom = some e ∧ now.key < e.key) ∨ (∃ r ∈ records, r.state = .live ∧ r.content.pre = c.pre) then
        .pending
      else .live := by
  unfold installState
  simp only [← notYet_iff, ← liveWith_iff]
  cases notYet now c.effectiveFrom <;> cases liveWith c.pre records <;> simp

/-- R60: a record's place by slot among the records that stand, all slots below its own taken. -/
def TariffRecord.Places (r : TariffRecord) (records after : List TariffRecord) : Prop :=
  1 ≤ r.slot ∧ r.slot ≤ 239 ∧ (∀ n, 1 ≤ n → n < r.slot → ∃ q ∈ records, q.slot = n) ∧
    ∃ lower higher, records = lower ++ higher ∧ (∀ q ∈ lower, q.slot < r.slot) ∧ (∀ q ∈ higher, r.slot < q.slot) ∧
      after = lower ++ r :: higher

theorem TariffRecord.Places.lowestEmpty_eq {r : TariffRecord} {records after : List TariffRecord} (h : r.Places records after) :
    lowestEmpty records = some r.slot := by
  obtain ⟨hlow, hhigh, htaken, lower, higher, rfl, hlower, hhigher, -⟩ := h
  refine lowestEmpty_eq_some hlow hhigh htaken fun q hq => ?_
  obtain hq | hq := List.mem_append.1 hq
  · exact Nat.ne_of_lt (hlower q hq)
  · exact Nat.ne_of_gt (hhigher q hq)

theorem TariffRecord.Places.insertRecord_eq {r : TariffRecord} {records after : List TariffRecord} (h : r.Places records after) :
    insertRecord r records = after := by
  obtain ⟨-, -, -, lower, higher, rfl, hlower, hhigher, rfl⟩ := h
  exact insertRecord_append hlower hhigher

section
variable {now : MinuteTime} {c : TariffContent} {t : TariffTable}

theorem TariffTable.putDefault_of_free (h : t.basePinned = false) :
    t.putDefault c = ({ t with base := c }, .done (putBody 0 2 0 0)) := if_neg (by simp [h])

theorem TariffTable.putDefault_of_pinned (h : t.basePinned = true) :
    t.putDefault c = ({ t with staging := some c }, .doneDeferred (putBody 0 2 0 0)) := if_pos h

theorem TariffTable.putNew_of_clash (h : ∃ r ∈ t.records, r.clashes c = true) :
    t.putNew now c = (t, .refused .overlap) := if_pos (List.any_eq_true.2 h)

theorem TariffTable.putNew_of_full (h : ∀ r ∈ t.records, r.clashes c = false) (hfull : lowestEmpty t.records = none) :
    t.putNew now c = (t, .refused .full) := by
  rw [TariffTable.putNew, if_neg (by simpa using h), hfull]

theorem TariffTable.putNew_of_places (h : ∀ r ∈ t.records, r.clashes c = false) {slot : Nat} {after : List TariffRecord}
    (hplaces : TariffRecord.Places ⟨slot, c, installState now t.records c, false⟩ t.records after) :
    t.putNew now c = ({ t with records := after }, .done (putBody slot (installState now t.records c).code 0 0)) := by
  rw [TariffTable.putNew, if_neg (by simpa using h), hplaces.lowestEmpty_eq]
  exact congrArg (fun records => (({ t with records := records } : TariffTable), _)) hplaces.insertRecord_eq

/-- R61: the records left once those of a content's leading string that clash with it are withdrawn. -/
def TariffTable.keptBy (c : TariffContent) (t : TariffTable) : List TariffRecord :=
  t.records.filterMap (fun r => if r.clashes c then r.withdrawn else some r)

theorem TariffTable.putReplace_of_full (hfull : lowestEmpty (t.keptBy c) = none) :
    t.putReplace now c = (t, .refused .full) := by
  unfold TariffTable.keptBy at hfull
  simp only [TariffTable.putReplace, hfull]

theorem filterMap_withdrawn (records : List TariffRecord) : records.filterMap TariffRecord.withdrawn =
    (records.filter (fun r => r.state = .live && r.pinned)).map (fun r => { r with state := .retiring }) := by
  induction records with
  | nil => rfl
  | cons r rest ih =>
    rw [List.filterMap_cons, List.filter_cons, ih, TariffRecord.withdrawn]
    cases (decide (r.state = .live) && r.pinned) <;> rfl

theorem TariffTable.putReplace_of_places {slot : Nat} {after : List TariffRecord}
    (hplaces : TariffRecord.Places ⟨slot, c, installState now (t.keptBy c) c, false⟩ (t.keptBy c) after) :
    t.putReplace now c =
      let withdrawn := t.records.filter (TariffRecord.clashes c)
      let left := withdrawn.filter (fun r => r.state = .live && r.pinned)
      ({ t with records := after }, (if left = [] then Reply.done else Reply.doneDeferred)
        (putBody slot (installState now (t.keptBy c) c).code withdrawn.length left.length)) := by
  have hslot := hplaces.lowestEmpty_eq
  have hinsert := hplaces.insertRecord_eq
  unfold TariffTable.keptBy at hslot hinsert ⊢
  simp only [TariffTable.putReplace, hslot, hinsert, filterMap_withdrawn, List.length_map, List.map_eq_nil_iff]
  split <;> rfl

end

/-! ### TARIFF_WITHDRAW (R58, R63) -/

theorem exec_tariffWithdraw {p : Port} {s : State} (h : s.admits p) (tag slot : Byte) :
    exec (.tariffWithdraw p tag [slot]) s = .next ((s.withdrawTariff slot.toNat).1.answer p
      ((s.withdrawTariff slot.toNat).2.response 3 tag)) :=
  congrArg _ ((State.whilePowered_of_main h.1).trans
    (State.serve_of_admits (fits := ofLength 1) (body := [slot]) h (by rfl) 3 tag (State.withdrawTariff slot.toNat)))

section
variable {slot : Nat} {t : TariffTable}

theorem TariffTable.withdraw_of_outside (h : slot = 0 ∨ 239 < slot) : t.withdraw slot = (t, .refused .invalid) := if_pos h

variable (hlow : 1 ≤ slot) (hhigh : slot ≤ 239)
include hlow hhigh

theorem TariffTable.withdraw_of_empty (h : ∀ r ∈ t.records, r.slot ≠ slot) : t.withdraw slot = (t, .refused .notFound) := by
  have hnone : t.recordAt slot = none := by simpa [TariffTable.recordAt] using h
  rw [TariffTable.withdraw, if_neg (by omega), hnone]

/-- R58, R63: the withdrawal of the record in a slot, the only one there. -/
theorem TariffTable.withdraw_of_record {lower higher : List TariffRecord} {r : TariffRecord}
    (hrecords : t.records = lower ++ r :: higher) (hr : r.slot = slot) (hothers : ∀ q ∈ lower ++ higher, q.slot ≠ slot) :
    t.withdraw slot =
      if r.state = .retiring then (t, .refused .state)
      else ({ t with records := lower ++ (r.withdrawn.toList ++ higher) },
        if r.state = .live ∧ r.pinned then .doneDeferred .empty else .done .empty) := by
  have hlower : ∀ q ∈ lower, q.slot ≠ slot := fun q hq => hothers q (List.mem_append_left _ hq)
  have hhigher : ∀ q ∈ higher, q.slot ≠ slot := fun q hq => hothers q (List.mem_append_right _ hq)
  have hfound : t.recordAt slot = some r := by
    rw [TariffTable.recordAt, hrecords, List.find?_append, List.find?_eq_none.2 (by simpa using hlower)]
    simp [hr]
  have hkeeps {l : List TariffRecord} (h : ∀ q ∈ l, q.slot ≠ slot) :
      l.filterMap (fun q => if q.slot = slot then q.withdrawn else some q) = l := by
    induction l with
    | nil => rfl
    | cons q l ih =>
      rw [List.filterMap_cons, if_neg (h q List.mem_cons_self), ih fun x hx => h x (List.mem_cons_of_mem _ hx)]
  have hwithdrawn : t.records.filterMap (fun q => if q.slot = slot then q.withdrawn else some q) =
      lower ++ (r.withdrawn.toList ++ higher) := by
    rw [hrecords, List.filterMap_append, hkeeps hlower, List.filterMap_cons, if_pos hr, hkeeps hhigher]
    cases r.withdrawn <;> rfl
  rw [TariffTable.withdraw, if_neg (by omega), hfound]
  simp only [hwithdrawn]

end

/-- Settles O31. -/
theorem tariffRecordsArePutAndWithdrawn : Obligations.TariffRecordsArePutAndWithdrawn := by
  refine ⟨?windows, fun p tag body s hadmits hlength => ?put, fun p tag slot s hadmits => ?withdraw⟩
  case windows =>
    intro a b holds ha hb
    exact ⟨exists_holds_both ha hb, fun ⟨now, hnow⟩ => windowsIntersect_of_holds hnow.1 hnow.2⟩
  case put =>
    intro now allowed answers
    have hanswers {t : State} {r : Reply} (h : s.putTariff body = (t, r)) : answers t r := by
      have hexec := exec_tariffPut hadmits hlength tag
      rw [h] at hexec
      exact hexec
    refine ⟨fun hrefused => hanswers (State.putTariff_of_not_allowed hrefused), fun o ho hallowed => ?_⟩
    intro c clash kept state full places
    have hput := State.putTariff_of_allowed ho hallowed
    have hstate (records : List TariffRecord) : state records = installState now records c := (installState_eq now records c).symm
    have hplaced {records after : List TariffRecord} {slot : Nat} (h : places records slot after) :
        TariffRecord.Places ⟨slot, c, installState now records c, false⟩ records after := by
      rw [← hstate]
      exact h
    refine ⟨fun hdefault => ?default, fun htable hnew => ?new, fun htable hreplace => ?replace⟩
    case default =>
      simp only [hdefault, if_true] at hput
      refine ⟨fun hfree => hanswers (hput.trans ?_), fun hpinned => hanswers (hput.trans ?_)⟩
      · rw [TariffTable.putDefault_of_free hfree]
        rfl
      · rw [TariffTable.putDefault_of_pinned hpinned]
        rfl
    case new =>
      simp only [htable, hnew, Bool.false_eq_true, if_false] at hput
      refine ⟨fun hclash => hanswers (hput.trans ?_), fun hnone => ⟨fun hfull => hanswers (hput.trans ?_),
        fun slot after hplaces => hanswers (hput.trans ?_)⟩⟩
      · rw [TariffTable.putNew_of_clash hclash]
        rfl
      · rw [TariffTable.putNew_of_full hnone (lowestEmpty_eq_none_iff.2 hfull)]
        rfl
      · rw [TariffTable.putNew_of_places hnone (hplaced hplaces), hstate]
        rfl
    case replace =>
      simp only [htable, hreplace, Bool.false_eq_true, if_false, if_true] at hput
      refine ⟨fun hfull => hanswers (hput.trans ?_), fun slot after hplaces => hanswers (hput.trans ?_)⟩
      · rw [TariffTable.putReplace_of_full (lowestEmpty_eq_none_iff.2 hfull)]
        rfl
      · rw [TariffTable.putReplace_of_places (hplaced hplaces), hstate]
        rfl
  case withdraw =>
    intro answers
    have hanswers {t : TariffTable} {r : Reply} (h : s.tariff.withdraw slot.toNat = (t, r)) :
        answers { s with tariff := t } r := by
      have hexec := exec_tariffWithdraw hadmits tag slot
      rw [State.withdrawTariff, h] at hexec
      exact hexec
    refine ⟨fun houtside => hanswers (TariffTable.withdraw_of_outside houtside), fun hlow hhigh =>
      ⟨fun hempty => hanswers (TariffTable.withdraw_of_empty hlow hhigh hempty), fun lower r higher hrecords hr hothers => ?_⟩⟩
    have hwithdraw := TariffTable.withdraw_of_record hlow hhigh hrecords hr hothers
    refine ⟨fun hunpinned => ?_, fun hlive hpinned => ?_, fun hretiring => ?_⟩
    · have hstate : r.state ≠ .retiring := by rintro hc; simp [hc] at hunpinned
      have hgone : r.withdrawn = none := if_neg (by intro hc; simp at hc; simp [hc] at hunpinned)
      rw [if_neg hstate, hgone, if_neg (by rintro ⟨hlive, hpinned⟩; simp [hlive, hpinned] at hunpinned)] at hwithdraw
      exact hanswers hwithdraw
    · have hleft : r.withdrawn = some { r with state := .retiring } := if_pos (by simp [hlive, hpinned])
      rw [if_neg (by simp [hlive]), hleft, if_pos ⟨hlive, hpinned⟩] at hwithdraw
      exact hanswers hwithdraw
    · exact hanswers (hwithdraw.trans (if_pos hretiring))

end Sys2Proof.Machine
end

/-! ## Analysis and verdicts (sections 4.7 and 4.8) -/

section
namespace Sys2Proof.Machine

/-! ### The chosen record (R68) -/

/-- R68: a LIVE record whose symbols begin a string. -/
def TariffRecord.Begins (x : List Symbol) (r : TariffRecord) : Prop := r.state = .live ∧ r.content.pre <+: x

theorem TariffTable.mem_matching {t : TariffTable} {x : List Symbol} {r : TariffRecord} :
    r ∈ t.matching x ↔ r ∈ t.records ∧ r.Begins x := by
  simp [TariffTable.matching, TariffRecord.Begins]

theorem longest_eq_none_iff {l : List TariffRecord} : longest l = none ↔ l = [] := by
  cases l with
  | nil => simp [longest]
  | cons r rest =>
    unfold longest
    split
    · simp
    · split <;> simp

theorem le_longest {l : List TariffRecord} {r q : TariffRecord} (h : longest l = some r) (hq : q ∈ l) :
    q.content.pre.length ≤ r.content.pre.length := by
  induction l generalizing r with
  | nil => cases hq
  | cons a rest ih =>
    unfold longest at h
    split at h
    next hnone =>
      obtain ⟨⟩ := h
      rw [longest_eq_none_iff.1 hnone, List.mem_singleton] at hq
      exact Nat.le_of_eq (by rw [hq])
    next b hb =>
      split at h
      next hlt =>
        obtain ⟨⟩ := h
        obtain rfl | hq := List.mem_cons.1 hq
        · exact Nat.le_of_lt hlt
        · exact ih hb hq
      next hge =>
        obtain ⟨⟩ := h
        obtain rfl | hq := List.mem_cons.1 hq
        · exact Nat.le_refl _
        · exact Nat.le_trans (ih hb hq) (Nat.not_lt.1 hge)

theorem TariffTable.Lawful.apart {t : TariffTable} (h : t.Lawful) {a b : TariffRecord} (ha : a ∈ t.records)
    (hb : b ∈ t.records) (hne : a ≠ b) : a.Apart b := by
  obtain ⟨-, -, hapart⟩ := (TariffTable.lawful_iff t).1 h
  obtain ⟨lower, upper, hrecords⟩ := List.append_of_mem ha
  rw [hrecords] at hapart hb
  obtain ⟨-, hupper, hlower⟩ := List.pairwise_append.1 hapart
  obtain hb | hb := List.mem_append.1 hb
  · exact (hlower b hb a List.mem_cons_self).symm
  · obtain rfl | hb := List.mem_cons.1 hb
    · exact absurd rfl hne
    · exact (List.pairwise_cons.1 hupper).1 b hb

/-- Section 4.3: one LIVE record to a string of symbols. -/
theorem TariffTable.Lawful.eq_of_live {t : TariffTable} (h : t.Lawful) {a b : TariffRecord} (ha : a ∈ t.records)
    (hb : b ∈ t.records) (hla : a.state = .live) (hlb : b.state = .live) (hpre : a.content.pre = b.content.pre) : a = b := by
  refine Classical.byContradiction fun hne => ?_
  obtain ⟨hlive, -⟩ := h.apart ha hb hne hpre
  exact hlive ⟨hla, hlb⟩

theorem TariffTable.matching_eq_nil_iff {t : TariffTable} {x : List Symbol} :
    t.matching x = [] ↔ ∀ r ∈ t.records, ¬ r.Begins x := by
  simp [List.eq_nil_iff_forall_not_mem, TariffTable.mem_matching]

theorem TariffTable.chosen_of_none {t : TariffTable} {x : List Symbol} (h : ∀ r ∈ t.records, ¬ r.Begins x) :
    t.chosen x = ⟨0, t.base⟩ := by
  rw [TariffTable.chosen, TariffTable.matching_eq_nil_iff.2 h]
  rfl

/-- R68: among prefixes of one string the length decides. -/
theorem TariffTable.chosen_of_longest {t : TariffTable} (hlawful : t.Lawful) {x : List Symbol} {r : TariffRecord}
    (hr : r ∈ t.records) (hbegins : r.Begins x)
    (hlongest : ∀ q ∈ t.records, q.Begins x → q.content.pre.length ≤ r.content.pre.length) :
    t.chosen x = ⟨r.slot, r.content⟩ := by
  cases hq : longest (t.matching x) with
  | none => exact absurd hbegins (TariffTable.matching_eq_nil_iff.1 (longest_eq_none_iff.1 hq) r hr)
  | some q =>
    obtain ⟨hqmem, hqbegins⟩ := TariffTable.mem_matching.1 (longest_mem hq)
    have hlength : q.content.pre.length = r.content.pre.length :=
      Nat.le_antisymm (hlongest q hqmem hqbegins) (le_longest hq (TariffTable.mem_matching.2 ⟨hr, hbegins⟩))
    have hpre : q.content.pre = r.content.pre :=
      (List.prefix_of_prefix_length_le hqbegins.2 hbegins.2 (Nat.le_of_eq hlength)).eq_of_length hlength
    have hsame : q = r := hlawful.eq_of_live hqmem hr hqbegins.1 hbegins.1 hpre
    rw [TariffTable.chosen, hq, hsame]

theorem TariffTable.expectsMore_iff {t : TariffTable} {x : List Symbol} : t.expectsMore x = true ↔
    x.length < 20 ∧ ∃ r ∈ t.records, r.state = .live ∧ x <+: r.content.pre ∧ x.length < r.content.pre.length := by
  simp [TariffTable.expectsMore, and_comm, and_left_comm]

/-! ### The outcome and the verdicts (R68, R70, R71) -/

section
variable {t : TariffTable} {x : List Symbol} {c : Chosen} (hc : t.chosen x = c)

theorem TariffTable.analyse_of_more (h : t.expectsMore x = true) : t.analyse x = .more := if_pos h

include hc

theorem TariffTable.analyse_of_blocked (h : ¬ t.expectsMore x = true) (hblocked : c.content.category = .blocked) :
    t.analyse x = .barred c := by
  rw [TariffTable.analyse, hc]
  exact (if_neg h).trans (if_pos hblocked)

theorem TariffTable.analyse_of_open (h : ¬ t.expectsMore x = true) (hopen : c.content.category ≠ .blocked) :
    t.analyse x = if t.matching x = [] then .base c else .decided c := by
  rw [TariffTable.analyse, hc]
  exact (if_neg h).trans (if_neg hopen)

/-- R70: the verdict on a string that one more symbol need not decide, by the chosen record's maximum. -/
theorem TariffTable.dialledVerdict_of_open (h : ¬ t.expectsMore x = true) (hopen : c.content.category ≠ .blocked) :
    t.dialledVerdict x = if x.length < c.content.maxLength then .continue
      else if x.length = c.content.maxLength then .complete c
      else .refused .overlong c := by
  rw [TariffTable.dialledVerdict, TariffTable.analyse_of_open hc h hopen]
  by_cases hmatching : t.matching x = []
  · rw [if_pos hmatching]
  · rw [if_neg hmatching]

/-- R71: at the timeout the lengths decide. -/
theorem TariffTable.timeoutVerdict_of_open (hopen : c.content.category ≠ .blocked) :
    t.timeoutVerdict x = if x.length < c.content.minLength then .refused .tooShort c
      else if c.content.maxLength < x.length then .refused .overlong c
      else .complete c := by
  rw [TariffTable.timeoutVerdict, hc]
  exact if_neg hopen

theorem TariffTable.timeoutVerdict_of_blocked (hblocked : c.content.category = .blocked) :
    t.timeoutVerdict x = .refused .barred c := by
  rw [TariffTable.timeoutVerdict, hc]
  exact if_pos hblocked

end

/-- Settles O33: the string's chosen record, and from it the outcome and the verdicts. -/
theorem analysisGivesTheVerdicts : Obligations.AnalysisGivesTheVerdicts := by
  intro t x c matched hlawful begins hfalls more blocked
  have hmore : more ↔ t.expectsMore x = true := TariffTable.expectsMore_iff.symm
  have hc : t.chosen x = c := by
    cases matched with
    | true =>
      obtain ⟨r, hr, hbegins, hlongest, rfl⟩ := hfalls
      exact TariffTable.chosen_of_longest hlawful hr hbegins hlongest
    | false =>
      obtain ⟨hnone, rfl⟩ := hfalls
      exact TariffTable.chosen_of_none hnone
  have houtcome : (if t.matching x = [] then Analysis.base c else .decided c) = if matched then .decided c else .base c := by
    cases matched with
    | true =>
      obtain ⟨r, hr, hbegins, -⟩ := hfalls
      exact if_neg fun hnil => TariffTable.matching_eq_nil_iff.1 hnil r hr hbegins
    | false =>
      obtain ⟨hnone, -⟩ := hfalls
      exact if_pos (TariffTable.matching_eq_nil_iff.2 hnone)
  simp only [hmore]
  refine ⟨fun h => ⟨TariffTable.analyse_of_more h, ?_⟩, fun h hblocked => ⟨TariffTable.analyse_of_blocked hc h hblocked, ?_⟩,
    fun h hopen => ⟨(TariffTable.analyse_of_open hc h hopen).trans houtcome, ?_⟩, TariffTable.timeoutVerdict_of_blocked hc,
    fun hopen => ?_⟩
  · rw [TariffTable.dialledVerdict, TariffTable.analyse_of_more h]
  · rw [TariffTable.dialledVerdict, TariffTable.analyse_of_blocked hc h hblocked]
  · rw [TariffTable.dialledVerdict_of_open hc h hopen]
    refine ⟨fun hlt => if_pos hlt, fun heq => ?_, fun hgt => ?_⟩
    · rw [if_neg (Nat.not_lt.2 (Nat.le_of_eq heq.symm)), if_pos heq]
    · rw [if_neg (Nat.not_lt.2 (Nat.le_of_lt hgt)), if_neg (Nat.ne_of_gt hgt)]
  · rw [TariffTable.timeoutVerdict_of_open hc hopen]
    refine ⟨fun hlt => if_pos hlt, fun hmin hmax => ?_, fun hmin hgt => ?_⟩
    · rw [if_neg (Nat.not_lt.2 hmin), if_neg (Nat.not_lt.2 hmax)]
    · rw [if_neg (Nat.not_lt.2 hmin), if_pos hgt]

end Sys2Proof.Machine
end

/-! ## The station clock and the bands (chapter 5) -/

section
namespace Sys2Proof.Machine

/-! ### The calendar (R77) -/

theorem daysIn_february (year : Nat) : daysIn year 2 = if year % 4 = 0 then 29 else 28 := by
  simp [daysIn, isLeap]

/-- The seconds from 2000-01-01 00:00:00 to a clock time. -/
def ClockTime.seconds (t : ClockTime) : Nat := ((t.date.dayNumber * 24 + t.hour) * 60 + t.minute) * 60 + t.second

/-- The last second of the calendar. -/
def ClockTime.last : ClockTime := ⟨⟨2099, 12, 31⟩, 23, 59, 59⟩

theorem ClockTime.atEnd_iff {t : ClockTime} : t.atEnd = true ↔ t = ClockTime.last := by
  obtain ⟨⟨year, month, day⟩, hour, minute, second⟩ := t
  simp [ClockTime.atEnd, ClockTime.last, and_assoc]

theorem ClockTime.seconds_tick {t : ClockTime} (h : t.valid = true) (hend : t.atEnd = false) :
    t.tick.seconds = t.seconds + 1 := by
  simp only [ClockTime.valid, Bool.and_eq_true, decide_eq_true_eq] at h
  obtain ⟨⟨⟨hdate, hhour⟩, hminute⟩, hsecond⟩ := h
  unfold ClockTime.tick
  split
  case isTrue => rfl
  case isFalse hs =>
    split
    case isTrue => simp only [ClockTime.seconds]; omega
    case isFalse hm =>
      split
      case isTrue => simp only [ClockTime.seconds]; omega
      case isFalse hh =>
        have hlast : ¬ (t.date.year = 2099 ∧ t.date.month = 12 ∧ t.date.day = 31) := by
          rintro ⟨hyear, hmonth, hday⟩
          have h59 : t.second = 59 := by omega
          have m59 : t.minute = 59 := by omega
          have h23 : t.hour = 23 := by omega
          simp [ClockTime.atEnd, hyear, hmonth, hday, h59, m59, h23] at hend
        obtain ⟨-, hnext⟩ := Date.next_dayNumber hdate hlast
        simp only [ClockTime.seconds, hnext]
        omega

/-! ### Day types and bands (R82, R86) -/

theorem dayTypeOf_of_mem {date : Date} {holidays : List Date} (h : date ∈ holidays) (weekday : Weekday) :
    dayTypeOf date weekday holidays = .holidaySunday := if_pos h

theorem dayTypeOf_of_not_mem {date : Date} {holidays : List Date} (h : date ∉ holidays) (weekday : Weekday) :
    dayTypeOf date weekday holidays =
      if weekday = .sunday then .holidaySunday else if weekday = .saturday then .saturday else .weekday := by
  refine (if_neg h).trans ?_
  cases weekday <;> rfl

theorem bandAt_of_last {minute : Nat} {earlier later : List SwitchPoint} {q : SwitchPoint} (hq : q.minute ≤ minute)
    (hlater : ∀ x ∈ later, minute < x.minute) : bandAt minute (earlier ++ q :: later) = q.band := by
  have hkeeps (band : Fin 4) : later.foldl (fun band p => if p.minute ≤ minute then p.band else band) band = band := by
    induction later with
    | nil => rfl
    | cons x rest ih =>
      obtain ⟨hx, hrest⟩ := List.forall_mem_cons.1 hlater
      rw [List.foldl_cons, if_neg (Nat.not_le.2 hx)]
      exact ih hrest
  rw [bandAt, List.foldl_append, List.foldl_cons, if_pos hq, hkeeps]

/-- Settles O34. -/
theorem calendarAndBands : Obligations.CalendarAndBands := by
  refine ⟨⟨daysIn_february, fun year => by simp [daysIn], fun year => by simp [daysIn], fun c hc => ?advance⟩,
    fun date weekday holidays => ⟨fun h => dayTypeOf_of_mem h weekday, fun h => dayTypeOf_of_not_mem h weekday⟩,
    fun c earlier later q => ?band⟩
  case advance =>
    intro seconds
    refine ⟨fun hlast => ?_, fun hlast => if_pos (ClockTime.atEnd_iff.2 hlast)⟩
    have hend : c.time.atEnd = false := Bool.eq_false_iff.2 fun h => hlast (ClockTime.atEnd_iff.1 h)
    have hadvance : c.advance = { c with
        time := c.time.tick, weekday := if c.time.tick.date = c.time.date then c.weekday else c.weekday.next } :=
      if_neg (by simp [hend])
    have hlawful := StationClock.advance_lawful hc
    rw [hadvance] at hlawful ⊢
    exact ⟨hlawful, ClockTime.seconds_tick hc.1 hend, rfl, rfl⟩
  case band =>
    intro day
    refine ⟨⟨rfl, rfl, rfl⟩, fun hschedule hq hlater => ?_⟩
    have hform : c.formBand = { c with dayType := day, band := bandAt (c.time.hour * 60 + c.time.minute) (c.schedule day) } := rfl
    rw [hform, hschedule, bandAt_of_last hq hlater]

/-! ### A second of the clock, and the minute event (R77, R78) -/

theorem exec_clockSecond_of_main {s : State} (h : s.supplies.main = true) : exec .clockSecond s = .next s.clockTick :=
  congrArg Host.Outcome.next (if_pos h)

/-- R64, R65: an evaluation against the clock's time. -/
theorem State.evaluateTable_eq (s : State) : s.evaluateTable =
    if evaluate s.clock.time.toMinute s.tariff.records = s.tariff.records then s
    else { s with
      tariff := { s.tariff with records := evaluate s.clock.time.toMinute s.tariff.records }
      attention := { s.attention with flags := { s.attention.flags with tableChanged := true } } } := rfl

/-- R174: the daily report falls due at its minute, in IDLE and in DEFERRED. -/
theorem State.dailyReport_eq (s : State) : s.dailyReport =
    if s.clock.time.minuteOfDay = s.settings.dailyReport ∧ (s.report.state = .idle ∨ s.report.state = .deferred) then
      { s with report := { s.report with
        attempts := 0, state := .scheduled, timer := some (if s.session.state = .idle then .running s.now else .held 0) } }
    else s := rfl

/-- R84: the holiday list that a minute event leaves. -/
def StationClock.prunedHolidays (c : StationClock) : List Date :=
  if c.time.minuteOfDay = 0 then c.holidays.filter (fun d => c.time.date.key ≤ d.key) else c.holidays

theorem State.minuteEvent_eq (s : State) : s.minuteEvent =
    let day := dayTypeOf s.clock.time.date s.clock.weekday s.clock.prunedHolidays
    let formed : State := { s with clock := { s.clock with
      holidays := s.clock.prunedHolidays, dayType := day, band := bandAt s.clock.time.minuteOfDay (s.clock.schedule day) } }
    formed.evaluateTable.dailyReport := by
  unfold State.minuteEvent StationClock.prunedHolidays
  split <;> rfl

/-- Settles O35. -/
theorem clockSecondRunsTheMinuteEvent : Obligations.ClockSecondRunsTheMinuteEvent := by
  intro s t ran
  have hran : s.advanceClock = ran := rfl
  refine ⟨fun hoff => ⟨fun hheld => ?held, fun hlost => ?lost⟩, fun hmain => ?on⟩
  case held => exact congrArg Host.Outcome.next ((if_neg (by simp [hoff])).trans (if_neg (by simp [hheld])))
  case lost => exact congrArg Host.Outcome.next ((if_neg (by simp [hoff])).trans (if_pos hlost))
  case on =>
    intro time pruned day formed evaluated minute
    have hminute : ran.minuteEvent = minute := by
      have hevaluated : formed.evaluateTable = evaluated := rfl
      have hevent : ran.minuteEvent = evaluated.dailyReport := (State.minuteEvent_eq ran).trans (congrArg State.dailyReport hevaluated)
      rw [hevent, State.dailyReport_eq]
      by_cases hsame : evaluate time.toMinute s.tariff.records = s.tariff.records
      · simp only [minute, evaluated, if_pos hsame]
        rfl
      · simp only [minute, evaluated, if_neg hsame]
        rfl
    have htick : s.clockTick =
        let u := if time.second = 0 then minute else ran
        if s.clock.time.atEnd then u.becomeAbnormal .clock .clockUnset .notice else u := by
      rw [← hminute]
      rfl
    have hzero (h : s.clock.time.atEnd = true) : time.second = 0 :=
      congrArg (fun c : StationClock => c.time.second) (if_pos h)
    rw [exec_clockSecond_of_main hmain, htick]
    refine ⟨fun hwithin => ?_, fun hzero hlast => ?_, fun hlast => ?_⟩
    · have hend : s.clock.time.atEnd = false := Bool.eq_false_iff.2 fun h => hwithin (hzero h)
      simp [hwithin, hend]
    · have hend : s.clock.time.atEnd = false := Bool.eq_false_iff.2 fun h => hlast (ClockTime.atEnd_iff.1 h)
      simp [hzero, hend]
    · have hend : s.clock.time.atEnd = true := ClockTime.atEnd_iff.2 hlast
      simp only [hzero hend, hend, if_true]
      rfl

/-! ### CLOCK_SET, HOLIDAY_SET and BAND_SET (R79, R83, R85) -/

theorem strictlyIncreasing_iff {l : List Nat} : strictlyIncreasing l = true ↔ l.Pairwise (· < ·) := by
  induction l with
  | nil => simp [strictlyIncreasing]
  | cons a rest ih =>
    cases rest with
    | nil => simp [strictlyIncreasing]
    | cons b more =>
      rw [strictlyIncreasing, Bool.and_eq_true, decide_eq_true_eq, ih, List.pairwise_cons (a := a)]
      refine and_congr_left fun hmore => ⟨fun hab => ?_, fun h => h b List.mem_cons_self⟩
      refine List.forall_mem_cons.2 ⟨hab, fun x hx => Nat.lt_trans hab ?_⟩
      exact (List.pairwise_cons.1 hmore).1 x hx

theorem countedFits_iff {head size : Nat} {body : List Byte} :
    countedFits head size body = true ↔ head ≤ body.length ∧ body.length = head + size * byteAt body (head - 1) := by
  simp [countedFits]

theorem exec_clockSet {p : Port} {body : List Byte} {s : State} (h : s.admits p) (hlength : body.length = 6) (tag : Byte) :
    exec (.clockSet p tag body) s = .next ((s.setTime body).1.answer p ((s.setTime body).2.response 13 tag)) := by
  have hfits : lengthFits (ofLength 6) body = true := by simp [lengthFits, ofLength, hlength]
  exact congrArg _ ((State.whilePowered_of_main h.1).trans (State.serve_of_admits h hfits 13 tag (State.setTime body)))

theorem exec_holidaySet {p : Port} {body : List Byte} {s : State} (h : s.admits p) (hlength : body.length = 1 + 2 * byteAt body 0)
    (hshort : body.length ≤ 60) (tag : Byte) :
    exec (.holidaySet p tag body) s = .next ((s.setHolidays body).1.answer p ((s.setHolidays body).2.response 8 tag)) := by
  have hfits : lengthFits (countedFits 1 2) body = true := by
    rw [lengthFits, Bool.and_eq_true, countedFits_iff]
    exact ⟨decide_eq_true hshort, by omega, hlength⟩
  exact congrArg _ ((State.whilePowered_of_main h.1).trans (State.serve_of_admits h hfits 8 tag (State.setHolidays body)))

theorem exec_bandSet {p : Port} {body : List Byte} {s : State} (h : s.admits p) (hlength : body.length = 2 + 3 * byteAt body 1)
    (hshort : body.length ≤ 60) (tag : Byte) :
    exec (.bandSet p tag body) s = .next ((s.setBands body).1.answer p ((s.setBands body).2.response 6 tag)) := by
  have hfits : lengthFits (countedFits 2 3) body = true := by
    rw [lengthFits, Bool.and_eq_true, countedFits_iff]
    exact ⟨decide_eq_true hshort, by omega, hlength⟩
  exact congrArg _ ((State.whilePowered_of_main h.1).trans (State.serve_of_admits h hfits 6 tag (State.setBands body)))

theorem Date.valid_iff {d : Date} : d.valid = true ↔
    2000 ≤ d.year ∧ d.year ≤ 2099 ∧ 1 ≤ d.month ∧ d.month ≤ 12 ∧ 1 ≤ d.day ∧ d.day ≤ daysIn d.year d.month := by
  simp [Date.valid, and_assoc]

theorem ClockTime.valid_iff {t : ClockTime} : t.valid = true ↔
    t.date.valid = true ∧ t.hour ≤ 23 ∧ t.minute ≤ 59 ∧ t.second ≤ 59 := by
  simp [ClockTime.valid, and_assoc]

/-! ### Switch points -/

theorem switchPoint_eq_some_iff {p : Nat × Nat} {q : SwitchPoint} :
    switchPoint p = some q ↔ p = (q.minute, q.band.val) ∧ q.minute ≤ 1439 := by
  obtain ⟨minute, band⟩ := p
  obtain ⟨minute', band'⟩ := q
  unfold switchPoint
  constructor
  case mp =>
    intro h
    split at h
    next hband =>
      obtain ⟨hminute, ⟨⟩⟩ := Option.ite_none_right_eq_some.1 h
      exact ⟨rfl, hminute⟩
    next => cases h
  case mpr =>
    rintro ⟨⟨⟩, hminute⟩
    simpa using hminute

theorem switchPoints_eq_some_iff {l : List (Nat × Nat)} {points : List SwitchPoint} :
    switchPoints l = some points ↔ l = points.map (fun q => (q.minute, q.band.val)) ∧ ∀ q ∈ points, q.minute ≤ 1439 := by
  induction l generalizing points with
  | nil => cases points <;> simp [switchPoints]
  | cons p rest ih =>
    unfold switchPoints
    cases points with
    | nil => split <;> simp
    | cons q qs =>
      rw [List.map_cons, List.cons.injEq, List.forall_mem_cons, and_and_and_comm, ← switchPoint_eq_some_iff, ← ih]
      cases switchPoint p <;> cases switchPoints rest <;> simp

/-- R85: the switch points that BAND_SET accepts. -/
theorem scheduleOf_eq_some_iff {body : List Byte} {points : List SwitchPoint} : scheduleOf body = some points ↔
    pointsAt body 2 (byteAt body 1) = points.map (fun q => (q.minute, q.band.val)) ∧
      1 ≤ points.length ∧ points.length ≤ 6 ∧ points.head?.map SwitchPoint.minute = some 0 ∧
      (∀ q ∈ points, q.minute ≤ 1439) ∧ (points.map SwitchPoint.minute).Pairwise (· < ·) := by
  unfold scheduleOf
  rw [← strictlyIncreasing_iff]
  constructor
  case mp =>
    intro h
    split at h
    next hfound =>
      obtain ⟨⟨hlength, hhead, hrising⟩, ⟨⟩⟩ := Option.ite_none_right_eq_some.1 h
      obtain ⟨hpoints, hminutes⟩ := switchPoints_eq_some_iff.1 hfound
      have hsome : 1 ≤ points.length := by
        cases points with
        | nil => simp at hhead
        | cons q rest => simp
      exact ⟨hpoints, hsome, hlength, hhead, hminutes, hrising⟩
    next => cases h
  case mpr =>
    rintro ⟨hpoints, -, hlength, hhead, hminutes, hrising⟩
    rw [switchPoints_eq_some_iff.2 ⟨hpoints, hminutes⟩]
    exact if_pos ⟨hlength, hhead, hrising⟩

theorem length_pointsAt (body : List Byte) (i n : Nat) : (pointsAt body i n).length = n := by
  induction n generalizing i with
  | zero => rfl
  | succ n ih => rw [pointsAt, List.length_cons, ih]

/-- Settles O36. -/
theorem clockHolidaysAndBandsAreSet : Obligations.ClockHolidaysAndBandsAreSet := by
  refine ⟨fun p tag year month day hour minute second s hadmits => ?clock, fun p tag body s hadmits hlength => ?holidays,
    fun p tag body s hadmits hlength => ?bands⟩
  case clock =>
    intro time cmd good set evaluated
    have hgood : time.valid = true ↔ good := by
      rw [ClockTime.valid_iff, Date.valid_iff]
      simp only [time, good, and_assoc]
      refine ⟨fun ⟨_, hyear, hrest⟩ => ⟨by omega, hrest⟩, fun ⟨hyear, hrest⟩ => ⟨by omega, by omega, hrest⟩⟩
    have hexec := exec_clockSet (body := [year, month, day, hour, minute, second]) hadmits rfl tag
    have htime : clockTimeAt [year, month, day, hour, minute, second] 0 = time := rfl
    refine ⟨fun hvalid => ?_, fun hinvalid => ?_⟩
    · have hclock : set.clock.time = time := by simp only [set, State.makeNormal_frame]
      have hevaluated : set.evaluateTable = evaluated := by
        rw [State.evaluateTable_eq, hclock]
      have hset : s.setTime [year, month, day, hour, minute, second] =
          ({ evaluated with clock := evaluated.clock.formBand }, .done .empty) := by
        rw [State.setTime, htime, ← hevaluated]
        exact if_pos (hgood.2 hvalid)
      rw [hexec, hset]
    · have hset : s.setTime [year, month, day, hour, minute, second] = (s, .refused .invalid) :=
        if_neg fun hc => hinvalid (hgood.1 hc)
      rw [hexec, hset]
  case holidays =>
    intro dates good
    have hgood : (byteAt body 0 ≤ 24 ∧ dates.all Date.valid = true ∧ strictlyIncreasing (dates.map Date.key) = true) ↔ good := by
      rw [List.all_eq_true, strictlyIncreasing_iff]
    refine ⟨fun hvalid => ?_, fun hinvalid hshort => ?_⟩
    · have hcount : byteAt body 0 ≤ 24 := hvalid.1
      have hset : s.setHolidays body =
          ({ s with clock := ({ s.clock with holidays := dates } : StationClock).formBand }, .done .empty) :=
        if_pos (hgood.2 hvalid)
      rw [exec_holidaySet hadmits hlength (by omega), hset]
    · have hset : s.setHolidays body = (s, .refused .invalid) := if_neg fun hc => hinvalid (hgood.1 hc)
      rw [exec_holidaySet hadmits hlength hshort, hset]
  case bands =>
    intro good
    refine ⟨fun day points hvalid => ?_, fun hinvalid hshort => ?_⟩
    · obtain ⟨hday, hschedule⟩ := hvalid
      have hsix : points.length ≤ 6 := hschedule.2.2.1
      have hcount : byteAt body 1 = points.length := by
        rw [← length_pointsAt body 2 (byteAt body 1), hschedule.1, List.length_map]
      have hset : s.setBands body = ({ s with clock :=
          if day = s.clock.dayType then (s.clock.setSchedule points day).formBand else s.clock.setSchedule points day },
          .done .empty) := by
        rw [State.setBands, hday, scheduleOf_eq_some_iff.2 hschedule]
        rfl
      rw [exec_bandSet hadmits hlength (by omega), hset]
    · have hset : s.setBands body = (s, .refused .invalid) := by
        unfold State.setBands
        split
        next day points hday hschedule => exact absurd ⟨hday, scheduleOf_eq_some_iff.1 hschedule⟩ (hinvalid day points)
        next => rfl
      rw [exec_bandSet hadmits hlength hshort, hset]

end Sys2Proof.Machine
end

/-! ## Call rating (chapter 6) -/

section
namespace Sys2Proof.Machine

/-! ### Step charges (R93 to R97) -/

theorem stepCharge_carry (acc n : Nat) : stepCharge .carry acc n =
    { charge := min 65535 ((acc + n) / 6000), acc := (acc + n) % 6000, inexact := n % 6000 ≠ 0,
      limited := 65535 < (acc + n) / 6000 } := rfl

theorem stepCharge_stepUp (acc n : Nat) : stepCharge .stepUp acc n =
    { charge := min 65535 ((n + 5999) / 6000), acc := acc, inexact := n % 6000 ≠ 0, limited := 65535 < (n + 5999) / 6000 } := rfl

theorem stepCharge_stepDown (acc n : Nat) : stepCharge .stepDown acc n =
    { charge := min 65535 (n / 6000), acc := acc, inexact := n % 6000 ≠ 0, limited := 65535 < n / 6000 } := rfl

/-- R96: a step amount of at least 65535 MU is limited under each rounding. -/
theorem stepCharge_charge_of_limit {n : Nat} (h : 393210000 ≤ n) (rounding : Rounding) (acc : Nat) :
    (stepCharge rounding acc n).charge = 65535 := by
  cases rounding with
  | carry => rw [stepCharge_carry]; exact Nat.min_eq_left (by omega)
  | stepUp => rw [stepCharge_stepUp]; exact Nat.min_eq_left (by omega)
  | stepDown => rw [stepCharge_stepDown]; exact Nat.min_eq_left (by omega)

theorem stepCharge_charge_zero (rounding : Rounding) : (stepCharge rounding 0 0).charge = 0 := by
  cases rounding <;> rfl

/-- R93: the accumulator and the charge of a CARRY step together hold what went into it. -/
theorem stepCharge_carry_exact {acc n : Nat} (hacc : acc < 6000) (hn : n < 393210000) :
    (stepCharge .carry acc n).charge * 6000 + (stepCharge .carry acc n).acc = acc + n := by
  rw [stepCharge_carry, Nat.min_eq_right (by omega)]
  exact Nat.div_add_mod' (acc + n) 6000

/-- R93: the CARRY charges of some steps, and the accumulator they leave. -/
def carrySteps (n : Nat) (steps : List Unit) (start : Nat × Nat) : Nat × Nat :=
  steps.foldl (fun x _ => (x.1 + (stepCharge .carry x.2 n).charge, (stepCharge .carry x.2 n).acc)) start

theorem carrySteps_exact {n : Nat} (hn : n < 393210000) (steps : List Unit) {start : Nat × Nat} (hstart : start.2 < 6000) :
    (carrySteps n steps start).1 * 6000 + (carrySteps n steps start).2 = start.1 * 6000 + start.2 + steps.length * n ∧
      (carrySteps n steps start).2 < 6000 := by
  induction steps generalizing start with
  | nil => exact ⟨by simp [carrySteps], hstart⟩
  | cons _ rest ih =>
    have hacc : (stepCharge .carry start.2 n).acc < 6000 := Nat.mod_lt _ (by decide)
    have hstep := stepCharge_carry_exact hstart hn
    obtain ⟨hsum, hlast⟩ := ih (start := (start.1 + (stepCharge .carry start.2 n).charge, (stepCharge .carry start.2 n).acc)) hacc
    refine ⟨hsum.trans ?_, hlast⟩
    calc (start.1 + (stepCharge .carry start.2 n).charge) * 6000 + (stepCharge .carry start.2 n).acc + rest.length * n
        = start.1 * 6000 + ((stepCharge .carry start.2 n).charge * 6000 + (stepCharge .carry start.2 n).acc) +
            rest.length * n := by rw [Nat.add_mul, Nat.add_assoc (start.1 * 6000)]
      _ = start.1 * 6000 + start.2 + (rest.length + 1) * n := by
        rw [hstep, Nat.succ_mul]
        ac_rfl

theorem State.thresholdOf_eq (slot : Nat) (s : State) :
    s.thresholdOf slot =
      let c := s.tariff.contentOf slot
      max c.minCredit (c.connection + (stepCharge (match c.rounding with
        | .fixed r => r
        | .station => s.settings.rounding) 0 (c.rates[s.clock.band] * c.period)).charge) := by
  unfold State.thresholdOf
  cases h : (s.tariff.contentOf slot).rounding <;> simp [creditThreshold, RecordRounding.resolve, h, TariffContent.stepAmount]

/-! ### The further steps and the runway (R104) -/

theorem furtherSteps_carry {acc n available : Nat} (hpos : 0 < n) (hn : n < 393210000) :
    furtherSteps .carry acc n available = some (((available + 1) * 6000 - 1 - acc) / n) :=
  (if_neg (Nat.ne_of_gt hpos)).trans (if_neg (Nat.not_le.2 hn))

theorem furtherSteps_of_limit {n : Nat} (h : 393210000 ≤ n) (rounding : Rounding) (acc available : Nat) :
    furtherSteps rounding acc n available = some (available / 65535) :=
  (if_neg (by omega)).trans (if_pos h)

/-- R104: where the accumulator is not used every step has one charge. -/
theorem furtherSteps_of_fixed {rounding : Rounding} (h : rounding ≠ .carry) {n : Nat} (hpos : 0 < n) (acc available : Nat) :
    furtherSteps rounding acc n available =
      if (stepCharge rounding 0 n).charge = 0 then none else some (available / (stepCharge rounding 0 n).charge) := by
  by_cases hlimit : 393210000 ≤ n
  · rw [furtherSteps_of_limit hlimit, stepCharge_charge_of_limit hlimit, if_neg (by decide)]
  · unfold furtherSteps
    rw [if_neg (Nat.ne_of_gt hpos), if_neg (by exact hlimit)]
    cases rounding with
    | carry => exact absurd rfl h
    | stepUp => rfl
    | stepDown => rfl

theorem runwayOf_of_none {rounding : Rounding} {acc n available : Nat} (h : furtherSteps rounding acc n available = none)
    (period seconds : Nat) : runwayOf rounding acc n available period seconds = (65535, true) := by
  rw [runwayOf, h]

theorem runwayOf_of_some {rounding : Rounding} {acc n available k : Nat} (h : furtherSteps rounding acc n available = some k)
    (period seconds : Nat) : runwayOf rounding acc n available period seconds =
      if 65535 < seconds + k * period then (65535, true) else (seconds + k * period, false) := by
  rw [runwayOf, h]

/-- Settles O37. -/
theorem stepChargesThresholdAndRunway : Obligations.StepChargesThresholdAndRunway := by
  refine ⟨⟨fun acc n => ⟨stepCharge_carry acc n, stepCharge_stepUp acc n, stepCharge_stepDown acc n⟩,
    fun acc n rounding h => stepCharge_charge_of_limit h rounding acc, fun rounding c => rfl, fun slot s => s.thresholdOf_eq slot⟩,
    fun n hn steps => ?carry, fun acc n available hpos hn hacc => ⟨_, furtherSteps_carry hpos hn, fun m => ?carrySteps⟩,
    fun rounding acc n available hfixed hcharge => ?fixed, fun rounding acc n available h => furtherSteps_of_limit h rounding acc available,
    fun rounding acc n available hfree => ?unbounded, fun rounding acc n available period seconds => ?runway⟩
  case carry =>
    obtain ⟨hsum, hlast⟩ := carrySteps_exact hn steps (start := (0, 0)) (by decide)
    refine ⟨?_, hlast⟩
    change (carrySteps n steps (0, 0)).1 = _
    omega
  case carrySteps =>
    rw [Nat.le_div_iff_mul_le hpos]
    omega
  case fixed =>
    have hpos : 0 < n := by
      refine Nat.pos_of_ne_zero fun hzero => ?_
      subst hzero
      simp [stepCharge_charge_zero] at hcharge
    refine ⟨_, (furtherSteps_of_fixed hfixed hpos acc available).trans (if_neg (Nat.ne_of_gt hcharge)), fun m => ?_⟩
    rw [Nat.le_div_iff_mul_le hcharge]
  case unbounded =>
    by_cases hzero : n = 0
    · exact if_pos hzero
    · obtain hn | ⟨hfixed, hcharge⟩ := hfree
      · exact absurd hn hzero
      · exact (furtherSteps_of_fixed hfixed (Nat.pos_of_ne_zero hzero) acc available).trans (if_pos hcharge)
  case runway =>
    refine ⟨fun h => runwayOf_of_none h period seconds, fun k h => ?_⟩
    rw [runwayOf_of_some h]
    exact ⟨fun hfits => if_neg (Nat.not_lt.2 hfits), fun hpast => if_pos hpast⟩

/-! ### The look ahead (R102 to R104) -/

theorem nextWarning_of_payable (now lead boundary : Nat) (w : Option Warning) :
    nextWarning now lead boundary false w = (none, false) := rfl

theorem nextWarning_of_active {boundary : Nat} {w : Warning} (h : w.boundary = boundary) (now lead : Nat) :
    nextWarning now lead boundary true (some w) = (some w, false) := if_pos h

/-- R102: the warning that becomes active for a boundary. -/
def Warning.fresh (now lead boundary : Nat) : Warning :=
  ⟨boundary, max now (boundary - lead), max now (boundary - lead) = now⟩

theorem nextWarning_of_other {boundary : Nat} {w : Option Warning} (h : ∀ old, w = some old → old.boundary ≠ boundary)
    (now lead : Nat) : nextWarning now lead boundary true w = (some (Warning.fresh now lead boundary), true) := by
  cases w with
  | none => rfl
  | some old => exact if_neg (h old rfl)

/-- R102, R104: the RATED context that a look ahead leaves, with the warning computed. -/
def State.lookedAhead (call : CallInfo) (c : RatedCall) (w : Option Warning) (s : State) : State :=
  let content := s.tariff.contentOf call.slot
  let runway := runwayOf c.rounding c.acc (content.stepAmount s.clock.band) s.available content.period (s.secondsTo c.nextBoundary)
  let computed : CallInfo :=
    { call with flags := { call.flags with runwaySaturated := call.flags.runwaySaturated || runway.2 } }
  { s with rating := { s.rating with context := .rated computed { c with warning := w, runway := runway.1 } } }

/-- R102: whether available credit does not pay the next step of a RATED call. -/
def State.unpayable (call : CallInfo) (c : RatedCall) (s : State) : Bool :=
  s.available < (stepCharge c.rounding c.acc ((s.tariff.contentOf call.slot).stepAmount s.clock.band)).charge

theorem State.lookAhead_of_warning {call : CallInfo} {c : RatedCall} {s : State} {w : Option Warning}
    {unpayable active : Bool} (h : s.rating.context = .rated call c) (hun : s.unpayable call c = unpayable)
    (hw : nextWarning s.now (s.settings.warningLead * 1000) c.nextBoundary unpayable c.warning = (w, active)) :
    s.lookAhead = if active then (s.lookedAhead call c w).raise .creditLow else s.lookedAhead call c w := by
  subst hun
  have hwarn := congrArg Prod.fst hw
  have hactive := congrArg Prod.snd hw
  dsimp only at hwarn hactive
  rw [State.lookAhead, h, ← hwarn, ← hactive]
  rfl

/-- Settles O38. -/
theorem lookAheadWarnsOfTheNextBoundary : Obligations.LookAheadWarnsOfTheNextBoundary := by
  intro call c s hcontext content n runway start computed leaves
  have hleaves (w : Option Warning) : s.lookedAhead call c w = leaves w := rfl
  refine ⟨fun hpays => ?payable, fun hshort => ⟨fun w hw hboundary => ?active, fun hother => ?fresh⟩⟩
  case payable =>
    exact State.lookAhead_of_warning hcontext (decide_eq_false (Nat.not_lt.2 hpays)) (nextWarning_of_payable ..)
  case active =>
    have hwarn := nextWarning_of_active hboundary s.now (s.settings.warningLead * 1000)
    rw [← hw] at hwarn
    exact (State.lookAhead_of_warning hcontext (decide_eq_true hshort) hwarn).trans (congrArg leaves hw)
  case fresh =>
    exact State.lookAhead_of_warning hcontext (decide_eq_true hshort) (nextWarning_of_other hother ..)

/-! ### The call number -/

theorem Rating.placeUnrecovered_callNumber (n : Nat) (r : Rating) : (r.placeUnrecovered n).callNumber = r.callNumber := by
  unfold Rating.placeUnrecovered
  (repeat' split) <;> rfl

theorem State.writeOff_callNumber (s : State) : s.writeOff.rating.callNumber = s.rating.callNumber :=
  foldl_keeps (fun s : State => s.rating.callNumber) (fun s e => s.writeOffEntry e)
    (fun s e => Rating.placeUnrecovered_callNumber e.call s.rating) s.credit.owed s

theorem State.requestCollect_callNumber (s : State) : s.requestCollect.rating.callNumber = s.rating.callNumber := by
  unfold State.requestCollect
  split
  · rfl
  · split
    · rfl
    · exact State.writeOff_callNumber s

theorem State.settle_callNumber (s : State) : s.settle.rating.callNumber = s.rating.callNumber := by
  unfold State.settle
  dsimp only
  (repeat' split)
  · rfl
  · rfl
  · exact State.writeOff_callNumber _
  · exact State.requestCollect_callNumber _

theorem State.makeRoom_callNumber (call : Nat) (s : State) : (s.makeRoom call).rating.callNumber = s.rating.callNumber := by
  unfold State.makeRoom
  (repeat' split)
  · rfl
  · exact Rating.placeUnrecovered_callNumber ..
  · rfl

theorem State.takeCharge_callNumber (call charge : Nat) (s : State) :
    (s.takeCharge call charge).rating.callNumber = s.rating.callNumber := by
  unfold State.takeCharge
  split
  · rfl
  · exact (State.settle_callNumber _).trans (State.makeRoom_callNumber call s)

theorem State.lookAhead_callNumber (s : State) : s.lookAhead.rating.callNumber = s.rating.callNumber := by
  unfold State.lookAhead
  split
  · dsimp only
    split <;> rfl
  · rfl

/-! ### Cutoff (R101) -/

theorem Rating.endCall_callNumber (now : Nat) (r : Rating) : (r.endCall now).callNumber = r.callNumber := by
  unfold Rating.endCall
  split <;> rfl

theorem Rating.endCall_of_empty {r : Rating} (h : r.context = .empty) (now : Nat) : r.endCall now = r := by
  rw [Rating.endCall, h]

theorem Rating.endCall_context (now : Nat) (r : Rating) : (r.endCall now).context = .empty := by
  unfold Rating.endCall
  split
  next h => exact h
  all_goals rfl

/-! ### The end of a call (R90, R106, R108, R123, R142) -/

theorem Rating.endCall_of_placed {r : Rating} {call : CallInfo} (h : r.context = .placed call) (now : Nat) :
    r.endCall now = { r with context := .empty } := by
  rw [Rating.endCall, h]

theorem Rating.endCall_of_unrated {r : Rating} {call : CallInfo} {t : Nat} (h : r.context = .unrated call t) (now : Nat) :
    r.endCall now = r.close (call.summary (min 4294967295 ((now - t) / 1000)) 0 0) := by
  rw [Rating.endCall, h]

/-- R112, R123: the line as the end of a call the session holds leaves it. -/
def State.sessionReleased (s : State) : Line :=
  if s.lineOwner = some .session ∧ s.line.state.seized = true then
    { s.line with state := .releasing, call := none, deadline := s.now + 900, presumedEnds := none, phase := .sent,
                  sending := none, sessionRequest := none }
  else { s.line with sessionRequest := none }

theorem State.withdraw_askRelease (s : State) :
    (s.withdrawRequest .session).askRelease .session = s.setLine s.sessionReleased := by
  unfold State.sessionReleased
  by_cases h : s.lineOwner = some .session ∧ s.line.state.seized = true
  · rw [if_pos h]
    exact if_pos h
  · rw [if_neg h]
    exact if_neg h

/-- R142: the state that the end of a call leaves, the rating unit's part and the call number given. -/
def State.endedWith (cause : EndCause) (d : Decision) (r : Rating) (callNumber : Nat) (s : State) : State := { s with
  rating := r
  line := s.sessionReleased
  tariff := s.tariff.releasePin d.slot
  session := { s.session with
    decision := none, threshold := none, eventCount := (s.session.eventCount + 1) % 65536
    event := some { event := .ended cause, symbols := s.session.buffer, slot := some d.slot, category := some d.category,
                    threshold := none, callNumber := if s.session.state = .awaitCredit then none else some callNumber } }
  attention := { s.attention with flags := { s.attention.flags with callEvent := true } } }

theorem State.endCall_of_some {s : State} {d : Decision} (h : s.session.decision = some d) (cause : EndCause) :
    s.endCall cause = s.endedWith cause d (s.rating.endCall s.now) s.rating.callNumber := by
  have hline := State.withdraw_askRelease (s.setRating (s.rating.endCall s.now))
  unfold State.endCall
  rw [h]
  simp only [hline]
  rfl

/-- R142: the end of a call reads of the rating unit what its context's end leaves, and the call number. -/
theorem State.endCall_setRating {s : State} {r : Rating} {d : Decision} (hd : s.session.decision = some d)
    (h : r.endCall s.now = s.rating.endCall s.now) (hnumber : r.callNumber = s.rating.callNumber) (cause : EndCause) :
    (s.setRating r).endCall cause = s.endCall cause := by
  rw [State.endCall_of_some hd, State.endCall_of_some (s := s.setRating r) hd]
  change (s.setRating r).endedWith cause d (r.endCall s.now) r.callNumber = _
  rw [h, hnumber]
  rfl

theorem State.cutOff_of_some {s : State} {d : Decision} (hstate : s.session.state.holdsCall = true)
    (hd : s.session.decision = some d) : s.cutOff = s.endCallToEnded .cutoff := by
  have hends := State.endCall_setRating (r := s.rating.endCall s.now) hd
    (Rating.endCall_of_empty (Rating.endCall_context ..) _) (Rating.endCall_callNumber ..) .cutoff
  calc s.cutOff = (s.setRating (s.rating.endCall s.now)).endCallToEnded .cutoff := if_pos hstate
    _ = s.endCallToEnded .cutoff := by
      rw [State.endCallToEnded, hends]
      rfl

/-- Settles O42. -/
theorem callEndClosesEverythingTheCallHeld : Obligations.CallEndClosesEverythingTheCallHeld := by
  refine ⟨fun now r => ⟨fun h => Rating.endCall_of_empty h now, fun call h => Rating.endCall_of_placed h now,
    fun call answeredAt steps total => ?answered⟩, fun t slot => rfl, fun cause d s hd => ?ended⟩
  case answered =>
    rintro (⟨c, h, rfl, rfl, rfl⟩ | ⟨h, rfl, rfl⟩)
    · exact Rating.endCall_of_rated h now
    · exact Rating.endCall_of_unrated h now
  case ended =>
    intro released number ended
    have hends : s.endCall cause = ended := State.endCall_of_some hd cause
    have htone : cause.tone = if cause = .busy then .busy else .reorder := by cases cause <;> rfl
    refine ⟨hends, ?_⟩
    rw [State.endCallToEnded, hends, htone]
    rfl

end Sys2Proof.Machine
end

/-! ## The answer and the step boundaries (sections 6.5 and 6.6) -/

section
namespace Sys2Proof.Machine

/-! ### The rating unit at the answer (R98, R99) -/

/-- R98: the call flags with the mark of a presumed answer. -/
def CallInfo.markedAs (presumed : Bool) (call : CallInfo) : CallInfo :=
  { call with flags := { call.flags with presumedAnswer := call.flags.presumedAnswer || presumed } }

theorem State.rateAnswer_of_free {s : State} {call : CallInfo} (h : s.rating.context = .placed call)
    (hfree : call.category ≠ .charged) (presumed : Bool) :
    s.rateAnswer presumed = (s.setRating { s.rating with context := .unrated (call.markedAs presumed) s.now }, false) := by
  rw [State.rateAnswer, h]
  exact if_neg hfree

section
variable {s : State} {call : CallInfo} (h : s.rating.context = .placed call) (hcharged : call.category = .charged)
  {content : TariffContent} (hcontent : s.tariff.contentOf call.slot = content)
  {step : StepCharge} (hstep : stepCharge (content.rounding.resolve s.settings.rounding) 0 (content.stepAmount s.clock.band) = step)
include h hcharged hcontent hstep

theorem State.rateAnswer_of_short (hshort : s.available < content.connection + step.charge) (presumed : Bool) :
    s.rateAnswer presumed = (s.setRating { s.rating with
      context := .rated (call.markedAs presumed)
        (answeredContext s.now (content.rounding.resolve s.settings.rounding) s.clock.band) }, true) := by
  subst hcontent hstep
  rw [State.rateAnswer, h]
  exact (if_pos hcharged).trans (if_pos hshort)

theorem State.rateAnswer_of_payable (hpays : content.connection + step.charge ≤ s.available) (presumed : Bool) :
    s.rateAnswer presumed = ((((s.setRating { s.rating with
      context := enterStep step content.connection s.clock.band content.period (call.markedAs presumed)
        (answeredContext s.now (content.rounding.resolve s.settings.rounding) s.clock.band) }).takeCharge call.number
          content.connection).takeCharge call.number step.charge).lookAhead, false) := by
  subst hcontent hstep
  rw [State.rateAnswer, h]
  exact (if_pos hcharged).trans (if_neg (Nat.not_lt.2 hpays))

end

/-- R98: the first step's charge is the first of the call. -/
theorem enterStep_answeredContext (step : StepCharge) (besides : Nat) (band : Fin 4) (period : Nat) (call : CallInfo) (now : Nat)
    (rounding : Rounding) : enterStep step besides band period call (answeredContext now rounding band) =
      .rated { call with flags := call.flags.union (CallFlags.ofCharge rounding step) }
        { answeredContext now rounding band with
          acc := step.acc, steps := 1, total := min 4294967295 (besides + step.charge), nextBoundary := now + period * 1000 } := by
  simp [enterStep, answeredContext, satAdd, top32]

/-! ### The session and the line at the answer (R121, R141) -/

theorem State.sessionAnswered_of_ringing {s : State} {d : Decision} (hstate : s.session.state = .ringing)
    (hd : s.session.decision = some d) (presumed : Bool) : s.sessionAnswered presumed =
      let rated := (s.setSession { s.session with state := .connected }).rateAnswer presumed
      let t := rated.1.recordEvent .answered (some d.slot) (some d.category) none (some rated.1.rating.callNumber)
      if rated.2 then t.cutOff else t := by
  rw [State.sessionAnswered, hstate, hd]

theorem State.lineAnswered_of_session {s : State} (h : s.lineOwner = some .session) (presumed : Bool) :
    s.lineAnswered presumed = (s.setLine s.line.answered).sessionAnswered presumed := by
  rw [State.lineAnswered, h]

theorem Line.modeIs_of_call {l : Line} {c : LineCall} (h : l.call = some c) (mode : AnswerMode) :
    l.modeIs mode = decide (c.request.answerMode = mode) := by
  rw [Line.modeIs, h]

theorem State.reversePolarity_of_awaitAnswer {s : State} (hmode : s.line.modeIs .signalled = true)
    (hstate : s.line.state = .awaitAnswer) : s.reversePolarity = s.lineAnswered false := by
  rw [State.reversePolarity, if_pos hmode, hstate]

theorem Line.presumedAnswerAt_of_some {l : Line} {t : Nat} (h : l.presumedEnds = some t) (hlimit : t ≤ l.deadline) :
    l.presumedAnswerAt = some t := by
  rw [Line.presumedAnswerAt, h]
  exact if_pos (decide_eq_true hlimit)

theorem State.endPresumedDelay_of_ended {s : State} {t : Nat} (hstate : s.line.state = .awaitAnswer)
    (ht : s.line.presumedAnswerAt = some t) (hended : t ≤ s.now) : s.endPresumedDelay = s.lineAnswered true := by
  rw [State.endPresumedDelay, hstate, ht]
  simp only [State.reach_of_le hended]

/-- Settles O39: by the category, and for a CHARGED call by what available credit pays. -/
theorem answerRatesTheCall : Obligations.AnswerRatesTheCall := by
  intro presumed line d call s hmain hline hcall howner hsignalled hpresumed hstate hd hcontext cmd marked connected answered
  have howns : s.lineOwner = some .session := by rw [State.lineOwner, hcall, Option.map_some, howner]
  have hcmd : exec cmd s = .next (s.lineAnswered presumed) := by
    cases presumed with
    | false =>
      have hmode : s.line.modeIs .signalled = true := by rw [Line.modeIs_of_call hcall, hsignalled rfl]; rfl
      rw [← State.reversePolarity_of_awaitAnswer hmode hline]
      exact congrArg Host.Outcome.next (State.whilePowered_of_main hmain)
    | true =>
      obtain ⟨t, ht, hlimit, hended⟩ := hpresumed rfl
      rw [← State.endPresumedDelay_of_ended hline (Line.presumedAnswerAt_of_some ht hlimit) hended]
      exact congrArg Host.Outcome.next (State.whilePowered_of_main hmain)
  let u : State := connected s.rating.context
  have hanswered : s.lineAnswered presumed =
      if (u.rateAnswer presumed).2 then
        ((u.rateAnswer presumed).1.recordEvent .answered (some d.slot) (some d.category) none
          (some (u.rateAnswer presumed).1.rating.callNumber)).cutOff
      else (u.rateAnswer presumed).1.recordEvent .answered (some d.slot) (some d.category) none
          (some (u.rateAnswer presumed).1.rating.callNumber) :=
    (State.lineAnswered_of_session howns presumed).trans
      (State.sessionAnswered_of_ringing (s := s.setLine s.line.answered) hstate hd presumed)
  rw [hcmd, hanswered]
  refine ⟨fun hfree => ?free, fun hcharged => ?charged⟩
  case free =>
    rw [State.rateAnswer_of_free (s := u) hcontext hfree]
    rfl
  case charged =>
    intro content band rounding step begun
    have hrounding : content.rounding.resolve s.settings.rounding = rounding := by
      unfold RecordRounding.resolve
      rfl
    have hstep : stepCharge (content.rounding.resolve u.settings.rounding) 0 (content.stepAmount u.clock.band) = step :=
      congrArg (fun r => stepCharge r 0 (content.stepAmount band)) hrounding
    refine ⟨fun hpays => ?_, fun hshort => ?_⟩
    · rw [State.rateAnswer_of_payable (s := u) hcontext hcharged rfl hstep (by exact hpays), hrounding]
      simp only [Bool.false_eq_true, if_false, State.lookAhead_callNumber, State.takeCharge_callNumber,
        enterStep_answeredContext]
      rfl
    · rw [State.rateAnswer_of_short (s := u) hcontext hcharged rfl hstep (by exact hshort), hrounding]
      exact congrArg Host.Outcome.next
        (State.cutOff_of_some (s := answered (connected (.rated marked begun))) (d := d) rfl (by exact hd))

/-! ### A step boundary (R100, R101) -/

theorem State.stepBoundary_of_rated {s : State} {call : CallInfo} {c : RatedCall} (h : s.rating.context = .rated call c)
    (hended : c.nextBoundary ≤ s.now) : s.stepBoundary =
      (s.setRating { s.rating with context := .rated call { c with warning := none } }).beginStep call { c with warning := none } := by
  rw [State.stepBoundary, h]
  simp only [State.reach_of_le hended]

/-- R101: the state in which a boundary finds credit short is as before it but for the warning, which no end of a call reads. -/
theorem State.cutOff_of_warningEnded {s : State} {call : CallInfo} {c : RatedCall} {d : Decision}
    (h : s.rating.context = .rated call c) (hstate : s.session.state.holdsCall = true) (hd : s.session.decision = some d) :
    (s.setRating { s.rating with context := .rated call { c with warning := none } }).cutOff = s.endCallToEnded .cutoff := by
  have hsame : ({ s.rating with context := .rated call { c with warning := none } } : Rating).endCall s.now =
      s.rating.endCall s.now := by
    rw [Rating.endCall_of_rated h, Rating.endCall_of_rated rfl]
    rfl
  have hends := State.endCall_setRating (r := { s.rating with context := .rated call { c with warning := none } }) hd hsame rfl
    .cutoff
  rw [State.cutOff_of_some (by exact hstate) (by exact hd), State.endCallToEnded, hends]
  rfl

/-- Settles O40. -/
theorem stepBoundaryChargesOrCutsOff : Obligations.StepBoundaryChargesOrCutsOff := by
  intro call c s hmain hcontext
  refine ⟨fun hended => ?boundary, fun w hw hplaying hstart => ?tone⟩
  case boundary =>
    intro content band step
    have hexec : exec .stepBoundary s = .next s.stepBoundary := congrArg Host.Outcome.next (State.whilePowered_of_main hmain)
    rw [hexec, State.stepBoundary_of_rated hcontext hended]
    refine ⟨fun hpays => ?_, fun hshort hstate hd => ?_⟩
    · intro flags charged begun
      have hentered : enterStep step 0 band content.period { call with flags := flags } { c with warning := none } =
          .rated charged begun := by
        simp [enterStep, charged, begun, satAdd]
      refine congrArg Host.Outcome.next ((if_neg (Nat.not_lt.2 hpays)).trans ?_)
      exact congrArg (fun context => State.lookAhead (State.takeCharge call.number step.charge
        { s with rating := { s.rating with context := context } })) hentered
    · obtain ⟨d, hd⟩ := Option.isSome_iff_exists.1 hd
      refine congrArg Host.Outcome.next ((if_pos hshort).trans ?_)
      exact State.cutOff_of_warningEnded hcontext (by rw [hstate]; rfl) hd
  case tone =>
    refine congrArg Host.Outcome.next ((State.whilePowered_of_main hmain).trans ?_)
    rw [State.startWarningTone, hcontext]
    simp only [hw, hplaying, Bool.false_eq_true, if_false, State.reach_of_le hstart]
    rfl

end Sys2Proof.Machine
end

/-! ## The line: seizure, dial tone, the ends of a call, and line presence (sections 7.2 to 7.7) -/

section
namespace Sys2Proof.Machine

/-! ### What the line controller ends (R123) -/

theorem State.endCallToEnded_setLine_release {s : State} {d : Decision} (howns : s.lineOwner = some .session)
    (hseized : s.line.state.seized = true) (hd : s.session.decision = some d) (cause : EndCause) :
    (s.setLine (s.line.release s.now)).endCallToEnded cause = s.endCallToEnded cause := by
  have hreleased : (s.setLine (s.line.release s.now)).sessionReleased = s.sessionReleased := by
    rw [State.sessionReleased, if_neg (fun hc => by cases hc.1), State.sessionReleased, if_pos ⟨howns, hseized⟩]
    rfl
  rw [State.endCallToEnded, State.endCallToEnded, State.endCall_of_some (by exact hd), State.endCall_of_some hd,
    State.endedWith, State.endedWith, hreleased]
  rfl

/-- R123: a caller's call that the line controller ends, ends once. -/
theorem State.lineEnds_of_session {s : State} {d : Decision} (howns : s.lineOwner = some .session)
    (hseized : s.line.state.seized = true) (hholds : s.session.state.holdsCall = true) (hd : s.session.decision = some d)
    (cause : EndCause) : s.lineEnds cause = s.endCallToEnded cause := by
  rw [State.lineEnds, howns]
  exact (if_pos hholds).trans (State.endCallToEnded_setLine_release howns hseized hd cause)

theorem State.lineEnds_of_report {s : State} (howns : s.lineOwner = some .report) (honLine : s.report.state.onLine = true)
    (cause : EndCause) : s.lineEnds cause = State.reportFail true { s with line := s.line.release s.now } := by
  rw [State.lineEnds, howns]
  exact if_pos honLine

theorem ReportState.onLine_iff {state : ReportState} :
    state.onLine = true ↔ state = .calling ∨ state = .sending ∨ state = .awaitReply := by
  cases state <;> simp [ReportState.onLine]

/-! ### The grant (R113) -/

theorem State.grantable_of_session {s : State} {r : LineRequest} (hfree : s.line.state = .free) (hnormal : s.normal .line = true)
    (h : s.line.sessionRequest = some r) : s.grantable = some (.session, r) := by
  rw [State.grantable, if_pos ⟨hfree, hnormal⟩, h]

theorem State.grantable_of_report {s : State} {r : LineRequest} (hfree : s.line.state = .free) (hnormal : s.normal .line = true)
    (hsession : s.line.sessionRequest = none) (h : s.line.reportRequest = some r) (hidle : s.session.state = .idle) :
    s.grantable = some (.report, r) := by
  rw [State.grantable, if_pos ⟨hfree, hnormal⟩, hsession, h]
  exact if_pos hidle

theorem State.grantable_of_none {s : State} (h : s.line.state ≠ .free ∨ s.normal .line = false ∨
    s.line.sessionRequest = none ∧ (s.line.reportRequest = none ∨ s.session.state ≠ .idle)) : s.grantable = none := by
  unfold State.grantable
  obtain hbusy | habnormal | ⟨hsession, hreport⟩ := h
  · exact if_neg fun hc => hbusy hc.1
  · exact if_neg fun hc => by simp [habnormal] at hc
  · rw [hsession]
    split
    · cases hr : s.line.reportRequest with
      | none => rfl
      | some r => exact if_neg fun hidle => hreport.elim (fun hnone => by simp [hnone] at hr) fun hout => hout hidle
    · rfl

theorem State.makeGrant_of_none {s : State} (h : s.grantable = none) : s.makeGrant = s := by
  rw [State.makeGrant, h]

theorem State.makeGrant_of_session {s : State} {r : LineRequest} (h : s.grantable = some (.session, r)) :
    s.makeGrant = s.setLine (s.line.grant s.now .session r) := by
  rw [State.makeGrant, h]

theorem State.makeGrant_of_report {s : State} {r : LineRequest} (h : s.grantable = some (.report, r)) :
    s.makeGrant = { s with
      line := s.line.grant s.now .report r
      report := if s.report.state = .waitLine then { s.report with state := .calling } else s.report } := by
  rw [State.makeGrant, h]
  by_cases hwait : s.report.state = .waitLine
  · rw [if_pos hwait]
    exact if_pos hwait
  · rw [if_neg hwait]
    exact if_neg hwait

/-! ### Dial tone (R116, R117) -/

theorem Line.startDialling_of_call {l : Line} {call : LineCall} (h : l.call = some call) (now : Nat) :
    l.startDialling now = { l with
      state := .dialling
      call := some { call with position := 0 }
      phase := match call.request.method, call.request.dialString with
        | _, [] => .sent
        | .tone, _ :: _ => .tone
        | .pulse, k :: _ => .pulseBreak (if k = 0 then 10 else k.val)
      phaseEnds := now + match call.request.method, call.request.dialString with
        | _, [] => 0
        | .tone, _ :: _ => 70
        | .pulse, _ :: _ => 60 } := by
  rw [Line.startDialling, h]
  cases hstring : call.request.dialString with
  | nil => cases call.request.method <;> simp [hstring, DialPhase.duration]
  | cons k later => cases hmethod : call.request.method <;> simp [hstring, hmethod, firstPhase, pulsesOf, DialPhase.duration]

theorem State.countDialToneFailure_eq (s : State) : s.countDialToneFailure =
    let u : State := { s with line := { s.line with streak := min 3 (s.line.streak + 1) } }
    if 2 ≤ s.line.streak ∧ s.normal .dialtone = true then
      State.occurrence .dialtone .noDialTone .fault (State.setNormality .dialtone true u)
    else u := by
  have hthird : (min 3 (s.line.streak + 1) = 3 ∧ s.normal .dialtone = true) ↔
      (2 ≤ s.line.streak ∧ s.normal .dialtone = true) := and_congr_left' (by omega)
  unfold State.countDialToneFailure
  simp only [State.normal, State.setLine_sup] at hthird ⊢
  simp only [hthird]
  rfl

/-- Settles O43. -/
theorem seizureAndDialTone : Obligations.SeizureAndDialTone := by
  refine ⟨fun st owner string => ?request, fun s hmain => ?grant, fun s hmain hstate => ?heard, fun s hmain hended => ?fails⟩
  case request => cases owner <;> rfl
  case grant =>
    intro granted
    have hexec {work : State → State} : s.whilePowered work = work s := State.whilePowered_of_main hmain
    have hgrant : exec .lineGrant s = .next s.makeGrant := congrArg Host.Outcome.next hexec
    refine ⟨fun hfree hnormal => ⟨fun r hr => ?_, fun r hsession hr hidle => ?_⟩, fun hnone => ?_, fun hseizing => ?_,
      fun hother => ?_, fun hother => ?_⟩
    · rw [hgrant, State.makeGrant_of_session (State.grantable_of_session hfree hnormal hr)]
      rfl
    · rw [hgrant, State.makeGrant_of_report (State.grantable_of_report hfree hnormal hsession hr hidle)]
      rfl
    · rw [hgrant, State.makeGrant_of_none (State.grantable_of_none hnone)]
    · exact congrArg Host.Outcome.next (hexec.trans (if_pos hseizing))
    · exact congrArg Host.Outcome.next (hexec.trans (if_neg hother))
    · exact congrArg Host.Outcome.next (hexec.trans (if_neg hother))
  case heard =>
    intro heard call hcall
    refine congrArg Host.Outcome.next ((State.whilePowered_of_main hmain).trans ((if_pos hstate).trans ?_))
    exact congrArg (fun l => { heard with line := l }) (Line.startDialling_of_call hcall heard.now)
  case fails =>
    intro counted failed hheld
    have hcounted (t : State) : t.countDialToneFailure = counted t := t.countDialToneFailure_eq
    have hfailed (hseized : s.line.state.seized = true) : s.failDialTone = counted failed := by
      have hends : s.lineEnds .dialToneFailure = failed := by
        obtain ⟨howns, hcalling⟩ | ⟨howns, hplacing, hd⟩ := hheld
        · rw [State.lineEnds_of_report howns (by rw [hcalling]; rfl)]
          exact (if_pos howns).symm
        · obtain ⟨d, hd⟩ := Option.isSome_iff_exists.1 hd
          rw [State.lineEnds_of_session howns hseized (by rw [hplacing]; rfl) hd]
          exact (if_neg (by simp [howns])).symm
      rw [State.failDialTone, State.reach_of_le hended, hends, hcounted]
    refine ⟨fun hstate => ?_, fun hstate => ?_⟩
    all_goals
      refine congrArg Host.Outcome.next ((State.whilePowered_of_main hmain).trans ((if_pos hstate).trans ?_))
      exact hfailed (by rw [hstate]; rfl)

/-! ### The ends the line controller gives (R116, R120 to R124) -/

theorem Line.modeIs_iff {l : Line} {mode : AnswerMode} :
    l.modeIs mode = true ↔ ∃ call, l.call = some call ∧ call.request.answerMode = mode := by
  unfold Line.modeIs
  cases l.call <;> simp

theorem DialPhase.pulsing_iff {phase : DialPhase} :
    phase.pulsing = true ↔ ∃ left, phase = .pulseBreak left ∨ phase = .pulseMake left := by
  cases phase <;> simp [DialPhase.pulsing]

theorem Line.not_modeIs_signalled {l : Line} (h : l.modeIs .presumed = true) : ¬ l.modeIs .signalled = true := by
  obtain ⟨call, hcall, hmode⟩ := Line.modeIs_iff.1 h
  intro hsignalled
  obtain ⟨call', hcall', hmode'⟩ := Line.modeIs_iff.1 hsignalled
  cases hcall.symm.trans hcall'
  cases hmode.symm.trans hmode'

theorem Line.not_modeIs_presumed {l : Line} (h : l.modeIs .signalled = true) : ¬ l.modeIs .presumed = true :=
  fun hpresumed => Line.not_modeIs_signalled hpresumed h

theorem Line.noAnswerAt_eq_some {l : Line} (h : ∀ t, l.presumedEnds = some t → l.deadline ≤ t) :
    l.noAnswerAt = some l.deadline := by
  refine if_neg fun hany => ?_
  obtain ⟨t, ht, hlt⟩ := (Option.any_eq_true _ _).1 hany
  have := h t ht
  simp only [decide_eq_true_eq] at hlt
  omega

theorem Line.noAnswerAt_eq_none {l : Line} {t : Nat} (h : l.presumedEnds = some t) (hlt : t < l.deadline) :
    l.noAnswerAt = none := by
  rw [Line.noAnswerAt, h]
  exact if_pos (decide_eq_true hlt)

theorem Line.presumedAnswerAt_eq_none {l : Line} {t : Nat} (h : l.presumedEnds = some t) (hlt : l.deadline < t) :
    l.presumedAnswerAt = none := by
  rw [Line.presumedAnswerAt, h]
  simp [Option.filter, hlt]

theorem State.endAnswerWait_of_ended {s : State} (hstate : s.line.state = .awaitAnswer) (hended : s.line.deadline ≤ s.now)
    (hfirst : ∀ t, s.line.presumedEnds = some t → s.line.deadline ≤ t) : s.endAnswerWait = s.lineEnds .noAnswer := by
  rw [State.endAnswerWait, hstate, Line.noAnswerAt_eq_some hfirst]
  exact congrArg (State.lineEnds .noAnswer) (State.reach_of_le hended)

theorem State.hearBusy_of_dialled {s : State} (h : s.line.state = .dialling ∨ s.line.state = .awaitAnswer) :
    s.hearBusy = s.lineEnds .busy := by
  unfold State.hearBusy
  obtain h | h := h <;> rw [h]

theorem State.hearBusy_of_connected {s : State} (h : s.line.state = .connected) :
    s.hearBusy = if s.line.modeIs .presumed then s.lineEnds .farEndClear else s := by
  rw [State.hearBusy, h]

theorem State.loseLine_of_closed {s : State} (h : s.line.state = .awaitDialTone ∨
    s.line.state = .dialling ∧ ¬ s.line.phase.pulsing = true ∨ s.line.state = .awaitAnswer ∨ s.line.state = .connected) :
    s.loseLine = s.lineEnds .lineLost := by
  unfold State.loseLine
  obtain h | ⟨h, hnot⟩ | h | h := h <;> rw [h]
  exact if_neg hnot

theorem State.reversePolarity_of_connected {s : State} (h : s.line.state = .connected) (hmode : s.line.modeIs .signalled = true) :
    s.reversePolarity = s.lineEnds .farEndClear := by
  rw [State.reversePolarity, if_pos hmode, h]

/-- The commands with which the line controller ends a call, each with the end cause it hands on. -/
def State.EndsCall (s : State) (cmd : Instr) (cause : EndCause) : Prop :=
  cmd = .busyClassified ∧ cause = .busy ∧ (s.line.state = .dialling ∨ s.line.state = .awaitAnswer) ∨
  cmd = .busyClassified ∧ cause = .farEndClear ∧ s.line.state = .connected ∧ s.line.modeIs .presumed = true ∨
  cmd = .polarityReversal ∧ cause = .farEndClear ∧ s.line.state = .connected ∧ s.line.modeIs .signalled = true ∨
  cmd = .answerWaitEnd ∧ cause = .noAnswer ∧ s.line.state = .awaitAnswer ∧ s.line.deadline ≤ s.now ∧
    (∀ t, s.line.presumedEnds = some t → s.line.deadline ≤ t) ∨
  cmd = .loopCurrentLoss ∧ cause = .lineLost ∧ (s.line.state = .awaitDialTone ∨
    s.line.state = .dialling ∧ ¬ s.line.phase.pulsing = true ∨ s.line.state = .awaitAnswer ∨ s.line.state = .connected)

theorem State.EndsCall.seized {s : State} {cmd : Instr} {cause : EndCause} (h : s.EndsCall cmd cause) :
    s.line.state.seized = true := by
  obtain ⟨-, -, h⟩ | ⟨-, -, h, -⟩ | ⟨-, -, h, -⟩ | ⟨-, -, h, -⟩ | ⟨-, -, h⟩ := h
  · obtain h | h := h <;> rw [h] <;> rfl
  · rw [h]; rfl
  · rw [h]; rfl
  · rw [h]; rfl
  · obtain h | ⟨h, -⟩ | h | h := h <;> rw [h] <;> rfl

theorem State.EndsCall.exec_eq {s : State} {cmd : Instr} {cause : EndCause} (h : s.EndsCall cmd cause)
    (hmain : s.supplies.main = true) : exec cmd s = .next (s.lineEnds cause) := by
  have hexec {work : State → State} : s.whilePowered work = work s := State.whilePowered_of_main hmain
  obtain ⟨rfl, rfl, h⟩ | ⟨rfl, rfl, h, hmode⟩ | ⟨rfl, rfl, h, hmode⟩ | ⟨rfl, rfl, h, hended, hfirst⟩ | ⟨rfl, rfl, h⟩ := h
  · exact congrArg Host.Outcome.next (hexec.trans (State.hearBusy_of_dialled h))
  · exact congrArg Host.Outcome.next (hexec.trans ((State.hearBusy_of_connected h).trans (if_pos hmode)))
  · exact congrArg Host.Outcome.next (hexec.trans (State.reversePolarity_of_connected h hmode))
  · exact congrArg Host.Outcome.next (hexec.trans (State.endAnswerWait_of_ended h hended hfirst))
  · exact congrArg Host.Outcome.next (hexec.trans (State.loseLine_of_closed h))

theorem State.awaitsReply_of_not_connected {s : State} (h : s.line.state ≠ .connected) : s.awaitsReply = false := by
  simp [State.awaitsReply, h]

/-- Settles O45: each end the line controller gives is `lineEnds`, once. -/
theorem lineControllerEndsTheCall : Obligations.LineControllerEndsTheCall := by
  intro s hmain mode pulsing gives
  have hexec {work : State → State} : s.whilePowered work = work s := State.whilePowered_of_main hmain
  have hmode (m : AnswerMode) : mode m ↔ s.line.modeIs m = true := Line.modeIs_iff.symm
  have hpulsing : pulsing ↔ s.line.phase.pulsing = true := DialPhase.pulsing_iff.symm
  have hgives {cmd : Instr} {cause : EndCause} (h : gives cmd cause) : s.EndsCall cmd cause := by
    simpa only [gives, State.EndsCall, hmode, hpulsing] using h
  refine ⟨fun cmd cause hcmd => ⟨fun howns hholds hd => ?_, fun howns hcalls => ?_⟩, fun hstate => ⟨?_, ?_⟩,
    fun ⟨hstate, hpulse⟩ => ?_, fun t ht => ⟨fun hlong => ?_, fun hshort => ?_⟩, fun hstate => ?_, fun hstate => ?_,
    fun hstate => ⟨?_, ?_⟩⟩
  · obtain ⟨d, hd⟩ := Option.isSome_iff_exists.1 hd
    rw [(hgives hcmd).exec_eq hmain, State.lineEnds_of_session howns (hgives hcmd).seized hholds hd]
  · rw [(hgives hcmd).exec_eq hmain, State.lineEnds_of_report howns (ReportState.onLine_iff.2 hcalls)]
    rfl
  · refine congrArg Host.Outcome.next (hexec.trans ?_)
    obtain h | h | h := hstate <;> rw [State.hearBusy, h]
  · refine congrArg Host.Outcome.next (hexec.trans ?_)
    obtain h | h | h := hstate <;> rw [State.loseLine, h]
  · refine congrArg Host.Outcome.next (hexec.trans ?_)
    rw [State.loseLine, hstate]
    exact if_pos (hpulsing.1 hpulse)
  · refine congrArg Host.Outcome.next (hexec.trans ?_)
    rw [State.endPresumedDelay, Line.presumedAnswerAt_eq_none ht hlong]
    split <;> simp_all
  · refine congrArg Host.Outcome.next (hexec.trans ?_)
    rw [State.endAnswerWait, Line.noAnswerAt_eq_none ht hshort]
    split <;> simp_all
  · refine congrArg Host.Outcome.next (hexec.trans ?_)
    obtain h | ⟨h, hsignalled⟩ := hstate
    · rw [State.hearBusy, h]
    · rw [State.hearBusy_of_connected h, if_neg (Line.not_modeIs_presumed ((hmode _).1 hsignalled))]
  · refine congrArg Host.Outcome.next (hexec.trans ?_)
    obtain hpresumed | ⟨hnotAwait, hnotConnected⟩ := hstate
    · exact if_neg (Line.not_modeIs_signalled ((hmode _).1 hpresumed))
    · unfold State.reversePolarity
      cases h : s.line.state <;> simp_all
  · refine congrArg Host.Outcome.next (hexec.trans ?_)
    rw [State.hearAcknowledge, State.awaitsReply_of_not_connected hstate]
    rfl
  · refine congrArg Host.Outcome.next (hexec.trans ?_)
    rw [State.hearRefuse, State.awaitsReply_of_not_connected hstate]
    rfl

/-! ### The guard and line presence (R123, R125) -/

theorem State.linePresent_of_waits {s : State} (hstate : (s.makeNormal .line).report.state = .scheduled)
    (htimer : (s.makeNormal .line).report.timer = some .waitingLine) :
    s.linePresent = (s.makeNormal .line).beginAttempt := if_pos ⟨hstate, htimer⟩

/-- Settles O46. -/
theorem guardEndAndLinePresence : Obligations.GuardEndAndLinePresence := by
  intro s hmain
  have hexec {work : State → State} : s.whilePowered work = work s := State.whilePowered_of_main hmain
  refine ⟨?guard, fun hstate => congrArg Host.Outcome.next (hexec.trans (if_neg hstate)),
    fun hnormal => congrArg Host.Outcome.next (hexec.trans (if_pos hnormal)),
    fun habnormal => congrArg Host.Outcome.next (hexec.trans (if_neg (by simp [habnormal]))), ?present⟩
  case guard =>
    intro hstate hended freed
    have hfreed : s.endGuard = if freed.report.state = .releasing then freed.afterAttempt else freed := by
      rw [State.endGuard, if_pos hstate, State.reach_of_le hended]
      rfl
    exact ⟨fun hreport => congrArg Host.Outcome.next (hexec.trans (hfreed.trans (if_neg hreport))),
      fun hreport => congrArg Host.Outcome.next (hexec.trans (hfreed.trans (if_pos hreport)))⟩
  case present =>
    intro present
    have hcentre : present.settings.centreNumber = s.settings.centreNumber := by simp [present]
    refine ⟨fun hstate htimer => ⟨fun hsome => ?_, fun hempty => ?_⟩, fun hstate => ?_, fun htimer => ?_⟩
    · refine congrArg Host.Outcome.next (hexec.trans ((State.linePresent_of_waits hstate htimer).trans (if_neg ?_)))
      exact fun hc => hsome (hcentre ▸ hc)
    · refine congrArg Host.Outcome.next (hexec.trans ((State.linePresent_of_waits hstate htimer).trans (if_pos ?_)))
      exact hcentre.trans hempty
    · exact congrArg Host.Outcome.next (hexec.trans (if_neg fun hc => hstate hc.1))
    · exact congrArg Host.Outcome.next (hexec.trans (if_neg fun hc => htimer hc.2))

end Sys2Proof.Machine
end

/-! ## Out-dialling and tone strings (sections 7.4 and 7.5) -/

section
namespace Sys2Proof.Machine

/-! ### The time the dialling takes (R118, R119) -/

/-- The milliseconds of a dialling after the phase in hand has ended, with the symbols from the one in hand on. -/
def DialPhase.restMs (method : DialMethod) (rest : List Symbol) : DialPhase → Nat
  | .tone => 70 + laterMs method (rest.drop 1)
  | .silence => laterMs method (rest.drop 1)
  | .pulseBreak left => 40 + (left - 1) * 100 + laterMs method (rest.drop 1)
  | .pulseMake left => (left - 1) * 100 + laterMs method (rest.drop 1)
  | .interDigit => match rest with
    | [] => 0
    | k :: later => symbolMs method k + laterMs method later
  | .sent => 0

theorem Line.diallingEnds_eq {l : Line} {call : LineCall} (h : l.call = some call) :
    l.diallingEnds = l.phaseEnds + l.phase.restMs call.request.method (call.request.dialString.drop call.position) := by
  rw [Line.diallingEnds, h]
  cases l.phase <;> rfl

theorem pulsesOf_pos (k : Symbol) : 1 ≤ pulsesOf k := by
  unfold pulsesOf
  split
  · omega
  · exact Nat.one_le_iff_ne_zero.2 (Fin.val_ne_zero_iff.2 ‹_›)

/-- A symbol takes its first phase and what is left after it. -/
theorem firstPhase_duration_add_restMs (method : DialMethod) (k : Symbol) (later : List Symbol) :
    (firstPhase method k).duration + (firstPhase method k).restMs method (k :: later) =
      symbolMs method k + laterMs method later := by
  have := pulsesOf_pos k
  cases method <;>
    simp only [firstPhase, DialPhase.duration, DialPhase.restMs, symbolMs, Config.toneMs, Config.silenceMs,
      Config.pulseBreakMs, Config.pulseMakeMs, List.drop_succ_cons, List.drop_zero] <;> omega

/-- What follows a symbol takes the time of the later symbols. -/
theorem afterSymbol_duration_add_restMs (method : DialMethod) (string : List Symbol) (position : Nat) :
    (afterSymbol method string position).duration +
        (afterSymbol method string position).restMs method (string.drop position) =
      laterMs method (string.drop position) := by
  unfold afterSymbol
  cases string.drop position with
  | nil => cases method <;> rfl
  | cons k later =>
    cases method with
    | tone => simpa [firstPhase, laterMs] using firstPhase_duration_add_restMs .tone k later
    | pulse => simp [DialPhase.duration, DialPhase.restMs, laterMs, Nat.add_assoc]

/-- Each timed point of out-dialling leaves the instant of its end where it is. -/
theorem DialPhase.next_duration_add_restMs (phase : DialPhase) (method : DialMethod) (string : List Symbol) (position : Nat) :
    (phase.next method string position).1.duration +
        (phase.next method string position).1.restMs method (string.drop (phase.next method string position).2) =
      phase.restMs method (string.drop position) := by
  have hafter := afterSymbol_duration_add_restMs method string (position + 1)
  cases phase with
  | tone => rfl
  | silence => simpa [DialPhase.next, DialPhase.restMs] using hafter
  | pulseBreak left => simp [DialPhase.next, DialPhase.restMs, DialPhase.duration, Nat.add_assoc]
  | pulseMake left =>
    by_cases hlast : 1 < left
    · simp only [DialPhase.next, if_pos hlast, DialPhase.restMs, DialPhase.duration, Config.pulseBreakMs]
      omega
    · have hleft : left - 1 = 0 := by omega
      simpa [DialPhase.next, if_neg hlast, DialPhase.restMs, hleft] using hafter
  | interDigit =>
    unfold DialPhase.next
    cases hrest : string.drop position with
    | nil => rfl
    | cons k later => simpa [hrest, DialPhase.restMs] using firstPhase_duration_add_restMs method k later
  | sent => rfl

theorem laterMs_tone (string : List Symbol) : laterMs .tone string = string.length * 140 := by
  induction string with
  | nil => rfl
  | cons k later ih =>
    simp only [laterMs, symbolMs, Config.toneMs, Config.silenceMs, ih, List.length_cons]
    simp only [reduceCtorEq, if_false]
    omega

theorem laterMs_pulse (string : List Symbol) :
    laterMs .pulse string = (string.map pulsesOf).sum * 100 + string.length * 700 := by
  induction string with
  | nil => rfl
  | cons k later ih =>
    simp only [laterMs, symbolMs, Config.pulseBreakMs, Config.pulseMakeMs, Config.interDigitMs, ih, List.length_cons,
      List.map_cons, List.sum_cons]
    simp only [if_true]
    omega

theorem Line.startDialling_diallingEnds {l : Line} {call : LineCall} (h : l.call = some call)
    (hsome : call.request.dialString ≠ []) (now : Nat) :
    (l.startDialling now).diallingEnds = now + if call.request.method = .tone then call.request.dialString.length * 140
      else (call.request.dialString.map pulsesOf).sum * 100 + (call.request.dialString.length - 1) * 700 := by
  obtain ⟨k, later, hstring⟩ := List.exists_cons_of_ne_nil hsome
  have hends : (l.startDialling now).diallingEnds = now + ((firstPhase call.request.method k).duration +
      (firstPhase call.request.method k).restMs call.request.method (k :: later)) := by
    rw [Line.startDialling, h]
    simp only [hstring]
    rw [Line.diallingEnds_eq rfl]
    simp only [hstring, List.drop_zero]
    omega
  rw [hends, firstPhase_duration_add_restMs, hstring]
  cases call.request.method with
  | tone =>
    simp only [laterMs_tone, symbolMs, Config.toneMs, Config.silenceMs, List.length_cons, if_true]
    omega
  | pulse =>
    simp only [laterMs_pulse, symbolMs, Config.pulseBreakMs, Config.pulseMakeMs, List.length_cons, List.map_cons,
      List.sum_cons, reduceCtorEq, if_false]
    omega

/-! ### The tone strings (R122) -/

theorem State.symbolTone_of_sending {s : State} {tones : ToneString} (hstate : s.line.state = .connected)
    (h : s.line.sending = some tones) :
    s.symbolTone = if tones.phase s.now = .tone then tones.symbols[tones.position s.now]? else none := by
  rw [State.symbolTone, hstate, h]

theorem State.symbolTone_of_dialling {s : State} {call : LineCall} (hstate : s.line.state = .dialling)
    (h : s.line.call = some call) :
    s.symbolTone = if s.line.phase = .tone then call.request.dialString[call.position]? else none := by
  rw [State.symbolTone, hstate, h]
  cases s.line.phase <;> rfl

theorem State.loopClosed_of_dialling {s : State} (hstate : s.line.state = .dialling)
    (h : ∀ left, s.line.phase ≠ .pulseBreak left) : s.loopClosed = true := by
  unfold State.loopClosed
  rw [hstate]
  cases hphase : s.line.phase
  case pulseBreak left => exact absurd hphase (h left)
  all_goals rfl

/-! ### The commands of out-dialling -/

/-- A timed point, with the phase and the position it leaves, keeps the instant at which the dialling ends. -/
theorem exec_dialSymbolSent {s : State} {call : LineCall} {phase : DialPhase} {position : Nat} (hmain : s.supplies.main = true)
    (hstate : s.line.state = .dialling) (hcall : s.line.call = some call) (hdue : s.line.phaseEnds ≤ s.now)
    (hphase : s.line.phase ≠ .sent)
    (hnext : s.line.phase.next call.request.method call.request.dialString call.position = (phase, position)) :
    exec .dialSymbolSent s = .next { s with line := { s.line with
        call := some { call with position := position }, phase := phase
        phaseEnds := s.line.phaseEnds + phase.duration } } ∧
      ({ s.line with
        call := some { call with position := position }, phase := phase
        phaseEnds := s.line.phaseEnds + phase.duration } : Line).diallingEnds = s.line.diallingEnds := by
  refine ⟨congrArg Host.Outcome.next ((State.whilePowered_of_main hmain).trans ((if_pos ⟨hstate, hphase⟩).trans ?_)), ?_⟩
  · rw [State.reach_of_le hdue, Line.dialPoint, hcall]
    dsimp only
    rw [hnext]
    rfl
  · have hkept := s.line.phase.next_duration_add_restMs call.request.method call.request.dialString call.position
    rw [hnext] at hkept
    rw [Line.diallingEnds_eq rfl, Line.diallingEnds_eq hcall, ← hkept]
    exact Nat.add_assoc _ _ _

theorem afterSymbol_of_more {method : DialMethod} {string : List Symbol} {position : Nat} (h : position < string.length) :
    afterSymbol method string position = match method with
      | .tone => .tone
      | .pulse => .interDigit := by
  unfold afterSymbol
  rw [List.drop_eq_getElem_cons h]
  cases method <;> rfl

theorem afterSymbol_of_last {method : DialMethod} {string : List Symbol} {position : Nat} (h : position = string.length) :
    afterSymbol method string position = .sent := by
  unfold afterSymbol
  rw [List.drop_eq_nil_of_le (Nat.le_of_eq h.symm)]

theorem State.startRinging_of_call {s : State} {call : LineCall} (h : s.line.call = some call) :
    s.startRinging = { s with session :=
      if call.owner = .session ∧ s.session.state = .placing then { s.session with state := .ringing } else s.session } := by
  have howner : s.lineOwner = some call.owner := by rw [State.lineOwner, h]; rfl
  rw [State.startRinging]
  simp only [howner, Option.some.injEq]
  split <;> rfl

theorem State.endDialling_of_ended {s : State} {call : LineCall} (hstate : s.line.state = .dialling)
    (hcall : s.line.call = some call) (hended : s.line.diallingEnds ≤ s.now) :
    s.endDialling = { s with
      line := { s.line with
        state := .awaitAnswer, call := some { call with position := call.request.dialString.length }, phase := .sent,
        deadline := s.now + call.request.answerLimit * 1000
        presumedEnds :=
          if call.request.answerMode = .presumed then some (s.now + call.request.presumedDelay * 1000) else none }
      session :=
        if call.owner = .session ∧ s.session.state = .placing then { s.session with state := .ringing } else s.session } := by
  have hawait : s.line.awaitAnswer s.now = { s.line with
      state := .awaitAnswer, call := some { call with position := call.request.dialString.length }, phase := .sent,
      deadline := s.now + call.request.answerLimit * 1000
      presumedEnds :=
        if call.request.answerMode = .presumed then some (s.now + call.request.presumedDelay * 1000) else none } := by
    rw [Line.awaitAnswer, hcall]
  rw [State.endDialling, if_pos hstate, State.reach_of_le hended]
  dsimp only
  rw [hawait]
  exact State.startRinging_of_call (call := { call with position := call.request.dialString.length }) rfl

/-- Settles O44: each timed point keeps the end of the dialling, so the whole dialling takes the time computed at its start. -/
theorem outDiallingSendsEverySymbol : Obligations.OutDiallingSendsEverySymbol := by
  refine ⟨fun owner string s => ⟨fun hstate howner hsending => if_pos ⟨hstate, howner, hsending⟩, fun hnot => if_neg ?_⟩,
    fun s tones start k r hstate hsending hends hnow hr => ?tones, fun s hstate call hcall => ?phases,
    fun l call now hcall hsome => Line.startDialling_diallingEnds hcall hsome now, fun s call hmain hstate hcall => ?points⟩
  · rintro ⟨hstate, howner, hsending⟩
    obtain h | h | h := hnot
    · exact h hstate
    · exact h howner
    · exact h hsending
  case tones =>
    have hposition := ToneString.position_at hends hnow hr
    have htone := State.symbolTone_of_sending hstate hsending
    rw [ToneString.phase_at hends hnow hr, hposition] at htone
    refine ⟨hposition, fun hon => ?_, fun hoff => ?_, by simp [State.loopClosed, hstate, LineState.seized]⟩
    · rw [htone, if_pos hon]
      by_cases hk : tones.symbols.length ≤ k
      · simp [hk]
      · simp [hk, Nat.min_eq_right (Nat.le_of_not_le hk)]
    · have hsilent : ¬ r < 70 := Nat.not_lt.2 hoff
      rw [htone, if_neg]
      simp only [if_neg hsilent]
      split <;> simp
  case phases =>
    have htone := State.symbolTone_of_dialling hstate hcall
    refine ⟨fun hphase => ⟨?_, ?_⟩, fun hphase => ⟨?_, ?_⟩, fun left hphase => ⟨?_, ?_⟩, fun left hphase => ⟨?_, ?_⟩,
      fun hphase => ⟨?_, ?_⟩⟩
    · rw [htone, if_pos hphase]
    · exact State.loopClosed_of_dialling hstate (by simp [hphase])
    · rw [htone, if_neg (by simp [hphase])]
    · exact State.loopClosed_of_dialling hstate (by simp [hphase])
    · rw [htone, if_neg (by simp [hphase])]
    · simp [State.loopClosed, hstate, hphase]
    · rw [htone, if_neg (by simp [hphase])]
    · exact State.loopClosed_of_dialling hstate (by simp [hphase])
    · rw [htone, if_neg (by simp [hphase])]
    · exact State.loopClosed_of_dialling hstate (by simp [hphase])
  case points =>
    intro n p point
    have hpoint {phase : DialPhase} {position duration : Nat} (hdue : s.line.phaseEnds ≤ s.now) (hphase : s.line.phase ≠ .sent)
        (hduration : phase.duration = duration)
        (hnext : s.line.phase.next call.request.method call.request.dialString p = (phase, position)) :
        point phase position duration :=
      hduration ▸ exec_dialSymbolSent hmain hstate hcall hdue hphase hnext
    refine ⟨fun hphase hdue hp => ⟨fun hmethod => ⟨fun h => ?_, fun h hmore => ?_, fun h hlast => ?_⟩,
        fun hmethod => ⟨fun left hleft h => ?_, fun left hleft h => ?_, fun h hmore => ?_, fun h hlast => ?_,
          fun k later h hdrop => ?_⟩⟩, fun hended => ?_⟩
    · exact hpoint hdue hphase rfl (by rw [h]; rfl)
    · exact hpoint hdue hphase rfl (by rw [h, hmethod, DialPhase.next, afterSymbol_of_more hmore])
    · exact hpoint hdue hphase rfl (by rw [h, DialPhase.next, afterSymbol_of_last hlast])
    · exact hpoint hdue hphase rfl (by rw [h]; rfl)
    · exact hpoint hdue hphase rfl (by rw [h, DialPhase.next, if_pos (show 1 < left from hleft)])
    · exact hpoint hdue hphase rfl (by rw [h, hmethod, DialPhase.next, if_neg (by omega), afterSymbol_of_more hmore])
    · exact hpoint hdue hphase rfl (by rw [h, DialPhase.next, if_neg (by omega), afterSymbol_of_last hlast])
    · exact hpoint hdue hphase rfl (by rw [h, hmethod, DialPhase.next, hdrop]; rfl)
    · exact congrArg Host.Outcome.next ((State.whilePowered_of_main hmain).trans (State.endDialling_of_ended hstate hcall hended))

end Sys2Proof.Machine
end

/-! ## Reports: scheduling, retries and the centre's reply (sections 10.2, 10.3 and 10.5) -/

section
namespace Sys2Proof.Machine

/-! ### Scheduling (R172 to R174) -/

/-- R173, R174: an ALARM or REPORT_NOW, where no attempt is made. -/
theorem ReportState.resting_cases (state : ReportState) : (state = .idle ∨ state = .scheduled ∨ state = .deferred) ∨
    (state = .waitLine ∨ state = .calling ∨ state = .sending ∨ state = .awaitReply ∨ state = .releasing) := by
  cases state <;> simp

theorem State.reportTrigger_alarm_of_resting {s : State}
    (h : s.report.state = .idle ∨ s.report.state = .scheduled ∨ s.report.state = .deferred) :
    s.reportTrigger .alarm = s.scheduleNow := by
  unfold State.reportTrigger
  obtain h | h | h := h <;> rw [h]

theorem State.reportTrigger_alarm_of_attempt {s : State}
    (h : ¬ (s.report.state = .idle ∨ s.report.state = .scheduled ∨ s.report.state = .deferred)) :
    s.reportTrigger .alarm = s.setReport { s.report with renewal := true } := by
  unfold State.reportTrigger
  obtain h | h | h | h | h := s.report.state.resting_cases.resolve_left h <;> rw [h]

theorem State.reportTrigger_fault_of_not_idle {s : State} (h : s.report.state ≠ .idle) : s.reportTrigger .fault = s := by
  unfold State.reportTrigger
  cases hstate : s.report.state <;> first | rfl | exact absurd hstate h

theorem State.reportNow_of_resting {s : State}
    (h : s.report.state = .idle ∨ s.report.state = .scheduled ∨ s.report.state = .deferred) :
    s.reportNow = (s.scheduleNow, .done .empty) := by
  unfold State.reportNow
  obtain h | h | h := h <;> rw [h]

theorem State.reportNow_of_attempt {s : State}
    (h : ¬ (s.report.state = .idle ∨ s.report.state = .scheduled ∨ s.report.state = .deferred)) :
    s.reportNow = (s.setReport { s.report with renewal := true }, .done .empty) := by
  unfold State.reportNow
  obtain h | h | h | h | h := s.report.state.resting_cases.resolve_left h <;> rw [h]

theorem exec_reportNow {p : Port} {s : State} (h : s.admits p) (tag : Byte) :
    exec (.reportNow p tag []) s = .next (s.reportNow.1.answer p (s.reportNow.2.response 20 tag)) :=
  congrArg _ ((State.whilePowered_of_main h.1).trans (State.serve_of_admits h rfl 20 tag State.reportNow))

/-! ### The retry timer (R175) -/

theorem exec_retryTimerExpiry {s : State} {t : Nat} (hmain : s.supplies.main = true) (hstate : s.report.state = .scheduled)
    (htimer : s.report.timer = some (.running t)) (hdue : t ≤ s.now) :
    exec .retryTimerExpiry s = .next s.retryExpired := by
  refine congrArg Host.Outcome.next ((State.whilePowered_of_main hmain).trans ?_)
  rw [State.expireRetry, hstate, htimer]
  exact congrArg State.retryExpired (State.reach_of_le hdue)

theorem State.expireRetry_of_not_running {s : State} (h : ∀ t, s.report.timer ≠ some (.running t)) : s.expireRetry = s := by
  unfold State.expireRetry
  split
  · exact absurd ‹_› (h _)
  · rfl

theorem diallable_eq_false_of {method : DialMethod} {string : List Symbol} (hmethod : method = .pulse)
    (h : ∃ k ∈ string, 10 ≤ k.val) : diallable method string = false := by
  simpa [diallable, hmethod, holdsStarOrHash] using h

theorem diallable_of {method : DialMethod} {string : List Symbol} (h : method = .tone ∨ ∀ k ∈ string, k.val < 10) :
    diallable method string = true := by
  unfold diallable
  obtain h | h := h
  · simp [h]
  · simp only [holdsStarOrHash, Bool.not_eq_true', Bool.and_eq_false_imp]
    intro _
    simpa using h

theorem State.requestLine_of_none {s : State} {owner : LineOwner} (hrequest : s.line.requestOf owner = none)
    (howns : s.lineOwner ≠ some owner) (string : List Symbol) :
    s.requestLine owner string = s.setLine (s.line.setRequest (s.settings.lineRequest owner string) owner) :=
  if_neg fun hc => hc.elim (fun h => by simp [hrequest] at h) howns

theorem State.enterWaitLine_of_undiallable {s : State} (h : diallable s.settings.method s.settings.centreNumber = false) :
    s.enterWaitLine =
      State.reportFail false (s.setReport { s.report with state := .waitLine, timer := none, renewal := false }) :=
  if_neg (by simp [h])

theorem State.enterWaitLine_of_diallable {s : State} (h : diallable s.settings.method s.settings.centreNumber = true)
    (hrequest : s.line.reportRequest = none) (howns : s.lineOwner ≠ some .report) :
    s.enterWaitLine = { s with
      report := { s.report with state := .waitLine, timer := none, renewal := false }
      line := { s.line with reportRequest := some (s.settings.lineRequest .report s.settings.centreNumber) } } :=
  (if_pos h).trans (State.requestLine_of_none (owner := .report) (by exact hrequest) (by exact howns) _)

/-- Settles O47. -/
theorem reportsAreScheduledAndRetried : Obligations.ReportsAreScheduledAndRetried := by
  unfold Obligations.ReportsAreScheduledAndRetried
  intro s timer scheduled afresh resting renewed
  refine ⟨fun p tag hadmits => ⟨fun hrest => ?_, fun hattempt => ?_⟩, ⟨State.reportTrigger_alarm_of_resting,
    State.reportTrigger_alarm_of_attempt, fun hidle => ?_, State.reportTrigger_fault_of_not_idle, rfl⟩,
    fun hmain hstate => ⟨fun t htimer hdue => ?expiry, fun htimer => ?_⟩, ?after⟩
  · rw [exec_reportNow hadmits, State.reportNow_of_resting hrest]
    rfl
  · rw [exec_reportNow hadmits, State.reportNow_of_attempt hattempt]
    rfl
  · unfold State.reportTrigger
    rw [hidle]
    rfl
  case expiry =>
    intro asked
    have hexec := exec_retryTimerExpiry hmain hstate htimer hdue
    refine ⟨fun hempty => ?_, fun hsome habnormal => ?_, fun hsome hnormal => ⟨fun hpulse hsymbol => ?_, fun hsends hnone howns => ?_⟩⟩
    · rw [hexec, State.retryExpired, if_pos (.inl hempty)]
      exact congrArg _ (if_pos hempty)
    · rw [hexec, State.retryExpired, if_neg (by simp [hsome, habnormal])]
      rfl
    · rw [hexec, State.retryExpired, if_pos (.inr hnormal), State.beginAttempt, if_neg hsome]
      exact congrArg Host.Outcome.next (State.enterWaitLine_of_undiallable (diallable_eq_false_of hpulse hsymbol))
    · rw [hexec, State.retryExpired, if_pos (.inr hnormal), State.beginAttempt, if_neg hsome]
      exact congrArg Host.Outcome.next (State.enterWaitLine_of_diallable (diallable_of hsends) hnone howns)
  · exact congrArg Host.Outcome.next ((State.whilePowered_of_main hmain).trans (State.expireRetry_of_not_running htimer))
  case after =>
    intro passed
    refine ⟨fun hacked => ?_, fun hfailed => ⟨fun hrenewed => ?_, fun hnot => ⟨fun k delay hdelay hattempts => ?_, fun hattempts => ?_⟩⟩⟩
    · rw [State.afterAttempt, hacked]
      rfl
    · rw [State.afterAttempt, hfailed]
      exact if_pos hrenewed
    · have hbelow : s.report.attempts < 5 ∧ 2 ^ s.report.attempts * 60000 = delay := by
        simp only [List.mem_cons, Prod.mk.injEq, List.not_mem_nil, or_false] at hdelay
        obtain ⟨rfl, rfl⟩ | ⟨rfl, rfl⟩ | ⟨rfl, rfl⟩ | ⟨rfl, rfl⟩ := hdelay <;> rw [hattempts] <;> decide
      rw [State.afterAttempt, hfailed, ← hbelow.2]
      exact (if_neg (by simp [hnot])).trans (if_pos hbelow.1)
    · rw [State.afterAttempt, hfailed]
      exact (if_neg (by simp [hnot])).trans (if_neg (by omega))

/-! ### One source's record through a fold over the sources -/

theorem same_foldl {β : Type} {src : Source} (f : State → β → State) (l : List β) (h : ∀ s, ∀ b ∈ l, Same src s (f s b)) (s : State) :
    Same src s (l.foldl f s) := by
  induction l generalizing s with
  | nil => exact Same.refl
  | cons b later ih =>
    exact (h s b List.mem_cons_self).trans (ih (fun t c hc => h t c (List.mem_cons_of_mem _ hc)) (f s b))

theorem Source.all_nodup : Source.all.Nodup := by decide

theorem State.record_retire (src : Source) (s : State) : (s.retire src).record src = none := by
  rw [State.retire, same_deriveLevel.1, same_raise.1, State.record_putRecord, if_pos rfl]

theorem State.retireIfDue_of_enabled {src : Source} {s : State} (h : s.reportEnabled src = true) : s.retireIfDue src = s := by
  unfold State.retireIfDue
  split
  · rfl
  · exact if_neg (by simp [h])

theorem same_removeSnapshot {src x : Source} {s : State} (h : src ≠ x) : Same x s (s.removeSnapshot src) := by
  unfold State.removeSnapshot
  split
  · exact Same.refl
  · split
    · exact Same.refl
    · exact (same_putRecord h).trans (same_retireIfDue h)

/-- R165, R180: a source's record once its snapshot has been removed. -/
def State.recordUnreported (s : State) (src : Source) : Option ConditionRecord :=
  match s.record src with
  | none => none
  | some r =>
    if r.snapshot = none then some r
    else if r.state = .cleared ∧ s.reportEnabled src = false then none
    else some { r with snapshot := none }

theorem State.record_removeSnapshot (src : Source) (s : State) : (s.removeSnapshot src).record src = s.recordUnreported src := by
  unfold State.removeSnapshot State.recordUnreported
  cases hrecord : s.record src with
  | none => exact hrecord
  | some r =>
    cases hsnapshot : r.snapshot with
    | none => simpa [hsnapshot] using hrecord
    | some snap =>
      simp only [hsnapshot, reduceCtorEq, if_false]
      have hput : (s.putRecord src (some { r with snapshot := none })).record src = some { r with snapshot := none } := by
        rw [State.record_putRecord, if_pos rfl]
      rw [State.retireIfDue, hput]
      by_cases hdue : r.state = .cleared ∧ s.reportEnabled src = false
      · rw [if_pos hdue]
        exact (congrArg (State.record · src) (if_pos ⟨hdue.1, hdue.2, rfl⟩)).trans (State.record_retire src _)
      · rw [if_neg hdue]
        exact (congrArg (State.record · src) (if_neg fun hc => hdue ⟨hc.1, hc.2.1⟩)).trans hput

theorem State.record_removeSnapshots (src : Source) (s : State) : s.removeSnapshots.record src = s.recordUnreported src := by
  obtain ⟨before, after, hall⟩ := List.append_of_mem src.mem_all
  have hnodup := Source.all_nodup
  rw [hall, List.nodup_append] at hnodup
  obtain ⟨-, hafter, hdisjoint⟩ := hnodup
  have hothers (l : List Source) (h : src ∉ l) (t : State) :
      Same src t (l.foldl (fun s x => s.removeSnapshot x) t) :=
    same_foldl _ l (fun u x hx => same_removeSnapshot (by rintro rfl; exact h hx)) t
  have hbefore : src ∉ before := fun hmem => hdisjoint src hmem src List.mem_cons_self rfl
  rw [State.removeSnapshots, hall, List.foldl_append, List.foldl_cons, (hothers after (List.nodup_cons.1 hafter).1 _).1,
    State.record_removeSnapshot, State.recordUnreported, State.recordUnreported, (hothers before hbefore s).1]
  simp only [State.reportEnabled, foldl_removeSnapshot_frame]
  rfl

/-! ### The ends of an attempt (R179, R180) -/

section
variable {s t : State} (ht : s.removeSnapshots = t)
include ht

theorem State.reportFail_of_line : s.reportFail true =
    { t with
      report := { t.report with
        attempts := min 5 (t.report.attempts + 1), snapshot := none, repeated := false, replyEnds := none,
        outcome := some .failed, state := .releasing }
      line := if t.lineOwner = some .report ∧ t.line.state.seized = true then t.line.release t.now else t.line } := by
  rw [State.reportFail, ht]
  by_cases howns : t.lineOwner = some .report ∧ t.line.state.seized = true
  · rw [if_pos howns, if_pos rfl]
    exact congrArg (fun t : State => t.setReport { t.report with state := .releasing }) (if_pos howns)
  · rw [if_neg howns, if_pos rfl]
    exact congrArg (fun t : State => t.setReport { t.report with state := .releasing }) (if_neg howns)

theorem State.reportFail_of_no_line : s.reportFail false = State.afterAttempt { t with
    report := { t.report with
      attempts := min 5 (t.report.attempts + 1), snapshot := none, repeated := false, replyEnds := none,
      outcome := some .failed } } := by
  rw [State.reportFail, ht]
  exact if_neg Bool.false_ne_true

end

theorem State.awaitsReply_iff {s : State} : s.awaitsReply = true ↔
    s.line.state = .connected ∧ s.lineOwner = some .report ∧ s.report.state = .awaitReply := by
  simp [State.awaitsReply, and_assoc]

theorem State.endToneString_of_sent {s : State} {tones : ToneString} (hstate : s.line.state = .connected)
    (hsending : s.line.sending = some tones) (hdue : tones.sentAt ≤ s.now) :
    s.endToneString = if s.lineOwner = some .report then
      (s.setLine { s.line with sending := none }).reportSent else s.setLine { s.line with sending := none } := by
  rw [State.endToneString, hstate, hsending]
  dsimp only
  rw [State.reach_of_le hdue]

theorem State.applyAck_of_owner {s t : State} {snap : ReportSnapshot} (hsnap : s.report.snapshot = some snap)
    (ht : t = (snap.records.foldl (fun t i => t.ackIncluded i) s).raise .reportDone) (howns : t.lineOwner = some .report)
    (hstate : t.line.state = .connected) :
    s.applyAck = { t with
      line := t.line.release t.now
      report := { t.report with
        state := .releasing, attempts := 0, snapshot := none, repeated := false, replyEnds := none
        outcome := some .acknowledged } } := by
  rw [State.applyAck, hsnap]
  dsimp only
  rw [← ht, State.askRelease]
  exact congrArg (fun t : State => t.setReport { t.report with state := .releasing })
    (if_pos ⟨howns, by rw [State.setReport_line, hstate]; rfl⟩)

theorem State.repeatReport_of {s : State} {snap : ReportSnapshot} (hstate : s.line.state = .connected)
    (howns : s.lineOwner = some .report) (hsnap : s.report.snapshot = some snap) (hsending : s.line.sending = none) :
    s.repeatReport = { s with
      line := { s.line with sending := some ⟨snap.string, s.now + snap.string.length * 140⟩ }
      report := { s.report with state := .sending, repeated := true, replyEnds := none } } := by
  rw [State.repeatReport]
  simp only [State.setReport_report, hsnap]
  exact if_pos ⟨hstate, howns, hsending⟩

/-! ### An acknowledgement applied (R164) -/

section
variable {src : Source} {r : ConditionRecord} {snap : RecordSnapshot} {s : State}

/-- R164: a record that an acknowledgement leaves, with its flag. -/
def State.acknowledged (src : Source) (r : ConditionRecord) (snap : RecordSnapshot) (s : State) : State :=
  let acked := max r.acked (min snap.count r.count)
  if r.state ≠ .cleared ∧ acked = r.count then
    if r.acked = r.count ∧ r.state = .standing then s.putRecord src (some { r with snapshot := none })
    else (s.putRecord src (some { r with
      acked := acked, state := .standing, lastChange := s.clock.time, snapshot := none })).raise .conditionChanged
  else if acked = r.acked then s.putRecord src (some { r with snapshot := none })
  else (s.putRecord src (some { r with
    acked := acked, lastChange := s.clock.time, snapshot := none })).raise .conditionChanged

theorem ConditionRecord.acknowledge_of_retires (hdigit : snap.clearedDigit = true) (hcleared : r.state = .cleared)
    (hcount : r.count = snap.count) (now : ClockTime) : r.acknowledge now snap = none :=
  if_pos ⟨hdigit, hcleared, hcount⟩

theorem ConditionRecord.acknowledge_of_kept (h : snap.clearedDigit = false ∨ r.state ≠ .cleared ∨ r.count ≠ snap.count)
    (now : ClockTime) :
    r.acknowledge now snap =
      let acked := max r.acked (min snap.count r.count)
      let state := if r.active ∧ acked = r.count then .standing else r.state
      some { r with
        acked := acked, state := state
        lastChange := if acked = r.acked ∧ state = r.state then r.lastChange else now
        snapshot := none } :=
  if_neg fun ⟨hdigit, hcleared, hcount⟩ =>
    h.elim (fun hfalse => by simp [hfalse] at hdigit) fun h => h.elim (· hcleared) (· hcount)

theorem State.ackRecord_of_retires (hrecord : s.record src = some r) (hsnap : r.snapshot = some snap)
    (hdigit : snap.clearedDigit = true) (hcleared : r.state = .cleared) (hcount : r.count = snap.count) :
    s.ackRecord src = s.retire src := by
  rw [State.ackRecord, hrecord]
  simp only [hsnap]
  rw [ConditionRecord.acknowledge_of_retires hdigit hcleared hcount]

theorem State.ackRecord_of_kept (hrecord : s.record src = some r) (hsnap : r.snapshot = some snap)
    (henabled : s.reportEnabled src = true)
    (h : snap.clearedDigit = false ∨ r.state ≠ .cleared ∨ r.count ≠ snap.count) :
    s.ackRecord src = s.acknowledged src r snap := by
  have hactive : r.active = true ↔ r.state ≠ .cleared := by simp [ConditionRecord.active]
  have hstays {t : State} (ht : t.settings = s.settings) : t.retireIfDue src = t :=
    State.retireIfDue_of_enabled (by rwa [State.reportEnabled, ht])
  rw [State.ackRecord, hrecord]
  simp only [hsnap]
  rw [ConditionRecord.acknowledge_of_kept h]
  dsimp only
  rw [hstays (by (repeat' split) <;> rfl), State.acknowledged]
  simp only [hactive]
  by_cases hall : r.state ≠ .cleared ∧ max r.acked (min snap.count r.count) = r.count
  · rw [if_pos hall, if_pos hall]
    obtain ⟨-, hacked⟩ := hall
    by_cases hstands : r.acked = r.count ∧ r.state = .standing
    · rw [if_pos hstands, if_pos ⟨hacked.trans hstands.1.symm, hstands.2.symm⟩, if_pos ⟨hacked.trans hstands.1.symm, hstands.2.symm⟩,
        hacked, ← hstands.1, ← hstands.2]
    · have hmoved : ¬ (max r.acked (min snap.count r.count) = r.acked ∧ ConditionState.standing = r.state) :=
        fun hc => hstands ⟨hc.1.symm.trans hacked, hc.2.symm⟩
      rw [if_neg hstands, if_neg hmoved, if_neg hmoved]
  · rw [if_neg hall, if_neg hall]
    by_cases hkept : max r.acked (min snap.count r.count) = r.acked
    · rw [if_pos hkept, if_pos ⟨hkept, rfl⟩, if_pos ⟨hkept, rfl⟩, hkept]
    · rw [if_neg hkept, if_neg fun hc => hkept hc.1, if_neg fun hc => hkept hc.1]

theorem State.acknowledged_setComp (c : Compartment) :
    (s.setComp c).acknowledged src r snap = (s.acknowledged src r snap).setComp c := by
  unfold State.acknowledged
  dsimp only
  split
  · split <;> rfl
  · split <;> rfl

variable {tally : ClosedTally}

theorem State.ackCollection_of_unchanged (hrecord : s.record .collection = some r) (hsnap : r.snapshot = some snap)
    (htally : s.comp.closedTally = some tally) (hcount : r.count = snap.count) (hchanged : tally.changed = false) :
    s.ackCollection = if s.lateCycle then
      (s.setComp { s.comp with closedTally := some { tally with withheld := true } }).ackRecord .collection
      else s.releaseClosedTally := by
  rw [State.ackCollection, hrecord]
  simp only [hsnap, htally]
  exact if_pos ⟨hcount, hchanged⟩

theorem State.ackCollection_of_changed (hrecord : s.record .collection = some r) (hsnap : r.snapshot = some snap)
    (htally : s.comp.closedTally = some tally) (h : r.count ≠ snap.count ∨ tally.changed = true) :
    s.ackCollection = if max r.acked (min snap.count (r.count - 1)) = r.acked then
      s.putRecord .collection (some { r with snapshot := none })
      else (s.putRecord .collection (some { r with
        acked := max r.acked (min snap.count (r.count - 1)), lastChange := s.clock.time
        snapshot := none })).raise .conditionChanged := by
  have hnot : ¬ (r.count = snap.count ∧ tally.changed = false) := fun hc =>
    h.elim (· hc.1) fun hchanged => by simp [hchanged] at hc
  rw [State.ackCollection, hrecord]
  simp only [hsnap, htally]
  refine (if_neg hnot).trans ?_
  rw [ConditionRecord.keepOutstanding]
  by_cases hkept : max r.acked (min snap.count (r.count - 1)) = r.acked
  · simp only [hkept, if_true]
  · simp only [hkept, if_false]

end

/-- Settles O49. -/
theorem centreReplyDecidesTheAttempt : Obligations.CentreReplyDecidesTheAttempt := by
  refine ⟨⟨fun s hmain hstate => ⟨fun tones hsending hdue => ?sent, fun howns hawaits snap hsnap => ?reply, fun hnot => ?_⟩,
    fun s t hmain hstate hends hdue => ?_, fun s => ?failed⟩, fun i r snap s hrecord hsnap henabled => ?applied⟩
  case sent =>
    intro sent
    have hexec : exec .toneStringSent s = .next (if s.lineOwner = some .report then sent.reportSent else sent) :=
      congrArg Host.Outcome.next
        ((State.whilePowered_of_main hmain).trans (State.endToneString_of_sent hstate hsending hdue))
    refine ⟨fun howns hreport => ?_, fun hnot => ?_⟩
    · rw [hexec, if_pos howns]
      exact congrArg Host.Outcome.next (if_pos hreport)
    · rw [hexec]
      split
      · exact congrArg Host.Outcome.next (if_neg (hnot.resolve_left (not_not_intro ‹_›)))
      · rfl
  case reply =>
    intro t
    have hreply : s.awaitsReply = true := State.awaitsReply_iff.2 ⟨hstate, howns, hawaits⟩
    refine ⟨fun hown hconnected => ?_, fun hfirst hnone => ?_, fun hsecond => ?_⟩
    · refine congrArg Host.Outcome.next ((State.whilePowered_of_main hmain).trans ((if_pos hreply).trans ?_))
      exact State.applyAck_of_owner hsnap rfl hown hconnected
    · refine congrArg Host.Outcome.next ((State.whilePowered_of_main hmain).trans ((if_pos hreply).trans ?_))
      exact (if_neg (by simp [hfirst])).trans (State.repeatReport_of hstate howns hsnap hnone)
    · exact congrArg Host.Outcome.next ((State.whilePowered_of_main hmain).trans ((if_pos hreply).trans (if_pos hsecond)))
  · have hreply : ¬ s.awaitsReply = true := fun hc =>
      hnot.elim (· (State.awaitsReply_iff.1 hc).2.1) (· (State.awaitsReply_iff.1 hc).2.2)
    exact ⟨congrArg Host.Outcome.next ((State.whilePowered_of_main hmain).trans (if_neg hreply)),
      congrArg Host.Outcome.next ((State.whilePowered_of_main hmain).trans (if_neg hreply))⟩
  · refine congrArg Host.Outcome.next ((State.whilePowered_of_main hmain).trans ?_)
    rw [State.endReplyWait, hstate, hends]
    exact congrArg (State.reportFail true) (State.reach_of_le hdue)
  case failed =>
    intro t failed
    have ht : s.removeSnapshots = t := rfl
    have hrecord (src : Source) : t.record src = s.recordUnreported src := ht ▸ State.record_removeSnapshots src s
    clear_value t
    exact ⟨State.reportFail_of_no_line ht, State.reportFail_of_line ht, fun src => hrecord src⟩
  case applied =>
    intro put changed acked taken
    have htaken : s.acknowledged i.source r snap = taken := rfl
    refine ⟨fun hother => ⟨fun hdigit hcleared hcount => ?_, fun hkept => ?_⟩, fun hcollection hactive tally htally =>
      ⟨fun hcount hunchanged => ⟨fun hprompt => ?_, fun hlate => ?_⟩, fun hchanged => ?_⟩⟩
    · exact (if_neg hother).trans (State.ackRecord_of_retires hrecord hsnap hdigit hcleared hcount)
    · exact (if_neg hother).trans (State.ackRecord_of_kept hrecord hsnap henabled hkept)
    all_goals
      rw [hcollection] at hrecord henabled
      refine (if_pos hcollection).trans ?_
    · rw [State.ackCollection_of_unchanged hrecord hsnap htally hcount hunchanged, hprompt]
      rfl
    · rw [State.ackCollection_of_unchanged hrecord hsnap htally hcount hunchanged, hlate, if_pos rfl,
        State.ackRecord_of_kept (by exact hrecord) hsnap (by exact henabled) (.inr (.inl hactive)),
        State.acknowledged_setComp, ← htaken, hcollection]
      rfl
    · rw [State.ackCollection_of_changed hrecord hsnap htally hchanged]
      simp only [put, hcollection]
      rfl

end Sys2Proof.Machine
end

/-! ## Reports: the snapshot and its string (sections 10.3 and 10.4) -/

section
namespace Sys2Proof.Machine

/-! ### The order of choice (R177) -/

/-- The order of choice, as section 10.3 gives it. -/
def ChosenBefore (a b : Source × ConditionRecord) : Prop :=
  a.2.severity.rank < b.2.severity.rank ∨ a.2.severity = b.2.severity ∧
    (a.2.firstRaised.key < b.2.firstRaised.key ∨ a.2.firstRaised.key = b.2.firstRaised.key ∧ a.1.code < b.1.code)

theorem Severity.rank_inj {a b : Severity} : a.rank = b.rank ↔ a = b := by
  cases a <;> cases b <;> simp [Severity.rank]

theorem chosenBefore_iff {a b : Source × ConditionRecord} : chosenBefore a b = true ↔ ChosenBefore a b := by
  simp [chosenBefore, ChosenBefore, Severity.rank_inj]

theorem Source.code_inj {a b : Source} : a.code = b.code ↔ a = b :=
  ⟨fun h => Source.idx_injective (Fin.ext (Nat.add_right_cancel h)), fun h => h ▸ rfl⟩

theorem ChosenBefore.trans {a b c : Source × ConditionRecord} (hab : ChosenBefore a b) (hbc : ChosenBefore b c) :
    ChosenBefore a c := by
  unfold ChosenBefore at *
  rw [← Severity.rank_inj] at *
  omega

theorem ChosenBefore.of_not {a b : Source × ConditionRecord} (hne : b.1 ≠ a.1) (h : ¬ ChosenBefore a b) : ChosenBefore b a := by
  unfold ChosenBefore at *
  rw [← Severity.rank_inj] at *
  have := mt Source.code_inj.1 hne
  omega

theorem ChosenBefore.ne {a b : Source × ConditionRecord} (h : ChosenBefore a b) : a.1 ≠ b.1 ∨ a.2 ≠ b.2 := by
  refine Classical.byContradiction fun hc => ?_
  obtain ⟨hsource, hrecord⟩ := not_or.1 hc
  simp [ChosenBefore, Classical.not_not.1 hsource, Classical.not_not.1 hrecord] at h

theorem insertChosen_perm (x : Source × ConditionRecord) (l : List (Source × ConditionRecord)) :
    (insertChosen x l).Perm (x :: l) := by
  induction l with
  | nil => exact .refl _
  | cons y rest ih =>
    rw [insertChosen]
    split
    · exact .refl _
    · exact (ih.cons y).trans (.swap x y rest)

theorem insertChosen_pairwise {x : Source × ConditionRecord} {l : List (Source × ConditionRecord)}
    (hsorted : l.Pairwise ChosenBefore) (hnew : ∀ y ∈ l, y.1 ≠ x.1) : (insertChosen x l).Pairwise ChosenBefore := by
  induction l with
  | nil => exact List.pairwise_singleton _ x
  | cons y rest ih =>
    obtain ⟨hfirst, hrest⟩ := List.pairwise_cons.1 hsorted
    rw [insertChosen]
    split
    · next hbefore =>
      have hxy : ChosenBefore x y := chosenBefore_iff.1 hbefore
      exact List.pairwise_cons.2 ⟨fun z hz => (List.mem_cons.1 hz).elim (· ▸ hxy) fun hz => hxy.trans (hfirst z hz), hsorted⟩
    · next hnot =>
      have hyx : ChosenBefore y x := .of_not (hnew y List.mem_cons_self) (mt chosenBefore_iff.2 hnot)
      refine List.pairwise_cons.2 ⟨fun z hz => ?_, ih hrest fun z hz => hnew z (List.mem_cons_of_mem y hz)⟩
      exact (List.mem_cons.1 ((insertChosen_perm x rest).mem_iff.1 hz)).elim (· ▸ hyx) (hfirst z)

theorem sortChosen_perm (l : List (Source × ConditionRecord)) : (l.foldr insertChosen []).Perm l := by
  induction l with
  | nil => exact .refl _
  | cons x rest ih => exact (insertChosen_perm x _).trans (ih.cons x)

theorem sortChosen_pairwise {l : List (Source × ConditionRecord)} (h : (l.map Prod.fst).Nodup) :
    (l.foldr insertChosen []).Pairwise ChosenBefore := by
  induction l with
  | nil => exact .nil
  | cons x rest ih =>
    obtain ⟨hnew, hrest⟩ := List.nodup_cons.1 h
    refine insertChosen_pairwise (ih hrest) fun y hy heq => hnew ?_
    exact heq ▸ List.mem_map_of_mem ((sortChosen_perm rest).mem_iff.1 hy)

/-! ### The records a report includes (R171, R177) -/

theorem State.outstanding_iff {s : State} {src : Source} {r : ConditionRecord} (h : s.record src = some r) :
    s.outstanding src = true ↔ s.reportEnabled src = true ∧ (r.acked < r.count ∨ r.state = .cleared) := by
  simp [State.outstanding, h, ConditionRecord.outstanding]

theorem State.mem_outstandingRecords {s : State} {x : Source × ConditionRecord} : x ∈ s.outstandingRecords ↔
    s.record x.1 = some x.2 ∧ s.reportEnabled x.1 = true ∧ (x.2.acked < x.2.count ∨ x.2.state = .cleared) := by
  obtain ⟨src, r⟩ := x
  simp only [State.outstandingRecords, List.mem_filterMap]
  constructor
  · rintro ⟨src', -, h⟩
    cases hrecord : s.record src' with
    | none => simp [hrecord] at h
    | some r' =>
      simp only [hrecord, Option.ite_none_right_eq_some, Option.some.injEq, Prod.mk.injEq] at h
      obtain ⟨hout, rfl, rfl⟩ := h
      exact ⟨hrecord, (State.outstanding_iff hrecord).1 hout⟩
  · rintro ⟨hrecord, hout⟩
    refine ⟨src, src.mem_all, ?_⟩
    rw [show s.record src = some r from hrecord]
    exact if_pos ((State.outstanding_iff hrecord).2 hout)

theorem State.outstandingRecords_nodup (s : State) : (s.outstandingRecords.map Prod.fst).Nodup := by
  refine Source.all_nodup.sublist ?_
  unfold State.outstandingRecords
  induction Source.all with
  | nil => exact .slnil
  | cons src rest ih =>
    rw [List.filterMap_cons]
    split
    · exact ih.cons src
    · next x hx =>
      have hsource : x.1 = src := by
        cases hrecord : s.record src with
        | none => simp [hrecord] at hx
        | some r =>
          simp only [hrecord, Option.ite_none_right_eq_some, Option.some.injEq] at hx
          exact (congrArg Prod.fst hx.2).symm
      rw [List.map_cons, hsource]
      exact ih.cons_cons src

section
variable {s : State}

/-- The outstanding records in the order of choice, of which a report includes the first 8. -/
def State.chosenRecords (s : State) : List (Source × ConditionRecord) := s.outstandingRecords.foldr insertChosen []

theorem State.includedRecords_eq (s : State) : s.includedRecords = s.chosenRecords.take 8 := rfl

theorem State.chosenRecords_pairwise (s : State) : s.chosenRecords.Pairwise ChosenBefore :=
  sortChosen_pairwise s.outstandingRecords_nodup

theorem State.mem_chosenRecords {x : Source × ConditionRecord} : x ∈ s.chosenRecords ↔
    s.record x.1 = some x.2 ∧ s.reportEnabled x.1 = true ∧ (x.2.acked < x.2.count ∨ x.2.state = .cleared) :=
  (sortChosen_perm _).mem_iff.trans State.mem_outstandingRecords

theorem State.record_of_included {x : Source × ConditionRecord} (h : x ∈ s.includedRecords) : s.record x.1 = some x.2 :=
  (State.mem_chosenRecords.1 (List.mem_of_mem_take h)).1

theorem State.includedRecords_pairwise (s : State) : s.includedRecords.Pairwise ChosenBefore :=
  s.chosenRecords_pairwise.sublist (List.take_sublist 8 _)

/-- A record left out stands behind 8 others. -/
theorem State.left_out {x : Source × ConditionRecord} (hx : x ∈ s.chosenRecords) (hnot : x ∉ s.includedRecords) :
    s.includedRecords.length = 8 ∧ ∀ y ∈ s.includedRecords, ChosenBefore y x := by
  have hparts := List.take_append_drop 8 s.chosenRecords
  have hdrop : x ∈ s.chosenRecords.drop 8 := by
    rw [← hparts, List.mem_append] at hx
    exact hx.resolve_left hnot
  have hsorted := s.chosenRecords_pairwise
  rw [← hparts, List.pairwise_append] at hsorted
  refine ⟨?_, fun y hy => hsorted.2.2 y hy x hdrop⟩
  have hlong := List.length_pos_of_mem hdrop
  rw [List.length_drop] at hlong
  rw [State.includedRecords_eq, List.length_take]
  omega

/-! ### The snapshot placed on the records -/

theorem same_placeSnapshot {x : Source} {i : IncludedRecord} (h : i.source ≠ x) : Same x s (s.placeSnapshot i) := by
  unfold State.placeSnapshot
  split
  · exact Same.refl
  · exact same_putRecord h

theorem State.record_placeSnapshot (i : IncludedRecord) : (s.placeSnapshot i).record i.source =
    (s.record i.source).map (fun r => { r with snapshot := some ⟨i.count, i.clearedDigit⟩ }) := by
  unfold State.placeSnapshot
  cases h : s.record i.source with
  | none => exact h
  | some r => exact (State.record_putRecord ..).trans (if_pos rfl)

/-- What an included record has in the report. -/
def includedEntry (x : Source × ConditionRecord) : IncludedRecord := ⟨x.1, x.2.state = .cleared, x.2.count⟩

/-- The state once the snapshot has been placed on every record included. -/
def State.snapshotPlaced (s : State) : State :=
  (s.includedRecords.map includedEntry).foldl (fun s i => s.placeSnapshot i) s

theorem State.snapshotPlaced_eq (s : State) :
    s.snapshotPlaced = { s with sup := { s.sup with records := s.snapshotPlaced.sup.records } } := by
  have hkept (records : Vector (Option ConditionRecord) 22) (t : State) (i : IncludedRecord) :
      (t.placeSnapshot i).setSup { (t.placeSnapshot i).sup with records := records } =
        t.setSup { t.sup with records := records } := by
    unfold State.placeSnapshot
    split <;> rfl
  exact foldl_keeps (fun t => t.setSup { t.sup with records := s.snapshotPlaced.sup.records })
    (fun t i => t.placeSnapshot i) (hkept _) (s.includedRecords.map includedEntry) s

theorem State.record_snapshotPlaced (src : Source) : s.snapshotPlaced.record src = (s.record src).map (fun r =>
    if s.includedRecords.any (fun x => x.1 = src) then { r with snapshot := some ⟨r.count, r.state = .cleared⟩ } else r) := by
  have hothers (l : List (Source × ConditionRecord)) (h : ∀ x ∈ l, x.1 ≠ src) (t : State) :
      Same src t ((l.map includedEntry).foldl (fun t i => t.placeSnapshot i) t) :=
    same_foldl _ _ (fun u i hi => by
      obtain ⟨x, hx, rfl⟩ := List.mem_map.1 hi
      exact same_placeSnapshot (h x hx)) t
  by_cases hincluded : ∃ x ∈ s.includedRecords, x.1 = src
  · obtain ⟨x, hx, rfl⟩ := hincluded
    have hrecord := State.record_of_included hx
    have hany : s.includedRecords.any (fun y => y.1 = x.1) = true := List.any_eq_true.2 ⟨x, hx, by simp⟩
    have hsorted := s.includedRecords_pairwise
    obtain ⟨before, after, hsplit⟩ := List.append_of_mem hx
    have hsame {y : Source × ConditionRecord} (hy : y ∈ s.includedRecords) (hsource : y.1 = x.1) : y.2 = x.2 :=
      Option.some.inj ((State.record_of_included hy).symm.trans (hsource ▸ hrecord))
    have hbefore : ∀ y ∈ before, y.1 ≠ x.1 := fun y hy hsource => by
      have hmem : y ∈ s.includedRecords := hsplit ▸ List.mem_append_left _ hy
      rw [hsplit, List.pairwise_append] at hsorted
      exact (hsorted.2.2 y hy x List.mem_cons_self).ne.elim (· hsource) (· (hsame hmem hsource))
    have hafter : ∀ y ∈ after, y.1 ≠ x.1 := fun y hy hsource => by
      have hmem : y ∈ s.includedRecords := hsplit ▸ List.mem_append_right _ (List.mem_cons_of_mem _ hy)
      rw [hsplit, List.pairwise_append, List.pairwise_cons] at hsorted
      exact (hsorted.2.1.1 y hy).ne.elim (· hsource.symm) (· (hsame hmem hsource).symm)
    simp only [hany, if_true]
    rw [State.snapshotPlaced, hsplit, List.map_append, List.map_cons, List.foldl_append, List.foldl_cons,
      (hothers after hafter _).1]
    refine (State.record_placeSnapshot (includedEntry x)).trans ?_
    rw [show (includedEntry x).source = x.1 from rfl, (hothers before hbefore s).1, hrecord]
    rfl
  · have hnone : ∀ x ∈ s.includedRecords, x.1 ≠ src := fun x hx heq => hincluded ⟨x, hx, heq⟩
    have hany : s.includedRecords.any (fun y => y.1 = src) = false := by simpa using hnone
    rw [State.snapshotPlaced, (hothers _ hnone s).1, hany]
    simp

end

/-! ### The string (section 10.4) -/

theorem decimalDigits_spec (width n : Nat) (h : n < 10 ^ width) : (decimalDigits width n).length = width ∧
    (decimalDigits width n).foldl (fun x k => 10 * x + k.val) 0 = n ∧ ∀ k ∈ decimalDigits width n, k.val < 10 := by
  induction width generalizing n with
  | zero => exact ⟨rfl, (Nat.lt_one_iff.1 h).symm, by simp [decimalDigits]⟩
  | succ width ih =>
    obtain ⟨hlength, hvalue, hdigits⟩ := ih (n / 10) (by rw [Nat.pow_succ] at h; omega)
    refine ⟨by simp [decimalDigits, hlength], ?_, fun k hk => ?_⟩
    · rw [decimalDigits, List.foldl_append, hvalue]
      exact Nat.div_add_mod n 10
    · rw [decimalDigits, List.mem_append, List.mem_singleton] at hk
      obtain hk | rfl := hk
      · exact hdigits k hk
      · exact Nat.mod_lt n (by decide)

theorem checkDigit_lt (string : List Symbol) : checkDigit string < 10 := Nat.mod_lt _ (by decide)

theorem digitSum_add_checkDigit (string : List Symbol) : (digitSum string + checkDigit string) % 10 = 0 := by
  unfold checkDigit
  omega

theorem decimalDigits_one {n : Nat} (h : n < 10) : decimalDigits 1 n = [⟨n, by omega⟩] := by
  simp [decimalDigits, Nat.mod_eq_of_lt h]

theorem ReportSnapshot.string_eq (r : ReportSnapshot) : r.string =
    r.opening ++ [Symbol.hash, (⟨checkDigit r.opening, checkDigit_lt _⟩ : Fin 10).castLE (by decide), Symbol.hash] := by
  rw [ReportSnapshot.string, decimalDigits_one (checkDigit_lt _)]
  simp only [List.append_assoc]
  rfl

theorem ReportSnapshot.opening_eq (r : ReportSnapshot) :
    r.opening = [Symbol.star] ++ r.station ++ [Symbol.star] ++
      decimalDigits 2 (r.clock.date.year - 2000) ++ decimalDigits 2 r.clock.date.month ++
      decimalDigits 2 r.clock.date.day ++ decimalDigits 2 r.clock.hour ++ decimalDigits 2 r.clock.minute ++
      (r.records.map (fun i => [Symbol.star] ++ decimalDigits 2 i.source.code ++
        decimalDigits 1 (if i.clearedDigit then 2 else 1) ++ decimalDigits 3 i.count)).flatten ++
      (match r.tally with
        | some t => [Symbol.star, 9, 9] ++ decimalDigits 1 t.closureDigit ++ decimalDigits 10 t.totalValue ++
            decimalDigits 5 t.totalCoins
        | none => []) := by
  have hgroup : IncludedRecord.group = fun i => [Symbol.star] ++ decimalDigits 2 i.source.code ++
      decimalDigits 1 (if i.clearedDigit then 2 else 1) ++ decimalDigits 3 i.count := rfl
  rw [ReportSnapshot.opening, hgroup, MinuteTime.digits]
  cases r.tally <;> simp [TallyPart.group]

/-! ### The snapshot taken when the centre answers (R176, R177) -/

theorem State.sendTones_of {s : State} {owner : LineOwner} (hstate : s.line.state = .connected)
    (howns : s.lineOwner = some owner) (hsending : s.line.sending = none) (string : List Symbol) :
    s.sendTones owner string =
      { s with line := { s.line with sending := some ⟨string, s.now + string.length * 140⟩ } } :=
  if_pos ⟨hstate, howns, hsending⟩

theorem State.reportAnswered_of_calling {s : State} (hcalling : s.report.state = .calling) (hstate : s.line.state = .connected)
    (howns : s.lineOwner = some .report) (hsending : s.line.sending = none) :
    s.reportAnswered = { s with
      line := { s.line with sending := some ⟨s.reportSnapshot.string, s.now + s.reportSnapshot.string.length * 140⟩ }
      sup := { s.sup with records := s.snapshotPlaced.sup.records }
      comp := { s.comp with closedTally :=
        if s.reportSnapshot.tally.isSome then s.comp.closedTally.map (fun t => { t with changed := false })
        else s.comp.closedTally }
      report := { s.report with state := .sending, snapshot := some s.reportSnapshot, repeated := false, replyEnds := none } } := by
  have hplaced : s.reportSnapshot.records.foldl (fun s i => s.placeSnapshot i) s = s.snapshotPlaced := rfl
  rw [State.reportAnswered, if_pos hcalling]
  simp only [hplaced]
  rw [s.snapshotPlaced_eq]
  generalize s.reportSnapshot = snap
  generalize s.snapshotPlaced.sup.records = records
  cases snap.tally with
  | none => exact (State.sendTones_of (by exact hstate) (by exact howns) (by exact hsending) snap.string).trans rfl
  | some part => exact (State.sendTones_of (by exact hstate) (by exact howns) (by exact hsending) snap.string).trans rfl

/-- Settles O48. -/
theorem reportSnapshotAndString : Obligations.ReportSnapshotAndString := by
  refine ⟨fun s => ?included, fun r => ⟨r.opening_eq, _, r.string_eq, digitSum_add_checkDigit _⟩, decimalDigits_spec,
    fun presumed line s hmain hstate hline howner hcalling hsignalled hpresumed => ?taken⟩
  case included =>
    intro before due
    refine ⟨fun x hx => State.mem_chosenRecords.1 (List.mem_of_mem_take hx), s.includedRecords_pairwise,
      fun x hx hnot => State.left_out (State.mem_chosenRecords.2 hx) hnot, List.length_take_le 8 _, ?_⟩
    rfl
  case taken =>
    intro snap
    have howns : s.lineOwner = some .report := by rw [State.lineOwner, hline, ← howner]; rfl
    have hcmd : exec (if presumed then .presumedDelayEnd else .polarityReversal) s = .next (s.lineAnswered presumed) := by
      cases presumed with
      | false =>
        have hmode : s.line.modeIs .signalled = true := by simp [Line.modeIs_of_call hline, hsignalled rfl]
        rw [← State.reversePolarity_of_awaitAnswer hmode hstate]
        exact congrArg Host.Outcome.next (State.whilePowered_of_main hmain)
      | true =>
        obtain ⟨t, ht, hlimit, hended⟩ := hpresumed rfl
        rw [← State.endPresumedDelay_of_ended hstate (Line.presumedAnswerAt_of_some ht hlimit) hended]
        exact congrArg Host.Outcome.next (State.whilePowered_of_main hmain)
    let answered : State := s.setLine s.line.answered
    refine ⟨answered.snapshotPlaced.sup.records, fun src => State.record_snapshotPlaced (s := answered) src, ?_⟩
    have hanswered : s.lineAnswered presumed = (s.setLine s.line.answered).reportAnswered := by
      rw [State.lineAnswered, howns]
    rw [hcmd, hanswered, State.reportAnswered_of_calling (by exact hcalling) rfl (by exact howns) rfl]
    rfl

end Sys2Proof.Machine
end

/-! ## The user session: the hook, the end of clearing and the local tone (sections 8.2 and 8.4) -/

section
namespace Sys2Proof.Machine

/-! ### The local tone (R133) -/

theorem LocalTone.soundsAfter_iff {tone : LocalTone} {since : Nat} : tone.soundsAfter since = true ↔
    tone = .dial ∨ tone = .creditPrompt ∧ since % 1000 < 200 ∨ tone = .reorder ∧ since % 500 < 250 ∨
      tone = .busy ∧ since % 1000 < 500 ∨ tone = .warning ∧ since % 1000 < 100 := by
  cases tone <;> simp [LocalTone.soundsAfter, LocalTone.cadence]

theorem State.toneSounding_iff {s : State} : s.toneSounding = true ↔
    ∃ tone, s.localTone = some tone ∧ tone.soundsAfter (s.now - s.toneStarted) = true :=
  Option.any_eq_true _ _

theorem State.toneStarted_eq (s : State) : s.toneStarted = match s.session.state, s.rating.context with
    | .dialWait, _ => max s.session.toneSince s.sup.levelSince
    | .connected, .rated _ c => match c.warning with
      | some w => w.toneStart
      | none => s.session.toneSince
    | _, _ => s.session.toneSince := by
  unfold State.toneStarted
  cases s.session.state
  case connected =>
    cases s.rating.context
    case rated call c =>
      change (c.warning.map Warning.toneStart).getD s.session.toneSince = match c.warning with
        | some w => w.toneStart
        | none => s.session.toneSince
      cases c.warning <;> rfl
    all_goals rfl
  all_goals rfl

/-! ### The retry timer at the session's departures and returns (R172) -/

theorem map_hold_eq (now : Nat) (timer : Option RetryTimer) : timer.map (RetryTimer.hold now) = match timer with
    | some (.running x) => some (.held (x - now))
    | other => other := by
  cases timer with
  | none => rfl
  | some x => cases x <;> rfl

theorem map_resume_eq (now : Nat) (timer : Option RetryTimer) : timer.map (RetryTimer.resume now) = match timer with
    | some (.held left) => some (.running (now + left))
    | other => other := by
  cases timer with
  | none => rfl
  | some x => cases x <;> rfl

/-- With no call held, the session stays as it is while conditions change. -/
theorem callKeeper_session {x : Session} (h : x.decision = none) : CallKeeper (fun s => s.session = x) where
  congr := fun ⟨_, _, _, hsession⟩ hs => hsession.trans hs
  levelDrop := fun hd hs => by rw [hs, h] at hd; simp at hd

theorem State.removeSnapshots_session {s : State} (h : s.session.decision = none) : s.removeSnapshots.session = s.session :=
  (callKeeper_session h).removeSnapshots (s := s) rfl

theorem State.schedule_of_not_idle {s : State} (h : s.session.state ≠ .idle) (delay : Nat) :
    s.schedule delay = s.setReport { s.report with state := .scheduled, timer := some (.held delay) } := by
  rw [State.schedule, State.timerOf, if_neg h]

/-- R114: a report call that owns the line, preempted at the session's departure from IDLE. -/
theorem State.departIdle_of_report {s t : State} (howns : s.lineOwner = some .report) (hseized : s.line.state.seized = true)
    (honLine : s.report.state.onLine = true) (hd : s.session.decision = none) (hout : s.session.state ≠ .idle)
    (ht : State.removeSnapshots (s.setLine (s.line.release s.now)) = t) :
    s.departIdle = { t with report := { t.report with
      state := .scheduled, timer := some (.held 0), snapshot := none, repeated := false, replyEnds := none
      renewal := false } } := by
  have hsession : t.session = s.session := ht ▸ State.removeSnapshots_session hd
  have hpreempted : State.reportPreempted (s.setLine (s.line.release s.now)) = { t with report := { t.report with
      state := .scheduled, timer := some (.held 0), snapshot := none, repeated := false, replyEnds := none
      renewal := false } } := by
    rw [State.reportPreempted, ht]
    exact State.schedule_of_not_idle (by rw [State.setReport_session, hsession]; exact hout) 0
  rw [State.departIdle, if_pos ⟨howns, hseized⟩]
  dsimp only
  rw [if_pos (by exact honLine), hpreempted]
  rfl

theorem State.departIdle_of_not_report {s : State} (howns : s.lineOwner ≠ some .report) :
    s.departIdle = s.setReport { s.report with timer := s.report.timer.map (RetryTimer.hold s.now) } := by
  rw [State.departIdle, if_neg fun hc => howns hc.1]

/-! ### The session opens, and ends (R129, R130) -/

/-- R129: DIAL_WAIT with an empty buffer, its timer and an open account. -/
def State.opened (s : State) : State := { s with
  credit := { s.credit with account := .inSession, sessionForfeit := 0 }
  session := { s.session with
    state := .dialWait, buffer := [], decision := none, threshold := none, toneSince := s.now
    timer := some ⟨.firstSymbol, s.now + 20000⟩ } }

theorem State.openSession_eq (s : State) : s.openSession = s.opened.departIdle.recordEvent .opened none none none none := rfl

theorem State.liftHandset_of_on {s : State} (h : s.session.hook = .on) : s.liftHandset =
    if s.session.state = .idle then State.openSession { s with session := { s.session with hook := .off } }
    else { s with session := { s.session with hook := .off } } := by
  rw [State.liftHandset, if_neg (by simp [h])]
  rfl

theorem State.endCall_of_none {s : State} (h : s.session.decision = none) (cause : EndCause) : s.endCall cause = s := by
  rw [State.endCall, h]

theorem State.replaceHandset_of_out {s : State} (h : s.session.hook = .off) (hidle : s.session.state ≠ .idle)
    (hclearing : s.session.state ≠ .clearing) :
    s.replaceHandset = State.endSession .onHook { s with session := { s.session with hook := .on } } := by
  rw [State.replaceHandset, if_neg (by simp [h])]
  simp only [State.setSession_session]
  cases hstate : s.session.state
  case idle => exact absurd hstate hidle
  case clearing => exact absurd hstate hclearing
  all_goals rfl

theorem State.replaceHandset_of_rest {s : State} (h : s.session.hook = .off)
    (hstate : s.session.state = .idle ∨ s.session.state = .clearing) :
    s.replaceHandset = { s with session := { s.session with hook := .on } } := by
  rw [State.replaceHandset, if_neg (by simp [h])]
  simp only [State.setSession_session]
  obtain hstate | hstate := hstate <;> simp only [hstate] <;> rfl

theorem State.closeAccount_eq (s : State) : s.closeAccount = { s with
    credit := { s.credit with account := if s.credit.account = .inSession then .closing else s.credit.account } } := by
  unfold State.closeAccount
  split <;> rfl

/-- R130: what the session end leaves, once any call held has ended. -/
theorem State.endSession_eq {s t : State} {cause : EndCause} (ht : s.endCall cause = t) :
    s.endSession cause = { t with
      session := { t.session with state := .clearing, timer := none }
      credit := { t.credit with account := if t.credit.account = .inSession then .closing else t.credit.account }
      coin := match t.coin.waiting with
        | some w => { t.coin with waiting := some ⟨w.startUp, true⟩, sessionRefunded := false }
        | none =>
          { t.coin with
            waiting := some ⟨false, true⟩, sessionRefunded := false
            transit := t.coin.transit.map (fun e => { e with noted := true }) } } := by
  rw [State.endSession, ht]
  dsimp only
  rw [State.closeAccount_eq, State.requestRefund]
  simp only [State.setSession_coin]
  cases hwaiting : t.coin.waiting <;> simp <;> rfl

/-! ### The end of clearing (R131) -/

theorem CoinPath.sessionRefundStands_iff {c : CoinPath} : c.sessionRefundStands = true ↔
    (∃ w, c.waiting = some w ∧ w.ofSession = true) ∨ ∃ ends startUp, c.cycle = .refund ends startUp true := by
  unfold CoinPath.sessionRefundStands
  cases c.waiting <;> cases c.cycle <;> simp

theorem State.clearingStands_iff {s : State} : s.clearingStands = true ↔
    s.session.state = .clearing ∧ s.credit.account = .notOpen ∧ ¬ s.coin.sessionRefundStands = true := by
  simp [State.clearingStands, and_assoc]

/-- Settles O50. -/
theorem hookOpensAndEndsTheSession : Obligations.HookOpensAndEndsTheSession := by
  intro s hmain recorded opens
  have hexec {work : State → State} : s.whilePowered work = work s := State.whilePowered_of_main hmain
  have hrecorded (event : CallEvent) (t : State) : t.recordEvent event none none none none = recorded event t := rfl
  have hopens {t : State} (hreport : t.lineOwner = some .report → t.line.state.seized = true ∧ t.report.state.onLine = true) :
      t.openSession = opens t := by
    rw [t.openSession_eq, hrecorded]
    refine congrArg (recorded .opened) ?_
    by_cases howns : t.lineOwner = some .report
    · obtain ⟨hseized, honLine⟩ := hreport howns
      rw [if_pos howns]
      exact State.departIdle_of_report (s := t.opened) howns hseized honLine rfl (by simp [State.opened]) rfl
    · rw [if_neg howns]
      refine (State.departIdle_of_not_report (s := t.opened) howns).trans ?_
      exact congrArg (fun timer => t.opened.setReport { t.report with timer := timer }) (map_hold_eq t.now t.report.timer)
  refine ⟨?tone, fun hoff => congrArg Host.Outcome.next (hexec.trans (if_pos hoff)), fun hon => ?lift,
    fun hon => congrArg Host.Outcome.next (hexec.trans (if_pos hon)), fun hoff => ?replace, ?clear⟩
  case tone =>
    rw [State.toneSounding_iff]
    refine exists_congr fun tone => and_congr_right fun _ => ?_
    rewrite [LocalTone.soundsAfter_iff, State.toneStarted_eq]
    rfl
  case lift =>
    intro lifted
    have hlift : exec .offHook s = .next _ := congrArg Host.Outcome.next (hexec.trans (State.liftHandset_of_on hon))
    refine ⟨fun hout => hlift.trans (congrArg _ (if_neg hout)), fun hidle hreport => ?_⟩
    refine hlift.trans (congrArg _ ((if_pos hidle).trans ?_))
    exact hopens (t := lifted) fun howns => (hreport howns).imp_right ReportState.onLine_iff.2
  case replace =>
    intro down
    refine ⟨fun hrest => congrArg _ (hexec.trans (State.replaceHandset_of_rest hoff hrest)), fun hidle hclearing => ?_⟩
    intro t
    have ht : down.endCall .onHook = t := by
      cases hd : s.session.decision with
      | none => exact (State.endCall_of_none (s := down) hd _).trans (if_neg (by simp [hd])).symm
      | some d => exact (if_pos (by simp [hd])).symm
    have hcredit : t.credit = s.credit := by rw [← ht]; simp [down]
    have hcoin : t.coin = s.coin := by rw [← ht]; simp [down]
    refine congrArg _ (hexec.trans ((State.replaceHandset_of_out hoff hidle hclearing).trans ((State.endSession_eq ht).trans ?_)))
    rewrite [hcredit, hcoin]
    rfl
  case clear =>
    intro refundStands resumed
    have hstands : s.coin.sessionRefundStands = true ↔ refundStands := CoinPath.sessionRefundStands_iff
    have hresumed : State.returnIdle (State.recordEvent .closed none none none none
        (s.setSession { s.session with state := .idle })) = resumed :=
      congrArg (fun timer => recorded .closed { s with
        session := { s.session with state := .idle }, report := { s.report with timer := timer } })
        (map_resume_eq s.now s.report.timer)
    refine ⟨fun hclearing hclosed hnone => ?_, fun hnot => ?_⟩
    · have hend : s.endClearing = if s.session.hook = .off then resumed.openSession else resumed := by
        rw [← hresumed, State.endClearing, if_pos (State.clearingStands_iff.2 ⟨hclearing, hclosed, mt hstands.1 hnone⟩)]
        rfl
      refine ⟨fun hon => congrArg _ (hexec.trans (hend.trans (if_neg (by simp [hon])))), fun hoff howns => ?_⟩
      refine congrArg _ (hexec.trans (hend.trans ((if_pos hoff).trans (hopens (t := resumed) fun h => ?_))))
      exact absurd h howns
    · refine congrArg _ (hexec.trans (if_neg fun hc => ?_))
      obtain ⟨hclearing, hclosed, hnone⟩ := State.clearingStands_iff.1 hc
      obtain h | h | h := hnot
      · exact h hclearing
      · exact h hclosed
      · exact hnone (hstands.2 h)

end Sys2Proof.Machine
end

/-! ## The user session: the keys, the verdicts and the session timers (sections 8.3 to 8.8, 8.10 and 8.11) -/

section
namespace Sys2Proof.Machine

/-! ### The keys (R132) -/

theorem Key.idx_inj {a b : Key} : a.idx = b.idx ↔ a = b := by
  refine ⟨fun h => ?_, fun h => h ▸ rfl⟩
  cases a with
  | symbol k =>
    cases b with
    | symbol m => exact congrArg Key.symbol (Fin.castSucc_inj.1 h)
    | followOn => exact absurd h (Fin.ne_of_lt (Fin.castSucc_lt_last k))
  | followOn =>
    cases b with
    | symbol m => exact absurd h.symm (Fin.ne_of_lt (Fin.castSucc_lt_last m))
    | followOn => rfl

theorem Key.exists_idx (n : Fin 13) : ∃ k : Key, k.idx = n := by
  cases n using Fin.lastCases with
  | last => exact ⟨.followOn, rfl⟩
  | cast m => exact ⟨.symbol m, rfl⟩

theorem Session.anyStuck_iff {x : Session} : x.anyStuck = true ↔ ∃ k : Key, x.keys[k.idx] = .stuck := by
  simp only [Session.anyStuck, List.any_eq_true, decide_eq_true_eq, Vector.mem_toList_iff, Vector.mem_iff_getElem]
  constructor
  · rintro ⟨_, ⟨n, hn, rfl⟩, hstuck⟩
    obtain ⟨k, hk⟩ := Key.exists_idx ⟨n, hn⟩
    exact ⟨k, by simpa [hk] using hstuck⟩
  · rintro ⟨k, hstuck⟩
    exact ⟨_, ⟨k.idx.val, k.idx.isLt, rfl⟩, hstuck⟩

theorem State.anyStuck_setKey_released {key : Key} {s : State} : (s.setKey key .released).session.anyStuck = true ↔
    ∃ other, other ≠ key ∧ s.session.keys[other.idx] = .stuck := by
  rw [Session.anyStuck_iff]
  refine exists_congr fun other => ?_
  simp only [State.setKey, State.setSession_session, Fin.getElem_fin, Vector.getElem_set]
  by_cases h : key = other
  · simp [h]
  · have hidx : key.idx.val ≠ other.idx.val := fun hc => h (Key.idx_inj.1 (Fin.ext hc))
    simp [hidx, Ne.symm h]

theorem exec_symbolKeyPress {sym : Symbol} {s : State} (hmain : s.supplies.main = true)
    (hkey : s.session.keys[(Key.symbol sym).idx] = .released) :
    exec (.symbolKeyPress sym) s = .next ((s.setKey (.symbol sym) (.pressed s.now)).takeSymbol sym) :=
  congrArg Host.Outcome.next ((State.whilePowered_of_main hmain).trans (if_pos hkey))

theorem exec_followOnPress {s : State} (hmain : s.supplies.main = true) (hkey : s.session.keys[Key.followOn.idx] = .released) :
    exec .followOnPress s = .next (s.setKey .followOn (.pressed s.now)).takeFollowOn :=
  congrArg Host.Outcome.next ((State.whilePowered_of_main hmain).trans (if_pos hkey))

theorem State.takeSymbol_of_open {s : State} (h : s.sup.level ≠ .closed) (sym : Symbol) : s.takeSymbol sym =
    match s.session.state with
    | .dialWait | .ended => (s.setSession { s.session with buffer := [] }).appendSymbol sym
    | .collecting => if s.session.buffer.length < 20 then s.appendSymbol sym else s
    | .connected => s.sendTones .session [sym]
    | .idle | .awaitCredit | .placing | .ringing | .clearing => s := by
  refine (if_neg h).trans ?_
  cases s.session.state <;> rfl

theorem State.takeFollowOn_of_call {s : State} (h : s.session.state.holdsCall = true) :
    s.takeFollowOn = (s.endCall .followOn).enterDialWait := by
  unfold State.takeFollowOn
  cases hstate : s.session.state <;> simp_all [SessionState.holdsCall]

theorem State.takeFollowOn_of_open {s : State}
    (h : s.session.state = .dialWait ∨ s.session.state = .collecting ∨ s.session.state = .ended) :
    s.takeFollowOn = s.enterDialWait := by
  unfold State.takeFollowOn
  obtain h | h | h := h <;> rw [h]

theorem State.takeFollowOn_of_rest {s : State} (h : s.session.state = .idle ∨ s.session.state = .clearing) :
    s.takeFollowOn = s := by
  unfold State.takeFollowOn
  obtain h | h := h <;> rw [h]

theorem State.stickKey_of_pressed {key : Key} {s : State} {since : Nat} (h : s.session.keys[key.idx] = .pressed since)
    (hdue : since + 30000 ≤ s.now) : s.stickKey key =
      if s.normal .keypad then (s.setKey key .stuck).becomeAbnormal .keypad .keypadStuck .fault else s.setKey key .stuck := by
  rw [State.stickKey, h]
  dsimp only
  rw [State.reach_of_le hdue]
  rfl

theorem State.stickKey_of_not_pressed {key : Key} {s : State} (h : ∀ since, s.session.keys[key.idx] ≠ .pressed since) :
    s.stickKey key = s := by
  unfold State.stickKey
  split
  · exact absurd ‹_› (h _)
  · rfl
  · rfl

/-- Settles O51. -/
theorem keysAreTakenByTheSessionState : Obligations.KeysAreTakenByTheSessionState := by
  intro s hmain keyed
  have hexec {work : State → State} : s.whilePowered work = work s := State.whilePowered_of_main hmain
  refine ⟨fun sym => ?symbol, ?followOn, fun key => ⟨fun since hpressed hdue => ?stuck, fun hnot => ?_, fun hkeeps => ?_,
    fun habnormal hothers => ?_⟩⟩
  case symbol =>
    intro pressed appended taken state
    refine ⟨fun hnot => congrArg _ (hexec.trans (if_neg hnot)), fun hkey => ?_⟩
    rw [exec_symbolKeyPress hmain hkey]
    change (s.sup.level = .closed → Host.Outcome.next (pressed.takeSymbol sym) = _) ∧ (_ → _ ∧ _)
    refine ⟨fun hclosed => congrArg Host.Outcome.next (if_pos hclosed), fun hopen => ?_⟩
    have htake := State.takeSymbol_of_open (s := pressed) hopen sym
    refine ⟨fun hstate => ?_, fun hstate hroom => ?_, fun hstate hfull => ?_, fun hstate hline howns => ?_, fun hstate => ?_⟩
    all_goals
      refine congrArg Host.Outcome.next (htake.trans ?_)
      change (match state with
        | .dialWait | .ended => (pressed.setSession { pressed.session with buffer := [] }).appendSymbol sym
        | .collecting => if pressed.session.buffer.length < 20 then pressed.appendSymbol sym else pressed
        | .connected => pressed.sendTones .session [sym]
        | .idle | .awaitCredit | .placing | .ringing | .clearing => pressed) = _
    · obtain hstate | hstate := hstate <;> rw [hstate] <;> rfl
    · rw [hstate]
      exact if_pos hroom
    · rw [hstate]
      exact if_neg (Nat.not_lt.2 hfull)
    · rw [hstate]
      by_cases hsending : s.line.sending = none
      · rw [if_pos hsending]
        exact if_pos ⟨hline, howns, hsending⟩
      · rw [if_neg hsending]
        exact if_neg fun hc => hsending hc.2.2
    · obtain hstate | hstate | hstate | hstate | hstate := hstate <;> rw [hstate]
  case followOn =>
    intro pressed dialWait
    refine ⟨fun hnot => congrArg _ (hexec.trans (if_neg hnot)), fun hkey => ?_⟩
    rw [exec_followOnPress hmain hkey]
    refine ⟨fun hcall => ?_, fun hopen => ?_, fun hrest => ?_⟩
    · have hnow : (pressed.endCall .followOn).now = s.now := by simp [pressed, keyed]
      refine congrArg Host.Outcome.next ((State.takeFollowOn_of_call (s := pressed) hcall).trans ?_)
      rw [State.enterDialWait, hnow]
      rfl
    · exact congrArg Host.Outcome.next (State.takeFollowOn_of_open (s := pressed) hopen)
    · exact congrArg Host.Outcome.next (State.takeFollowOn_of_rest (s := pressed) hrest)
  case stuck =>
    have hstick := hexec.trans (State.stickKey_of_pressed hpressed hdue)
    exact ⟨fun hnormal => congrArg Host.Outcome.next (hstick.trans (if_pos hnormal)),
      fun habnormal => congrArg Host.Outcome.next (hstick.trans (if_neg (by simp [habnormal])))⟩
  · exact congrArg Host.Outcome.next (hexec.trans (State.stickKey_of_not_pressed hnot))
  · exact congrArg Host.Outcome.next (hexec.trans (if_pos (hkeeps.symm.imp_left State.anyStuck_setKey_released.2)))
  · refine congrArg Host.Outcome.next (hexec.trans (if_neg fun hc => ?_))
    obtain hstuck | hnormal := hc
    · obtain ⟨other, hne, hother⟩ := State.anyStuck_setKey_released.1 hstuck
      exact hothers other hne hother
    · exact absurd (habnormal.symm.trans hnormal) Bool.false_ne_true

/-! ### Verdicts (R72, R135 to R138) -/

theorem ServiceLevel.allows_iff {level : ServiceLevel} {category : Category} : level.allows category = true ↔
    category ≠ .blocked ∧ (level = .full ∨ level = .freeOnly ∧ category ≠ .charged ∨
      level = .emergencyOnly ∧ category = .emergency) := by
  cases level <;> cases category <;> simp [ServiceLevel.allows]

theorem holdsStarOrHash_iff {string : List Symbol} : holdsStarOrHash string = true ↔ ∃ k ∈ string, 10 ≤ k.val := by
  simp [holdsStarOrHash]

theorem diallable_iff {method : DialMethod} {string : List Symbol} :
    diallable method string = true ↔ method = .tone ∨ ∀ k ∈ string, k.val < 10 := by
  refine ⟨fun h => ?_, diallable_of⟩
  refine Classical.byContradiction fun hc => ?_
  obtain ⟨hmethod, hsymbol⟩ := not_or.1 hc
  have hpulse : method = .pulse := by cases method <;> simp_all
  rw [diallable_eq_false_of hpulse (by simpa using hsymbol)] at h
  exact Bool.false_ne_true h

theorem State.judgeDecision_of_not_allowed {r : Chosen} {s : State} (h : ¬ s.sup.level.allows r.content.category = true) :
    s.judgeDecision r = s.refuseNumber .notAllowed (some r) := if_neg h

/-- R137: an allowed decision held, its record pinned. -/
def State.holding (r : Chosen) (s : State) : State :=
  let d := r.decision s.session.buffer
  { s with tariff := s.tariff.pin d.slot, session := { s.session with decision := some d, timer := none } }

theorem State.judgeDecision_of_allowed {r : Chosen} {s : State} (h : s.sup.level.allows r.content.category = true) :
    s.judgeDecision r =
      if r.content.category = .charged then
        if (s.holding r).thresholdOf r.slot ≤ s.available then (s.holding r).place (r.decision s.session.buffer)
        else (s.holding r).awaitCredit (r.decision s.session.buffer) ((s.holding r).thresholdOf r.slot)
      else (s.holding r).place (r.decision s.session.buffer) := if_pos h

/-! ### Placing (R89, R140) -/

section
variable {d : Decision} {s : State}

/-- R89, R140: the session in PLACING with its rating context open. -/
def State.placing (d : Decision) (s : State) : State :=
  { s with session := { s.session with state := .placing, timer := none }, rating := s.rating.openContext d }

theorem State.place_of_diallable (h : diallable s.settings.method d.symbols = true) (hrequest : s.line.sessionRequest = none)
    (howns : s.lineOwner ≠ some .session) :
    s.place d = ((s.placing d).setLine { s.line with
      sessionRequest := some (s.settings.lineRequest .session d.symbols) }).recordEvent .placed (some d.slot) (some d.category) none (some (wrapInc top16 s.rating.callNumber)) := by
  have hline : (s.placing d).requestLine .session d.symbols =
      (s.placing d).setLine { s.line with sessionRequest := some (s.settings.lineRequest .session d.symbols) } :=
    State.requestLine_of_none (s := s.placing d) (owner := .session) hrequest howns d.symbols
  rw [State.place]
  simp only [State.setRating_settings, State.setSession_settings, h, if_true]
  exact (congrArg (fun u : State =>
    u.recordEvent .placed (some d.slot) (some d.category) none (some u.rating.callNumber)) hline).trans rfl

theorem State.place_of_not_diallable (h : ¬ diallable s.settings.method d.symbols = true) :
    s.place d = State.endCallToEnded .undiallable ((s.placing d).recordEvent .placed (some d.slot) (some d.category) none
      (some (wrapInc top16 s.rating.callNumber))) := by
  rw [State.place]
  simp only [State.setRating_settings, State.setSession_settings, h]
  rfl

end

/-! ### The session timers (R136, R139) -/

theorem Session.timerOf_of_same {x : Session} {kind : TimerKind} {t : Nat} (h : x.timer = some ⟨kind, t⟩) :
    x.timerOf kind = some t := by
  rw [Session.timerOf, h]
  exact if_pos rfl

theorem Session.timerOf_of_other {x : Session} {kind other : TimerKind} {t : Nat} (h : x.timer = some ⟨other, t⟩)
    (hother : other ≠ kind) : x.timerOf kind = none := by
  rw [Session.timerOf, h]
  exact if_neg hother

theorem Session.timerOf_of_none {x : Session} (h : x.timer = none) (kind : TimerKind) : x.timerOf kind = none := by
  rw [Session.timerOf, h]

theorem State.expireFirstSymbol_of_none {s : State} (h : s.session.timerOf .firstSymbol = none) : s.expireFirstSymbol = s := by
  rw [State.expireFirstSymbol, h]

theorem State.expireInterSymbol_of_none {s : State} (h : s.session.timerOf .interSymbol = none) : s.expireInterSymbol = s := by
  rw [State.expireInterSymbol, h]

theorem State.expireCreditWait_of_none {s : State} (h : s.session.timerOf .creditWait = none) : s.expireCreditWait = s := by
  rw [State.expireCreditWait, h]

section
variable {s : State} {t : Nat} (hdue : t ≤ s.now)
include hdue

theorem State.expireFirstSymbol_of_due (h : s.session.timerOf .firstSymbol = some t) :
    s.expireFirstSymbol = s.refuseNumber .noSymbol none := by
  rw [State.expireFirstSymbol, h]
  exact congrArg (State.refuseNumber .noSymbol none) (State.reach_of_le hdue)

theorem State.expireInterSymbol_of_due (h : s.session.timerOf .interSymbol = some t) : s.expireInterSymbol =
    State.takeVerdict ((s.tariff.timeoutVerdict s.session.buffer).forMethod s.settings.method s.session.buffer)
      { s with session := { s.session with timer := none } } := by
  rw [State.expireInterSymbol, h]
  dsimp only
  rw [State.reach_of_le hdue]
  rfl

theorem State.expireCreditWait_of_due (h : s.session.timerOf .creditWait = some t) :
    s.expireCreditWait = s.endCallToEnded .creditTimeout := by
  rw [State.expireCreditWait, h]
  exact congrArg (State.endCallToEnded .creditTimeout) (State.reach_of_le hdue)

end

/-- Settles O52. -/
theorem verdictsAndTimersMoveTheSession : Obligations.VerdictsAndTimersMoveTheSession := by
  intro s recorded refused
  refine ⟨fun r method x cause => ⟨rfl, rfl, fun hbarred => ?_, fun hsends => ?_⟩, rfl, fun cause r => rfl, fun r => ?decided,
    fun d => ?placed, fun hmain => ⟨fun kind t htimer hdue => ?expiry, fun hnone => ?_⟩⟩
  · exact if_pos (hbarred.imp_right holdsStarOrHash_iff.2)
  · exact if_neg fun hc => hsends (hc.imp_right holdsStarOrHash_iff.1)
  case decided =>
    intro category d allowed pinned held t
    have hallows : s.sup.level.allows r.content.category = true ↔ allowed := ServiceLevel.allows_iff
    have hheld : s.holding r = held := rfl
    refine ⟨fun hnot => State.judgeDecision_of_not_allowed (mt hallows.1 hnot), fun hall hpays => ?_, fun hall hcharged hshort => ?_⟩
    · refine (State.judgeDecision_of_allowed (hallows.2 hall)).trans ?_
      rw [hheld]
      by_cases hcharged : category = .charged
      · exact (if_pos hcharged).trans (if_pos (hpays.resolve_left (not_not_intro hcharged)))
      · exact if_neg hcharged
    · refine (State.judgeDecision_of_allowed (hallows.2 hall)).trans ((if_pos hcharged).trans ?_)
      rw [hheld]
      exact if_neg (Nat.not_le.2 hshort)
  case placed =>
    intro number context placed sendable
    have hsends : diallable s.settings.method d.symbols = true ↔ sendable := diallable_iff
    exact ⟨fun hsend hrequest howns => State.place_of_diallable (hsends.2 hsend) hrequest howns,
      fun hnot => State.place_of_not_diallable (mt hsends.1 hnot)⟩
  case expiry =>
    have hexec {work : State → State} : s.whilePowered work = work s := State.whilePowered_of_main hmain
    refine ⟨?_, ?_, ?_, fun h => ?_, fun h => ?_, fun h => ?_⟩
    · rintro rfl
      exact congrArg _ (hexec.trans (State.expireFirstSymbol_of_due hdue (Session.timerOf_of_same htimer)))
    · rintro rfl
      exact congrArg _ (hexec.trans (State.expireInterSymbol_of_due hdue (Session.timerOf_of_same htimer)))
    · rintro rfl
      exact congrArg _ (hexec.trans (State.expireCreditWait_of_due hdue (Session.timerOf_of_same htimer)))
    · exact congrArg _ (hexec.trans (State.expireFirstSymbol_of_none (Session.timerOf_of_other htimer h)))
    · exact congrArg _ (hexec.trans (State.expireInterSymbol_of_none (Session.timerOf_of_other htimer h)))
    · exact congrArg _ (hexec.trans (State.expireCreditWait_of_none (Session.timerOf_of_other htimer h)))
  · have hexec {work : State → State} : s.whilePowered work = work s := State.whilePowered_of_main hmain
    exact ⟨congrArg _ (hexec.trans (State.expireFirstSymbol_of_none (Session.timerOf_of_none hnone _))),
      congrArg _ (hexec.trans (State.expireInterSymbol_of_none (Session.timerOf_of_none hnone _))),
      congrArg _ (hexec.trans (State.expireCreditWait_of_none (Session.timerOf_of_none hnone _)))⟩

end Sys2Proof.Machine
end

/-! ## The supervised inputs (sections 9.2 and 9.3) -/

section
namespace Sys2Proof.Machine

section
variable {i : Fin 8} {s : State} {y : SupervisedInput}

theorem State.input_setInput (i : Fin 8) (y : SupervisedInput) (s : State) : (s.setInput i y).sup.inputs[i] = y := by
  simp [State.setInput]

theorem State.inputs_recount (src : Source) (s : State) : (s.recount src).sup.inputs = s.sup.inputs := by
  unfold State.recount
  split <;> rfl

/-- A reading of an input taken, with the active seconds that follow it (R151, R166). -/
def State.readInput (i : Fin 8) (y : SupervisedInput) (s : State) : State := (s.setInput i y).recount (.input i)

theorem State.input_readInput (i : Fin 8) (y : SupervisedInput) (s : State) : (s.readInput i y).sup.inputs[i] = y := by
  rw [State.readInput, State.inputs_recount]
  exact State.input_setInput i y s

theorem State.normal_readInput (i : Fin 8) (y : SupervisedInput) (s : State) (src : Source) :
    (s.readInput i y).normal src = s.normal src := by
  rw [State.readInput, State.normal_recount]
  rfl

/-! ### Staged assignments (R158) -/

/-- R158: a staged assignment taken at the first instant its input, in use, is at rest. -/
theorem State.takeStaged_eq (hinput : s.sup.inputs[i] = y) (hused : y.assignment.type ≠ .unused) : s.takeStaged i =
    match y.staged with
    | none => s
    | some b =>
      if y.active = false ∧ y.windowEnds = none ∧ y.holdOffEnds = none then
        (s.setInput i { y with assignment := b, staged := none, edgeCount := 0 }).deriveLevel
      else s := by
  have hrest : y.atRest = true ↔ y.active = false ∧ y.windowEnds = none ∧ y.holdOffEnds = none := by
    simp [SupervisedInput.atRest, hused, and_assoc]
  unfold State.takeStaged
  rw [hinput]
  cases y.staged with
  | none => rfl
  | some b =>
    by_cases hatRest : y.active = false ∧ y.windowEnds = none ∧ y.holdOffEnds = none
    · obtain ⟨hactive, hwindow, hholdOff⟩ := hatRest
      have hassign : y.assign b = { y with assignment := b, staged := none, edgeCount := 0 } := by
        simp [SupervisedInput.assign, hactive, hwindow, hholdOff]
      refine (if_pos (hrest.2 ⟨hactive, hwindow, hholdOff⟩)).trans (Eq.trans ?_ (if_pos ⟨hactive, hwindow, hholdOff⟩).symm)
      rw [State.assignInput, hinput, hassign]
    · exact (if_neg (mt hrest.1 hatRest)).trans (if_neg hatRest).symm

/-! ### Edges (R151 to R155) -/

theorem State.inputOccurs_eq (hinput : s.sup.inputs[i] = y) : s.inputOccurs i =
    (s.setInput i { y with
      windowEnds := none, edgeCount := 0
      holdOffEnds := if y.assignment.holdOff = 0 then none else some (s.now + y.assignment.holdOff * 1000)
      }).becomeAbnormal (.input i) (.ofInput y.assignment.type) y.assignment.type.severity := by
  rw [State.inputOccurs, hinput]

theorem State.takeEdge_of_edge (hinput : s.sup.inputs[i] = y) (hmode : y.assignment.mode = .edge) :
    s.takeEdge i = s.inputOccurs i := by
  rw [State.takeEdge, hinput, hmode]

theorem State.takeEdge_of_level (hinput : s.sup.inputs[i] = y) (hmode : y.assignment.mode = .level) :
    s.takeEdge i = if s.normal (.input i) then s.inputOccurs i else s := by
  rw [State.takeEdge, hinput, hmode]

theorem State.takeEdge_of_count (hinput : s.sup.inputs[i] = y) (hmode : y.assignment.mode = .count) :
    s.takeEdge i = s.countEdge i := by
  rw [State.takeEdge, hinput, hmode]

theorem State.countEdge_of_closed (hinput : s.sup.inputs[i] = y) (hwindow : y.windowEnds = none) (hcount : 2 ≤ y.assignment.count) :
    s.countEdge i = s.setInput i { y with windowEnds := some (s.now + y.assignment.window * 1000), edgeCount := 1 } := by
  rw [State.countEdge, hinput]
  simp only [hwindow, if_true]
  exact if_neg (by omega)

theorem State.countEdge_of_open {ends : Nat} (hinput : s.sup.inputs[i] = y) (hwindow : y.windowEnds = some ends) :
    s.countEdge i = if y.assignment.count ≤ y.edgeCount + 1 then s.inputOccurs i
      else s.setInput i { y with windowEnds := some ends, edgeCount := y.edgeCount + 1 } := by
  rw [State.countEdge, hinput]
  simp only [hwindow, reduceCtorEq, if_false]

theorem State.activeEdge_of_taken (hinput : s.sup.inputs[i] = y) (hused : y.assignment.type ≠ .unused) (hlow : y.active = false) :
    s.activeEdge i = if y.holdOffEnds = none then
      (s.readInput i { y with active := true, clearFrom := none }).takeEdge i
      else s.readInput i { y with active := true, clearFrom := none } := by
  rw [State.activeEdge, hinput]
  exact if_neg (by simp [hused, hlow])

theorem State.activeEdge_of_ignored (h : s.sup.inputs[i].assignment.type = .unused ∨ s.sup.inputs[i].active = true) :
    s.activeEdge i = s := if_pos h

theorem State.inactiveChange_of_taken (hinput : s.sup.inputs[i] = y) (hused : y.assignment.type ≠ .unused)
    (hhigh : y.active = true) :
    s.inactiveChange i = (s.readInput i { y with active := false, clearFrom := some s.now }).takeStaged i := by
  rw [State.inactiveChange, hinput]
  exact if_pos ⟨hused, hhigh⟩

theorem State.inactiveChange_of_ignored (h : s.sup.inputs[i].assignment.type = .unused ∨ s.sup.inputs[i].active = false) :
    s.inactiveChange i = s :=
  if_neg fun ⟨hused, hhigh⟩ => h.elim hused fun hlow => Bool.false_ne_true (hlow.symm.trans hhigh)

/-! ### Windows and delays (R154 to R156) -/

theorem State.endWindow_of_none (h : s.sup.inputs[i].windowEnds = none) : s.endWindow i = s := by
  rw [State.endWindow, h]

theorem State.endWindow_of_due {t : Nat} (hinput : s.sup.inputs[i] = y) (h : y.windowEnds = some t) (hdue : t ≤ s.now) :
    s.endWindow i = (s.setInput i { y with windowEnds := none, edgeCount := 0 }).takeStaged i := by
  rw [State.endWindow, hinput, h]
  dsimp only
  rw [State.reach_of_le hdue]

theorem State.endHoldOff_of_none (h : s.sup.inputs[i].holdOffEnds = none) : s.endHoldOff i = s := by
  rw [State.endHoldOff, h]

theorem State.endHoldOff_of_due {t : Nat} (hinput : s.sup.inputs[i] = y) (h : y.holdOffEnds = some t) (hdue : t ≤ s.now) :
    s.endHoldOff i = (s.setInput i { y with holdOffEnds := none }).takeStaged i := by
  rw [State.endHoldOff, hinput, h]
  dsimp only
  rw [State.reach_of_le hdue]

theorem State.endClearDelay_of_none (h : s.sup.inputs[i].clearFrom = none) : s.endClearDelay i = s := by
  rw [State.endClearDelay, h]

theorem State.endClearDelay_of_due {t : Nat} (hinput : s.sup.inputs[i] = y) (h : y.clearFrom = some t)
    (hdue : t + y.assignment.clearDelay * 1000 ≤ s.now) :
    s.endClearDelay i = (s.setInput i { y with clearFrom := none }).makeNormal (.input i) := by
  rw [State.endClearDelay, hinput, h]
  dsimp only
  rw [State.reach_of_le (by exact hdue)]

end

/-- Settles O53. -/
theorem inputEventsFollowTheAssignment : Obligations.InputEventsFollowTheAssignment := by
  intro i s hmain x a put resting up edged edge held occurs counted
  have hexec {work : State → State} : s.whilePowered work = work s := State.whilePowered_of_main hmain
  have hx : s.sup.inputs[i] = x := rfl
  have hup : (edged up).sup.inputs[i] = up := State.input_readInput i up s
  have hnow : (edged up).now = s.now := by simp [edged, put]
  have hoccurs : (edged up).inputOccurs i = occurs := by
    rw [State.inputOccurs_eq hup, hnow]
    rfl
  have hresting {y : SupervisedInput} {t : State} (hinput : t.sup.inputs[i] = y) (hused : y.assignment.type ≠ .unused) :
      t.takeStaged i = resting y t := by
    rw [State.takeStaged_eq hinput hused]
    cases y with
    | mk _ staged => cases staged <;> rfl
  refine ⟨fun h => congrArg _ (hexec.trans (State.activeEdge_of_ignored h)), fun hused hlow => ?edge,
    fun h => congrArg _ (hexec.trans (State.inactiveChange_of_ignored h)), fun hused hhigh => ?change,
    fun h => congrArg _ (hexec.trans (State.endWindow_of_none h)), fun t ht hdue hused => ?window,
    fun h => congrArg _ (hexec.trans (State.endHoldOff_of_none h)), fun t ht hdue hused => ?holdOff,
    fun h => congrArg _ (hexec.trans (State.endClearDelay_of_none h)),
    fun t ht hdue => congrArg _ (hexec.trans (State.endClearDelay_of_due hx ht hdue))⟩
  case edge =>
    have hactive := hexec.trans (State.activeEdge_of_taken hx hused hlow)
    refine ⟨fun hholds => congrArg _ (hactive.trans (if_neg hholds)), fun hfree => ?_⟩
    have htaken : s.whilePowered (State.activeEdge i) = (edged up).takeEdge i := hactive.trans (if_pos hfree)
    have hnormal : (edged up).normal (.input i) = s.normal (.input i) := State.normal_readInput i up s (.input i)
    refine ⟨fun hmode => ?_, fun hmode hsource => ?_, fun hmode hsource => ?_, fun hmode hcount => ⟨fun hwindow => ?_,
      fun ends hwindow => ⟨fun hfew => ?_, fun hreached => ?_⟩⟩⟩
    · exact congrArg Host.Outcome.next (htaken.trans ((State.takeEdge_of_edge hup hmode).trans hoccurs))
    · refine congrArg Host.Outcome.next (htaken.trans ((State.takeEdge_of_level hup hmode).trans ?_))
      rw [hnormal, hsource]
      exact hoccurs
    · refine congrArg Host.Outcome.next (htaken.trans ((State.takeEdge_of_level hup hmode).trans ?_))
      rw [hnormal, hsource]
      rfl
    · refine congrArg Host.Outcome.next (htaken.trans ((State.takeEdge_of_count hup hmode).trans ?_))
      rw [State.countEdge_of_closed hup hwindow hcount, hnow]
      rfl
    · refine congrArg Host.Outcome.next (htaken.trans ((State.takeEdge_of_count hup hmode).trans ?_))
      exact (State.countEdge_of_open hup hwindow).trans (if_neg (Nat.not_le.2 hfew))
    · refine congrArg Host.Outcome.next (htaken.trans ((State.takeEdge_of_count hup hmode).trans ?_))
      exact (State.countEdge_of_open hup hwindow).trans ((if_pos hreached).trans hoccurs)
  case change =>
    intro down
    refine congrArg Host.Outcome.next (hexec.trans ((State.inactiveChange_of_taken hx hused hhigh).trans ?_))
    exact hresting (State.input_readInput i down s) hused
  case window =>
    intro y
    refine congrArg Host.Outcome.next (hexec.trans ((State.endWindow_of_due hx ht hdue).trans ?_))
    exact hresting (State.input_setInput i y s) hused
  case holdOff =>
    intro y
    refine congrArg Host.Outcome.next (hexec.trans ((State.endHoldOff_of_due hx ht hdue).trans ?_))
    exact hresting (State.input_setInput i y s) hused

end Sys2Proof.Machine
end

/-! ## Requests on the ports: taken, LOCKED or FORMAT (sections 11.1 and 11.2) -/

section
namespace Sys2Proof.Machine

/-! ### The body lengths of each kind (section 11.8) -/

/-- The body lengths of a kind's requests. -/
def requestFits : Nat → List Byte → Bool
  | 4 => symbolStringFits
  | 6 => countedFits 2 3
  | 8 => countedFits 1 2
  | 12 => settingSetFits
  | 26 => settingGetFits
  | kind => match fixedLength kind with
    | some n => ofLength n
    | none => fun _ => false

theorem requestFits_of_fixedLength {kind n : Nat} (h : fixedLength kind = some n) : requestFits kind = ofLength n := by
  unfold requestFits
  split
  case h_6 => rw [h]
  all_goals cases h

theorem fixedLength_of_unknown {kind : Nat} (h : kind = 0 ∨ 26 < kind) : fixedLength kind = none := by
  unfold fixedLength
  split <;> first | omega | rfl

theorem requestFits_of_unknown {kind : Nat} (h : kind = 0 ∨ 26 < kind) : requestFits kind = fun _ => false := by
  unfold requestFits
  split
  case h_6 => rw [fixedLength_of_unknown h]
  all_goals omega

theorem symbolStringFits_iff {body : List Byte} : symbolStringFits body = true ↔
    ∃ n rest, body = n :: rest ∧ rest.length = (n.toNat + 1) / 2 := by
  cases body with
  | nil => simp [symbolStringFits]
  | cons n rest =>
    have hlength : symbolStringFits (n :: rest) = true ↔ rest.length = (n.toNat + 1) / 2 := decide_eq_true_iff
    refine hlength.trans ⟨fun h => ⟨n, rest, rfl, h⟩, ?_⟩
    rintro ⟨_, _, ⟨⟩, h⟩
    exact h

theorem countedFits_eq_false {head size : Nat} {body : List Byte} (h : body.length ≠ head + size * byteAt body (head - 1)) :
    countedFits head size body = false := by
  simp [countedFits, h]

/-- Section 11.8: a body length that the kind does not allow. -/
def WrongLength (kind : Nat) (body : List Byte) : Prop :=
  let string (b : List Byte) : Prop := ∃ n rest, b = n :: rest ∧ rest.length = (n.toNat + 1) / 2
  (∃ n, fixedLength kind = some n ∧ body.length ≠ n) ∨
  kind = 4 ∧ ¬ string body ∨ kind = 6 ∧ body.length ≠ 2 + 3 * byteAt body 1 ∨
  kind = 8 ∧ body.length ≠ 1 + 2 * byteAt body 0 ∨ (kind = 12 ∨ kind = 26) ∧ body = [] ∨
  kind = 12 ∧ (∃ code value, body = code :: value ∧
    (code.toNat ∈ [1, 2] ∧ ¬ string value ∨ code.toNat ∈ [3, 4, 7] ∧ value.length ≠ 1 ∨
      code.toNat ∈ [5, 6, 9, 10] ∧ value.length ≠ 2 ∨ code.toNat = 8 ∧ value.length ≠ 4 ∨
      code.toNat = 11 ∧ value.length ≠ 13)) ∨
  kind = 26 ∧ (∃ code value, body = code :: value ∧
    value.length ≠ if code.toNat = 10 ∨ code.toNat = 11 then 1 else 0)

theorem settingSetFits_eq_false {code : Byte} {value : List Byte}
    (h : code.toNat ∈ [1, 2] ∧ ¬ symbolStringFits value = true ∨ code.toNat ∈ [3, 4, 7] ∧ value.length ≠ 1 ∨
      code.toNat ∈ [5, 6, 9, 10] ∧ value.length ≠ 2 ∨ code.toNat = 8 ∧ value.length ≠ 4 ∨
      code.toNat = 11 ∧ value.length ≠ 13) : settingSetFits (code :: value) = false := by
  simp only [List.mem_cons, List.not_mem_nil, or_false] at h
  unfold settingSetFits
  obtain ⟨hcode, h⟩ | ⟨hcode, h⟩ | ⟨hcode, h⟩ | ⟨hcode, h⟩ | ⟨hcode, h⟩ := h
  · obtain hcode | hcode := hcode <;> simpa [hcode] using h
  · obtain hcode | hcode | hcode := hcode <;> simpa [hcode] using h
  · obtain hcode | hcode | hcode | hcode := hcode <;> simpa [hcode] using h
  · simpa [hcode] using h
  · simpa [hcode] using h

theorem settingGetFits_eq_false {code : Byte} {value : List Byte}
    (h : value.length ≠ if code.toNat = 10 ∨ code.toNat = 11 then 1 else 0) : settingGetFits (code :: value) = false := by
  unfold settingGetFits
  split at h <;> simp_all

theorem requestFits_of_wrongLength {kind : Nat} {body : List Byte} (h : WrongLength kind body) :
    requestFits kind body = false := by
  simp only [WrongLength, ← symbolStringFits_iff] at h
  obtain ⟨n, hn, hlength⟩ | ⟨rfl, h⟩ | ⟨rfl, h⟩ | ⟨rfl, h⟩ | ⟨rfl | rfl, rfl⟩ | ⟨rfl, code, value, rfl, h⟩ |
    ⟨rfl, code, value, rfl, h⟩ := h
  · rw [requestFits_of_fixedLength hn]
    exact decide_eq_false hlength
  · exact Bool.eq_false_iff.2 h
  · exact countedFits_eq_false h
  · exact countedFits_eq_false h
  · rfl
  · rfl
  · exact settingSetFits_eq_false h
  · exact settingGetFits_eq_false h

/-! ### A request served -/

theorem exec_unknownRequest {p : Port} {kind tag : Byte} {body : List Byte} {s : State}
    (hwell : (Instr.unknownRequest p kind tag body).wellFormed = true) (hmain : s.supplies.main = true) :
    exec (.unknownRequest p kind tag body) s =
      .next (s.serve p kind.toNat tag body (requestFits kind.toNat) (reading fun _ => .refused .format)) := by
  simp only [Instr.wellFormed, Bool.and_eq_true, unknownKind, Bool.or_eq_true, decide_eq_true_eq] at hwell
  rw [requestFits_of_unknown hwell.1.2]
  exact congrArg Host.Outcome.next ((congrFun (congrArg State.whilePowered (if_pos hwell.2)) s).trans
    (State.whilePowered_of_main hmain))

/-- Every request is served on its port, with the body lengths of its kind; CONDITION_CLEAR then hands its new credit on. -/
theorem exec_request {c : Instr} {p : Port} {kind : Nat} {tag : Byte} {body : List Byte} {s : State}
    (hrequest : c.request = some (p, kind, tag, body)) (hwell : c.wellFormed = true) (hmain : s.supplies.main = true) :
    ∃ work, exec c s = .next (s.serve p kind tag body (requestFits kind) work) ∨
      exec c s = .next (State.creditStep (State.serve p kind tag body (requestFits kind) work) s) := by
  cases c
  case unknownRequest =>
    cases hrequest
    exact ⟨_, .inl (exec_unknownRequest hwell hmain)⟩
  case conditionClear =>
    cases hrequest
    exact ⟨_, .inr (congrArg Host.Outcome.next (State.whilePowered_of_main hmain))⟩
  all_goals cases hrequest
  all_goals exact ⟨_, .inl (congrArg Host.Outcome.next (State.whilePowered_of_main hmain))⟩

theorem State.available_answer (p : Port) (r : Response) (s : State) : (s.answer p r).available = s.available := by
  cases p <;> rfl

/-- A request whose service leaves available credit as it is, is that service. -/
theorem exec_request_of_serve {c : Instr} {p : Port} {kind : Nat} {tag : Byte} {body : List Byte} {s t : State}
    (hrequest : c.request = some (p, kind, tag, body)) (hwell : c.wellFormed = true) (hmain : s.supplies.main = true)
    (hserve : ∀ work, s.serve p kind tag body (requestFits kind) work = t) (havailable : t.available = s.available) :
    exec c s = .next t := by
  obtain ⟨work, h | h⟩ := exec_request hrequest hwell hmain
  · rw [h, hserve]
  · rw [h, State.creditStep, hserve]
    exact congrArg Host.Outcome.next (State.handCredit_of_available_eq havailable)

section
variable {p : Port} {kind : Nat} {tag : Byte} {body : List Byte} {fits : List Byte → Bool} {work : State → State × Reply}
  {s : State}

theorem State.takes_eq_false {s : State} (h : (s.port .host).phase = .held ∨ (s.port .host).phase = .serving) :
    s.takes .host = false := by
  obtain h | h := h <;> simp [State.takes, PortUnit.takes, h]

theorem State.serve_of_busy (h : s.takes p = false) : s.serve p kind tag body fits work = s :=
  if_neg (by simp [h])

theorem State.serve_of_locked (htakes : s.takes p = true) (hlocks : s.locks p = true) :
    s.serve p kind tag body fits work = s.answer p ((Reply.refused .locked).response kind tag) := by
  rw [State.serve, if_pos htakes, if_pos hlocks]

theorem State.serve_of_format (h : s.admits p) (hfits : lengthFits fits body = false) :
    s.serve p kind tag body fits work = s.answer p ((Reply.refused .format).response kind tag) := by
  rw [State.serve, if_pos (State.takes_of_admits h), State.locks_of_admits h, if_neg Bool.false_ne_true,
    if_neg (by simp [hfits])]

end

/-! ### A read transfer (R187) -/

theorem State.readResponse_of_free {p : Port} {s : State} (h : (s.port p).phase = .free) :
    s.readResponse p = s.setPort p { s.port p with lastRead := some .kindZero } := by
  have htakes : s.takes p = true := by simp [State.takes, PortUnit.takes, h]
  rw [State.readResponse, htakes]
  exact if_pos h

theorem State.readResponse_of_held {p : Port} {s : State} {r : Response}
    (h : (s.port p).phase = .answered ∨ p = .service ∧ (s.port p).phase ≠ .free) (hr : (s.port p).response = some r) :
    s.readResponse p = s.setPort p { phase := .free, response := none, lastRead := some (.response r) } := by
  have htakes : s.takes p = true := by
    obtain h | ⟨rfl, -⟩ := h
    · simp [State.takes, PortUnit.takes, h]
    · rfl
  have hheld : (s.port p).phase ≠ .free := h.elim (fun h => by simp [h]) And.right
  rw [State.readResponse, htakes, hr]
  exact if_neg hheld

/-- Settles O56. -/
theorem requestsAreTakenLockedOrRefusedFormat : Obligations.RequestsAreTakenLockedOrRefusedFormat := by
  refine ⟨fun p r s => by cases p <;> rfl, fun kind tag body reason => ⟨rfl, rfl, rfl, rfl⟩,
    fun c p kind tag body s hrequest hwell hmain => ?request, fun s => by simp [State.hostReady, PortUnit.takes],
    fun p s hmain => ?read⟩
  case request =>
    intro refused string wrongLength
    have hserves {t : State} := exec_request_of_serve (t := t) hrequest hwell hmain
    refine ⟨fun hp hbusy => ?_, fun _ => ⟨fun hp hclosed => ?_, fun hadmits hformat => ?_⟩⟩
    · subst hp
      exact hserves (fun work => State.serve_of_busy (State.takes_eq_false hbusy)) rfl
    · subst hp
      have hlocks : s.locks .service = true := by
        have hdisabled : s.serviceEnabled = false := Bool.eq_false_iff.2 fun h => by
          obtain ⟨hopen, hkey⟩ := State.serviceEnabled_iff.1 h
          exact hclosed.elim (fun hdoor => by simp [hdoor] at hopen) hkey
        simp [State.locks, hdisabled]
      exact hserves (fun work => State.serve_of_locked rfl hlocks) (State.available_answer ..)
    · have hfits : lengthFits (requestFits kind) body = false := by
        have hnot : 60 < body.length ∨ requestFits kind body = false := by
          obtain h | h | h | h := hformat
          · exact .inr (congrFun (requestFits_of_unknown (.inl h)) body)
          · exact .inr (congrFun (requestFits_of_unknown (.inr h)) body)
          · exact .inl h
          · exact .inr (requestFits_of_wrongLength h)
        obtain h | h := hnot
        · simp [lengthFits, Nat.not_le.2 h]
        · simp [lengthFits, h]
      exact hserves (fun work => State.serve_of_format hadmits hfits) (State.available_answer ..)
  case read =>
    intro port
    have hexec {work : State → State} : s.whilePowered work = work s := State.whilePowered_of_main hmain
    have hport (x : PortUnit) : s.setPort p x = port x := by cases p <;> rfl
    refine ⟨fun hp hbusy => ?_, fun r hanswered hr => ?_, fun hfree => ?_, fun tag body => rfl⟩
    · subst hp
      exact congrArg Host.Outcome.next (hexec.trans (if_pos (by simp [State.takes_eq_false hbusy])))
    · exact congrArg Host.Outcome.next (hexec.trans ((State.readResponse_of_held hanswered hr).trans (hport _)))
    · exact congrArg Host.Outcome.next (hexec.trans ((State.readResponse_of_free hfree).trans (hport _)))

end Sys2Proof.Machine
end

/-! ## The requests that read (sections 1.2, 3.6, 4.8, 4.9, 5.2 to 5.4, 6.10, 7.9, 8.13, 9.9, 10.6 and 11.3 to 11.6) -/

section
namespace Sys2Proof.Machine

/-! ### A reading request -/

/-- A command that answers a reply on its port and changes nothing else. -/
def State.Answers (p : Port) (tag : Byte) (s : State) (c : Instr) (kind : Nat) (r : Reply) : Prop :=
  exec c s = .next (s.answer p (r.response kind tag))

section
variable {p : Port} {tag : Byte} {s : State}

theorem State.answers_of_reading {c : Instr} {kind : Nat} {body : List Byte} {fits : List Byte → Bool} {reply : State → Reply}
    {r : Reply} (h : s.admits p)
    (hexec : exec c s = .next (s.whilePowered (State.serve p kind tag body fits (reading reply))))
    (hfits : lengthFits fits body = true) (hreply : reply s = r) : s.Answers p tag c kind r :=
  hreply ▸ hexec.trans (congrArg Host.Outcome.next
    ((State.whilePowered_of_main h.1).trans (State.serve_of_admits h hfits kind tag (reading reply))))

section
variable (h : s.admits p)
include h

theorem State.answers_tariffGet (slot : Byte) : s.Answers p tag (.tariffGet p tag [slot]) 2 (s.tariff.get slot.toNat) :=
  State.answers_of_reading h rfl rfl rfl

theorem State.answers_tariffFind {body : List Byte} (hfits : symbolStringFits body = true) (hlength : body.length ≤ 60) :
    s.Answers p tag (.tariffFind p tag body) 4 (s.findTariff body) :=
  State.answers_of_reading h rfl (by simp [lengthFits, hfits, hlength]) rfl

theorem State.answers_tariffScan (start code : Byte) :
    s.Answers p tag (.tariffScan p tag [start, code]) 5 (s.scanTariff [start, code]) :=
  State.answers_of_reading h rfl rfl rfl

theorem State.answers_bandGet (code : Byte) : s.Answers p tag (.bandGet p tag [code]) 7 (s.getBands code.toNat) :=
  State.answers_of_reading h rfl rfl rfl

theorem State.answers_coinClassGet (code : Byte) :
    s.Answers p tag (.coinClassGet p tag [code]) 11 (s.getCoinClass code.toNat) :=
  State.answers_of_reading h rfl rfl rfl

theorem State.answers_conditionGet (code : Byte) :
    s.Answers p tag (.conditionGet p tag [code]) 18 (s.getCondition code.toNat) :=
  State.answers_of_reading h rfl rfl rfl

theorem State.answers_settingGet {body : List Byte} (hfits : lengthFits settingGetFits body = true) :
    s.Answers p tag (.settingGet p tag body) 26 (s.getSetting body) :=
  State.answers_of_reading h rfl hfits rfl

end

/-! ### The status views (R40, R110, R126, R148, R184) -/

theorem State.ratingView_eq (s : State) : s.ratingView = match s.rating.context with
    | .empty => ⟨.empty, none, none, none, s.rating.summary⟩
    | .placed call => ⟨.placed, some call, none, none, s.rating.summary⟩
    | .rated call c =>
      ⟨.rated, some call, some ((s.now - c.answeredAt) / 1000),
        some { rounding := c.rounding, steps := c.steps, total := c.total, lastBand := c.lastBand, acc := c.acc
               secondsToBoundary := (c.nextBoundary - s.now) / 1000
               warning := c.warning.map (fun w => ⟨if w.playing then 0 else (w.toneStart - s.now) / 1000⟩)
               runway := c.runway },
        s.rating.summary⟩
    | .unrated call answeredAt => ⟨.unrated, some call, some ((s.now - answeredAt) / 1000), none, s.rating.summary⟩ := by
  unfold State.ratingView
  cases s.rating.context <;> rfl

theorem State.localTone_eq (s : State) : s.localTone = match s.session.state with
    | .dialWait => some (if s.sup.level = .closed then .reorder else .dial)
    | .awaitCredit => some .creditPrompt
    | .connected => if s.rating.warningPlaying then some .warning else none
    | .ended => some (if s.session.endTone = .busy then .busy else .reorder)
    | .idle | .collecting | .placing | .ringing | .clearing => none := by
  unfold State.localTone
  cases s.session.state
  case ended => cases s.session.endTone <;> rfl
  all_goals rfl

theorem Key.mem_all (key : Key) : key ∈ Key.all := by
  cases key with
  | symbol k => revert k; decide
  | followOn => decide

theorem State.mem_stuckKeys (key : Key) : key ∈ s.sessionView.stuckKeys ↔ s.session.keys[key.idx] = .stuck := by
  simp [State.sessionView, Key.mem_all]

theorem Rating.warningPlaying_iff {r : Rating} : r.warningPlaying = true ↔
    ∃ call c w, r.context = .rated call c ∧ c.warning = some w ∧ w.playing = true := by
  unfold Rating.warningPlaying
  cases r.context with
  | rated call c =>
    constructor
    · intro h
      cases hwarning : c.warning with
      | none => simp [hwarning] at h
      | some w => exact ⟨call, c, w, rfl, hwarning, by simpa [hwarning] using h⟩
    · rintro ⟨_, _, w, ⟨⟩, hwarning, hplaying⟩
      simpa [hwarning] using hplaying
  | _ => simp

theorem State.retryView_eq (s : State) : s.retryView = fun t => match t with
    | .running t => .running ((t - s.now) / 1000)
    | .held left => .held (left / 1000)
    | .waitingLine => .waitingLine := by
  funext timer
  cases timer <;> rfl

/-! ### The tariff table (R73 to R75) -/

theorem TariffTable.get_of_outside {t : TariffTable} {slot : Nat} (h : 239 < slot) : t.get slot = .refused .invalid := if_pos h

theorem TariffTable.get_base {t : TariffTable} {staged : List Byte} (hnone : t.staging = none → staged = [0])
    (hsome : ∀ c, t.staging = some c → staged = 1 :: tariffBytes 0 c) :
    t.get 0 = .done (.bytes (0 :: targetByte 0 :: tariffBytes 0 t.base ++ [2, if t.basePinned then 1 else 0] ++ staged)) := by
  have hstaged : staged = match t.staging with
      | none => [0]
      | some c => 1 :: tariffBytes 0 c := by
    cases hs : t.staging with
    | none => exact hnone hs
    | some c => exact hsome c hs
  rw [hstaged]
  rfl

section
variable {t : TariffTable} {slot : Nat} (hlow : 1 ≤ slot) (hhigh : slot ≤ 239)
include hlow hhigh

theorem TariffTable.get_of_empty (h : ∀ r ∈ t.records, r.slot ≠ slot) : t.get slot = .refused .notFound := by
  have hnone : t.recordAt slot = none := by simpa [TariffTable.recordAt] using h
  rw [TariffTable.get, if_neg (by omega), if_neg (by omega), hnone]

theorem TariffTable.get_of_held {r : TariffRecord} (h : t.recordAt slot = some r) :
    t.get slot = .done (.bytes (BitVec.ofNat 8 slot :: targetByte slot :: tariffBytes slot r.content ++
      [BitVec.ofNat 8 r.state.code, if r.pinned then 1 else 0])) := by
  rw [TariffTable.get, if_neg (by omega), if_neg (by omega), h]

end

theorem TariffTable.recordAt_of_lawful {t : TariffTable} {r : TariffRecord} (hlawful : t.Lawful) (hr : r ∈ t.records) :
    t.recordAt r.slot = some r := by
  obtain ⟨lower, upper, hrecords⟩ := List.append_of_mem hr
  have hlower : ∀ q ∈ lower, q.slot ≠ r.slot := fun q hq => by
    have hrising := hlawful.1
    rw [hrecords, List.map_append, List.pairwise_append] at hrising
    exact Nat.ne_of_lt (hrising.2.2 q.slot (List.mem_map_of_mem hq) r.slot (by simp))
  rw [TariffTable.recordAt, hrecords, List.find?_append, List.find?_eq_none.2 (by simpa using hlower)]
  simp

theorem State.findTariff_of_invalid {body : List Byte} {x : List Symbol}
    (h : symbolString body = none ∨ symbolString body = some [] ∨ symbolString body = some x ∧ 20 < x.length) :
    s.findTariff body = .refused .invalid := by
  unfold State.findTariff
  obtain h | h | ⟨h, hlong⟩ := h
  · rw [h]
  · rw [h]
    rfl
  · rw [h]
    exact if_pos (.inr hlong)

theorem State.findTariff_of_valid {body : List Byte} {x : List Symbol} (h : symbolString body = some x) (hlow : 1 ≤ x.length)
    (hhigh : x.length ≤ 20) : s.findTariff body = .done (s.tariff.find x) := by
  rw [State.findTariff, h]
  refine if_neg fun hc => ?_
  obtain rfl | hlong := hc
  · simp at hlow
  · omega

theorem filterOfCode_of_le {code : Nat} (h : code ≤ 3) : ∃ filter, filterOfCode code = some filter ∧
    ∀ state : RecordState, (filter = none ∨ filter = some state) ↔ (code = 0 ∨ state.code = code) := by
  obtain rfl | rfl | rfl | rfl : code = 0 ∨ code = 1 ∨ code = 2 ∨ code = 3 := by omega
  · exact ⟨none, rfl, fun state => by simp⟩
  · exact ⟨some .pending, rfl, fun state => by cases state <;> decide⟩
  · exact ⟨some .live, rfl, fun state => by cases state <;> decide⟩
  · exact ⟨some .retiring, rfl, fun state => by cases state <;> decide⟩

theorem filterOfCode_eq_none {code : Nat} (h : 3 < code) : filterOfCode code = none := by
  unfold filterOfCode
  split <;> first | omega | rfl

theorem State.scanTariff_of_outside {start code : Byte} (h : 239 < start.toNat ∨ 3 < code.toNat) :
    s.scanTariff [start, code] = .refused .invalid := by
  unfold State.scanTariff
  split
  · next filter hfilter =>
    refine if_pos (h.resolve_right fun hcode => ?_)
    cases (filterOfCode_eq_none hcode).symm.trans hfilter
  · rfl

theorem nextScan_take_six (passing : List ScanEntry) : nextScan (passing.take 6) = match passing.drop 5 with
    | [] => none
    | sixth :: _ => if sixth.slot < 239 then some (sixth.slot + 1) else none := by
  have hdrop : ((passing.take 6).drop 5).head? = (passing.drop 5).head? := by
    rw [List.drop_take]
    cases passing.drop 5 <;> rfl
  rw [nextScan, hdrop]
  cases passing.drop 5 <;> rfl

theorem State.scanTariff_of_valid {start code : Byte} (hstart : start.toNat ≤ 239) (hcode : code.toNat ≤ 3)
    {passing : List ScanEntry} (hpassing : passing = s.tariff.entries.filter
      (fun e => start.toNat ≤ e.slot ∧ (code.toNat = 0 ∨ e.state.code = code.toNat))) :
    s.scanTariff [start, code] = .done (.scan (passing.take 6)
      (match passing.drop 5 with
        | [] => none
        | sixth :: _ => if sixth.slot < 239 then some (sixth.slot + 1) else none)
      (240 - s.tariff.entries.length) (countState s.tariff.entries .pending) (countState s.tariff.entries .live)
      (countState s.tariff.entries .retiring)) := by
  obtain ⟨filter, hfilter, hstates⟩ := filterOfCode_of_le hcode
  have hfound : s.tariff.entries.filter (fun e => start.toNat ≤ e.slot && (filter = none || filter = some e.state)) = passing := by
    rw [hpassing]
    refine List.filter_congr fun e _ => ?_
    simp only [← hstates e.state, Bool.decide_and, Bool.decide_or]
  have hcodeAt : filterOfCode (byteAt [start, code] 1) = some filter := hfilter
  rw [State.scanTariff, hcodeAt, ← nextScan_take_six, ← hfound]
  exact if_neg (Nat.not_lt.2 hstart)

/-! ### Bands, coin classes, conditions and settings (R3, R85, R169, R190) -/

theorem State.getBands_of_day {code : Nat} {day : DayType} (h : dayTypeOfCode code = some day) : s.getBands code =
    .done (.schedule (s.clock.schedule day).length (s.clock.schedule day) s.clock.dayType s.clock.band) := by
  rw [State.getBands, h]

theorem State.getBands_of_outside {code : Nat} (h : 2 < code) : s.getBands code = .refused .invalid := by
  have hnone : dayTypeOfCode code = none := by
    unfold dayTypeOfCode
    split <;> first | omega | rfl
  rw [State.getBands, hnone]

theorem State.summaryLine_eq (s : State) : s.summaryLine = fun src =>
    ⟨src, (s.record src).map ConditionRecord.state, s.normal src, (s.record src).any (fun r => r.snapshot.isSome)⟩ := by
  funext src
  unfold State.summaryLine
  cases s.record src <;> rfl

theorem State.getCondition_of_source {code : Nat} {src : Source} (h : code = src.code) :
    s.getCondition code = .done (s.conditionBody src) := by
  subst h
  have hcode : src.code ≠ 0 := Nat.succ_ne_zero src.idx.val
  rw [State.getCondition, if_neg hcode, Source.ofCode_code]

theorem State.getCondition_of_outside {code : Nat} (h : 22 < code) : s.getCondition code = .refused .invalid := by
  rw [State.getCondition, if_neg (by omega), Source.ofCode_eq_none (.inr h)]

/-- R169: an input as CONDITION_GET gives it, with the seconds that its hold-off and its clear delay have left. -/
theorem State.inputView_eq (x : SupervisedInput) (s : State) : s.inputView x =
    { assignment := x.assignment, staged := x.staged, active := x.active, windowOpen := x.windowEnds.isSome
      edgeCount := x.edgeCount
      holdOffSeconds := match x.holdOffEnds with
        | some t => (t - s.now) / 1000
        | none => 0
      clearDelaySeconds := match x.clearFrom with
        | some t => (t + x.assignment.clearDelay * 1000 - s.now) / 1000
        | none => 0
      atRest := x.assignment.type = .unused || !x.active && x.windowEnds = none && x.holdOffEnds = none } := by
  unfold State.inputView
  cases x with
  | mk assignment staged active windowEnds edgeCount holdOffEnds clearFrom =>
    cases holdOffEnds <;> cases clearFrom <;> rfl

theorem settingGetFits_of_plain {code : Byte} (h : code.toNat ∉ [10, 11]) : lengthFits settingGetFits [code] = true := by
  have hplain : ¬ (code.toNat = 10 ∨ code.toNat = 11) := by simpa using h
  simp [lengthFits, settingGetFits, hplain]

theorem settingGetFits_of_named {code value : Byte} (h : code.toNat = 10 ∨ code.toNat = 11) :
    lengthFits settingGetFits [code, value] = true := by
  simp [lengthFits, settingGetFits, h]

theorem State.getSetting_of_outside {body : List Byte} (h : byteAt body 0 = 0 ∨ 11 < byteAt body 0) :
    s.getSetting body = .refused .invalid := by
  unfold State.getSetting
  split <;> first | omega | rfl

theorem State.getSetting_of_enable {code value : Byte} (h : code.toNat = 10) :
    s.getSetting [code, value] = s.getReportEnable value.toNat := by
  have hcode : byteAt [code, value] 0 = 10 := h
  rw [State.getSetting, hcode]
  rfl

theorem State.getSetting_of_assignment {code value : Byte} (h : code.toNat = 11) :
    s.getSetting [code, value] = s.getAssignment value.toNat := by
  have hcode : byteAt [code, value] 0 = 11 := h
  rw [State.getSetting, hcode]
  rfl

end

/-- Settles O57. -/
theorem readRequestsAnswerAndChangeNothing : Obligations.ReadRequestsAnswerAndChangeNothing := by
  intro p tag s h gives secondsTo
  refine ⟨State.answers_of_reading h rfl rfl rfl, State.answers_of_reading h rfl rfl rfl, State.answers_of_reading h rfl rfl rfl,
    State.answers_of_reading h rfl rfl rfl, ?status, fun slot => ⟨fun hout => ?_, fun hzero staged hnone hsome => ?_,
      fun hlow hhigh => ⟨fun hempty => ?_, fun r hlawful hr hslot => ?_⟩⟩,
    fun body x hfits hlength => ⟨fun hinvalid => ?_, fun hx hlow hhigh => ?find⟩, fun start code => ?scan,
    fun code => ⟨fun hout => ?_, fun day hday => ?_, fun hcls => ?_, fun hout => ?_, fun hout => ?_, fun hzero => ?_,
      fun src hsrc => ?_⟩,
    fun code value v => ⟨fun hplain => ⟨fun hv => ?_, fun hout => ?_⟩, fun hcode => ⟨fun src hsrc => ?_, fun hout => ?_⟩,
      fun hcode => ⟨fun hinput => ?_, fun hout => ?_⟩⟩⟩
  case status =>
    intro view
    refine ⟨State.answers_of_reading h rfl rfl rfl, rfl, rfl, rfl, s.ratingView_eq, rfl, ?_, State.mem_stuckKeys,
      Rating.warningPlaying_iff, ?_, rfl, rfl⟩
    · exact congrArg (fun tone => { s.sessionView with tone := tone }) s.localTone_eq
    · exact congrArg (fun retry : RetryTimer → RetryView => { s.reportView with
        retry := if s.report.state = ReportState.scheduled then s.report.timer.map retry else none }) s.retryView_eq
  · exact TariffTable.get_of_outside hout ▸ State.answers_tariffGet h slot
  · have hslot : slot = 0 := BitVec.eq_of_toNat_eq hzero
    subst hslot
    exact TariffTable.get_base hnone hsome ▸ State.answers_tariffGet h 0
  · exact TariffTable.get_of_empty hlow hhigh hempty ▸ State.answers_tariffGet h slot
  · have hget := TariffTable.get_of_held hlow hhigh (hslot ▸ TariffTable.recordAt_of_lawful hlawful hr)
    rw [BitVec.ofNat_toNat, BitVec.setWidth_eq] at hget
    exact hget ▸ State.answers_tariffGet h slot
  · exact State.findTariff_of_invalid (s := s) hinvalid ▸ State.answers_tariffFind h hfits hlength
  case find =>
    intro verdict found
    have hview (v : Verdict) : v.view = verdict v := by cases v <;> rfl
    have hfind := State.answers_tariffFind (tag := tag) h hfits hlength
    rw [State.findTariff_of_valid hx hlow hhigh, TariffTable.find, hview, hview] at hfind
    refine ⟨fun ha => ?_, fun r ha => ?_, fun r ha => ?_, fun r ha => ?_⟩
    all_goals
      rw [ha] at hfind
      exact hfind
  case scan =>
    intro entries number
    refine ⟨fun hout => ?_, fun hstart hcode => ?_⟩
    · exact State.scanTariff_of_outside (s := s) hout ▸ State.answers_tariffScan h start code
    · intro passing next
      have hscan := State.answers_tariffScan (tag := tag) h start code
      rw [State.scanTariff_of_valid hstart hcode rfl] at hscan
      exact hscan
  · exact State.getBands_of_outside (s := s) hout ▸ State.answers_bandGet h code
  · exact State.getBands_of_day (s := s) hday ▸ State.answers_bandGet h code
  · have hget : s.getCoinClass code.toNat = .done (.coinClass s.settings.classes[code.toNat]) := dif_pos hcls
    exact hget ▸ State.answers_coinClassGet h code
  · have hget : s.getCoinClass code.toNat = .refused .invalid := dif_neg (Nat.not_lt.2 hout)
    exact hget ▸ State.answers_coinClassGet h code
  · exact State.getCondition_of_outside (s := s) hout ▸ State.answers_conditionGet h code
  · have hget : s.getCondition code.toNat = .done s.summaryBody := if_pos hzero
    have hsummary := State.answers_conditionGet (tag := tag) h code
    rw [hget, State.summaryBody, State.summaryLine_eq] at hsummary
    exact hsummary
  · refine State.answers_of_reading h rfl rfl ((State.getCondition_of_source hsrc).trans ?_)
    cases src with
    | input i =>
      exact congrArg (fun view => Reply.done (.condition ((s.record (.input i)).map fun r => s.recordView (.input i) r)
        (s.normal (.input i)) (some view))) (State.inputView_eq s.sup.inputs[i] s)
    | _ => rfl
  · have hget : s.getSetting [code] = .done (.setting v) := by
      unfold State.getSetting
      obtain ⟨hc, rfl⟩ | ⟨hc, rfl⟩ | ⟨hc, rfl⟩ | ⟨hc, rfl⟩ | ⟨hc, rfl⟩ | ⟨hc, rfl⟩ | ⟨hc, rfl⟩ | ⟨hc, rfl⟩ | ⟨hc, rfl⟩ := hv <;>
        (rewrite [show byteAt [code] 0 = code.toNat from rfl, hc]; rfl)
    exact hget ▸ State.answers_settingGet h (settingGetFits_of_plain hplain)
  · exact State.getSetting_of_outside (s := s) (body := [code]) hout ▸
      State.answers_settingGet h (settingGetFits_of_plain hplain)
  · have hget : s.getSetting [code, value] = .done (.setting (.enable (s.reportEnabled src))) := by
      rw [State.getSetting_of_enable hcode, State.getReportEnable, hsrc, Source.ofCode_code]
    exact hget ▸ State.answers_settingGet h (settingGetFits_of_named (.inl hcode))
  · have hget : s.getSetting [code, value] = .refused .invalid := by
      rw [State.getSetting_of_enable hcode, State.getReportEnable, Source.ofCode_eq_none hout]
    exact hget ▸ State.answers_settingGet h (settingGetFits_of_named (.inl hcode))
  · have hget : s.getSetting [code, value] =
        .done (.setting (.assignment s.sup.inputs[value.toNat].assignment s.sup.inputs[value.toNat].staged)) :=
      (State.getSetting_of_assignment hcode).trans (dif_pos hinput)
    exact hget ▸ State.answers_settingGet h (settingGetFits_of_named (.inr hcode))
  · have hget : s.getSetting [code, value] = .refused .invalid :=
      (State.getSetting_of_assignment hcode).trans (dif_neg (Nat.not_lt.2 hout))
    exact hget ▸ State.answers_settingGet h (settingGetFits_of_named (.inr hcode))

end Sys2Proof.Machine
end

/-! ## COIN_CLASS_SET, SETTING_SET and the attention requests (sections 1.2, 3.3, 9.3, 9.7, 10.2, 11.3 and 11.4) -/

section
namespace Sys2Proof.Machine

/-- A command that leaves a state and answers a reply on its port. -/
def State.Does (p : Port) (tag : Byte) (s : State) (c : Instr) (kind : Nat) (t : State) (r : Reply) : Prop :=
  exec c s = .next (t.answer p (r.response kind tag))

section
variable {p : Port} {tag : Byte} {s t : State} {r : Reply}

theorem State.does_of_serve {c : Instr} {kind : Nat} {body : List Byte} {fits : List Byte → Bool}
    {work : State → State × Reply} (h : s.admits p)
    (hexec : exec c s = .next (s.whilePowered (State.serve p kind tag body fits work)))
    (hfits : lengthFits fits body = true) (hwork : work s = (t, r)) : s.Does p tag c kind t r := by
  refine hexec.trans (congrArg Host.Outcome.next
    ((State.whilePowered_of_main h.1).trans ((State.serve_of_admits h hfits kind tag work).trans ?_)))
  rw [hwork]

theorem State.does_coinClassSet (h : s.admits p) {cls hi lo on : Byte} (hset : s.setCoinClass [cls, hi, lo, on] = (t, r)) :
    s.Does p tag (.coinClassSet p tag [cls, hi, lo, on]) 10 t r :=
  State.does_of_serve h rfl rfl hset

theorem State.does_settingSet (h : s.admits p) {body : List Byte} (hfits : lengthFits settingSetFits body = true)
    (hset : s.setSetting body = (t, r)) : s.Does p tag (.settingSet p tag body) 12 t r :=
  State.does_of_serve h rfl hfits hset

/-! ### COIN_CLASS_SET (R3) -/

theorem onOffOfCode_of_le {code : Nat} (h : code ≤ 1) : onOffOfCode code = some (decide (code = 1)) := by
  obtain rfl | rfl : code = 0 ∨ code = 1 := by omega
  · rfl
  · rfl

theorem onOffOfCode_eq_none {code : Nat} (h : 1 < code) : onOffOfCode code = none := by
  unfold onOffOfCode
  split <;> first | omega | rfl

theorem State.setCoinClass_of_valid {cls hi lo on : Byte} (hcls : cls.toNat < 16) (hvalue : hi.toNat * 256 + lo.toNat ≤ 5000)
    (hon : on.toNat ≤ 1) : s.setCoinClass [cls, hi, lo, on] =
      ({ s with settings := { s.settings with
          classes := s.settings.classes.set cls.toNat ⟨hi.toNat * 256 + lo.toNat, on.toNat = 1⟩ } }, .done .empty) := by
  refine (dif_pos hcls).trans ?_
  rw [show byteAt [cls, hi, lo, on] 3 = on.toNat from rfl, onOffOfCode_of_le hon]
  exact if_pos hvalue

theorem State.setCoinClass_of_invalid {cls hi lo on : Byte}
    (h : 16 ≤ cls.toNat ∨ 5000 < hi.toNat * 256 + lo.toNat ∨ 1 < on.toNat) :
    s.setCoinClass [cls, hi, lo, on] = (s, .refused .invalid) := by
  by_cases hcls : cls.toNat < 16
  · refine (dif_pos hcls).trans ?_
    rw [show byteAt [cls, hi, lo, on] 3 = on.toNat from rfl]
    obtain hout | hon := h.resolve_left (Nat.not_le.2 hcls)
    · cases onOffOfCode on.toNat with
      | none => rfl
      | some enabled => exact if_neg (Nat.not_le.2 hout)
    · rw [onOffOfCode_eq_none hon]
  · exact dif_neg hcls

/-! ### The settings with a value of one kind (R190) -/

theorem symbolSettingFits {code : Byte} {value : List Byte} (hcode : code = 1 ∨ code = 2) (hfits : symbolStringFits value = true)
    (hlength : value.length ≤ 59) : lengthFits settingSetFits (code :: value) = true := by
  obtain rfl | rfl := hcode <;> simp [lengthFits, settingSetFits, hfits, Nat.succ_le_succ hlength]

theorem holdsStarOrHash_eq_false_iff {string : List Symbol} : holdsStarOrHash string = false ↔ ∀ k ∈ string, k.val < 10 := by
  simp [holdsStarOrHash]

theorem State.setStationNumber_of_valid {value : List Byte} {x : List Symbol} (hx : symbolString value = some x)
    (hlow : 1 ≤ x.length) (hhigh : x.length ≤ 12) (hdigits : ∀ k ∈ x, k.val < 10) :
    s.setStationNumber value = ({ s with settings := { s.settings with stationNumber := x } }, .done .empty) := by
  rw [State.setStationNumber, hx]
  exact if_pos ⟨hlow, hhigh, holdsStarOrHash_eq_false_iff.2 hdigits⟩

theorem State.setStationNumber_of_invalid {value : List Byte}
    (h : ∀ x, symbolString value = some x → x = [] ∨ 12 < x.length ∨ ∃ k ∈ x, 10 ≤ k.val) :
    s.setStationNumber value = (s, .refused .invalid) := by
  unfold State.setStationNumber
  cases hx : symbolString value with
  | none => rfl
  | some x =>
    refine if_neg fun ⟨hlow, hhigh, hdigits⟩ => ?_
    obtain rfl | hlong | hsymbol := h x hx
    · simp at hlow
    · omega
    · exact Bool.false_ne_true (hdigits.symm.trans (holdsStarOrHash_iff.2 hsymbol))

theorem State.setCentreNumber_of_valid {value : List Byte} {x : List Symbol} (hx : symbolString value = some x)
    (hhigh : x.length ≤ 20) :
    s.setCentreNumber value = ({ s with settings := { s.settings with centreNumber := x } }, .done .empty) := by
  rw [State.setCentreNumber, hx]
  exact if_pos hhigh

theorem State.setCentreNumber_of_invalid {value : List Byte} (h : ∀ x, symbolString value = some x → 20 < x.length) :
    s.setCentreNumber value = (s, .refused .invalid) := by
  unfold State.setCentreNumber
  cases hx : symbolString value with
  | none => rfl
  | some x => exact if_neg (Nat.not_le.2 (h x hx))

theorem methodOfCode_eq_none {code : Nat} (h : 1 < code) : methodOfCode code = none := by
  unfold methodOfCode
  split <;> first | omega | rfl

theorem answerModeOfCode_eq_none {code : Nat} (h : 1 < code) : answerModeOfCode code = none := by
  unfold answerModeOfCode
  split <;> first | omega | rfl

theorem stationRounding_eq_none {code : Nat} (h : 2 < code) : stationRounding code = none := by
  unfold stationRounding roundingOfCode
  split
  · next r hr => split at hr <;> first | omega | cases hr
  · rfl

theorem State.setSetting_of_bad_method {v : Byte} (h : 1 < v.toNat) : s.setSetting [3, v] = (s, .refused .invalid) := by
  change (match methodOfCode v.toNat with
    | some m => s.takeSetting { s.settings with method := m }
    | none => (s, .refused .invalid)) = _
  rw [methodOfCode_eq_none h]

theorem State.setSetting_of_bad_answerMode {v : Byte} (h : 1 < v.toNat) : s.setSetting [4, v] = (s, .refused .invalid) := by
  change (match answerModeOfCode v.toNat with
    | some m => s.takeSetting { s.settings with answerMode := m }
    | none => (s, .refused .invalid)) = _
  rw [answerModeOfCode_eq_none h]

theorem State.setSetting_of_bad_rounding {v : Byte} (h : 2 < v.toNat) : s.setSetting [7, v] = (s, .refused .invalid) := by
  change (match stationRounding v.toNat with
    | some r => s.takeSetting { s.settings with rounding := r }
    | none => (s, .refused .invalid)) = _
  rw [stationRounding_eq_none h]

theorem clampReply_clamp {low high v : Nat} (hrange : low ≤ high) :
    clampReply (clamp low high v ≠ v) = if low ≤ v ∧ v ≤ high then .done .empty else .doneClamped := by
  unfold clampReply clamp
  by_cases h : low ≤ v ∧ v ≤ high
  · rw [if_pos h, if_neg (by simp only [decide_eq_true_eq]; omega)]
  · rw [if_neg h, if_pos (by simp only [decide_eq_true_eq]; omega)]

theorem State.setThresholds_of_valid {near full : Nat} (hlow : 1 ≤ near) (hless : near < full) (hhigh : full ≤ 65535) :
    s.setThresholds near full = (State.judgeThresholds { s with
      settings := { s.settings with near := near, full := full } }, .done .empty) :=
  if_pos ⟨hlow, by omega, by omega, hhigh, hless⟩

theorem State.setThresholds_of_invalid {near full : Nat} (h : near = 0 ∨ full ≤ near) :
    s.setThresholds near full = (s, .refused .invalid) :=
  if_neg fun hc => by omega

theorem word_le (hi lo : Byte) : hi.toNat * 256 + lo.toNat ≤ 65535 := by
  have := hi.isLt
  have := lo.isLt
  omega

/-! ### The report enables (R165, R174) -/

theorem State.setReportEnable_of_source {src : Source} {value : Nat} (hvalue : value ≤ 1) :
    s.setReportEnable src.code value = (s.setEnable src (value = 1), .done .empty) := by
  rw [State.setReportEnable, Source.ofCode_code, onOffOfCode_of_le hvalue]

theorem State.setReportEnable_of_invalid {code value : Nat} (h : code = 0 ∨ 22 < code ∨ 1 < value) :
    s.setReportEnable code value = (s, .refused .invalid) := by
  unfold State.setReportEnable
  obtain h | h | h := h
  · rw [Source.ofCode_eq_none (.inl h)]
  · rw [Source.ofCode_eq_none (.inr h)]
  · rw [onOffOfCode_eq_none h]
    cases Source.ofCode code <;> rfl

/-- The state with a source's report enable set. -/
def State.enabling (src : Source) (on : Bool) (s : State) : State :=
  { s with settings := { s.settings with reportEnable := s.settings.reportEnable.set src.idx on } }

theorem State.reportEnabled_enabling (src : Source) (on : Bool) (s : State) : (s.enabling src on).reportEnabled src = on := by
  simp [State.reportEnabled, State.enabling]

theorem State.setEnable_off_of_due {src : Source} {rec : ConditionRecord} (hrecord : s.record src = some rec)
    (hcleared : rec.state = .cleared) (hsnapshot : rec.snapshot = none) :
    s.setEnable src false = (s.enabling src false).retire src := by
  change (s.enabling src false).retireIfDue src = _
  rw [State.retireIfDue, show (s.enabling src false).record src = some rec from hrecord]
  exact if_pos ⟨hcleared, State.reportEnabled_enabling src false s, hsnapshot⟩

theorem State.setEnable_off_of_not_due {src : Source}
    (h : ∀ rec, s.record src = some rec → rec.state ≠ .cleared ∨ rec.snapshot ≠ none) :
    s.setEnable src false = s.enabling src false := by
  change (s.enabling src false).retireIfDue src = _
  rw [State.retireIfDue, show (s.enabling src false).record src = s.record src from rfl]
  cases hrecord : s.record src with
  | none => rfl
  | some rec => exact if_neg fun hc => (h rec hrecord).elim (· hc.1) (· hc.2.2)

theorem State.outstanding_enabling {src : Source} {rec : ConditionRecord} (hrecord : s.record src = some rec) :
    (s.enabling src true).outstanding src = true ↔ rec.acked < rec.count ∨ rec.state = .cleared := by
  rw [State.outstanding_iff (by exact hrecord), State.reportEnabled_enabling]
  simp

theorem State.setEnable_on_eq (src : Source) : s.setEnable src true = match s.record src with
    | some rec => if s.reportEnabled src = false ∧ (s.enabling src true).outstanding src then
        (s.enabling src true).reportTrigger rec.severity else s.enabling src true
    | none => s.enabling src true := rfl

theorem State.setEnable_on_of_outstanding {src : Source} {rec : ConditionRecord} (hrecord : s.record src = some rec)
    (hoff : s.reportEnabled src = false) (hout : rec.acked < rec.count ∨ rec.state = .cleared) :
    s.setEnable src true = (s.enabling src true).reportTrigger rec.severity := by
  rw [State.setEnable_on_eq, hrecord]
  exact if_pos ⟨hoff, (State.outstanding_enabling hrecord).2 hout⟩

theorem State.setEnable_on_of_kept {src : Source} (h : s.reportEnabled src = true ∨
    ∀ rec, s.record src = some rec → rec.count ≤ rec.acked ∧ rec.state ≠ .cleared) :
    s.setEnable src true = s.enabling src true := by
  rw [State.setEnable_on_eq]
  cases hrecord : s.record src with
  | none => rfl
  | some rec =>
    refine if_neg fun ⟨hoff, hout⟩ => ?_
    obtain hon | hkept := h
    · exact Bool.false_ne_true (hoff.symm.trans hon)
    · obtain ⟨hacked, hactive⟩ := hkept rec hrecord
      exact ((State.outstanding_enabling hrecord).1 hout).elim (Nat.not_lt.2 hacked) hactive

/-! ### The input assignments (R157, R158) -/

theorem inputTypeOfCode_eq_none {code : Nat} (h : 5 < code) : inputTypeOfCode code = none := by
  unfold inputTypeOfCode
  split <;> first | omega | rfl

theorem polarityOfCode_eq_none {code : Nat} (h : 1 < code) : polarityOfCode code = none := by
  unfold polarityOfCode
  split <;> first | omega | rfl

theorem inputModeOfCode_eq_none {code : Nat} (h : 2 < code) : inputModeOfCode code = none := by
  unfold inputModeOfCode
  split <;> first | omega | rfl

theorem restrictionOfCode_eq_none {type : InputType} {code : Nat} (h : 3 < code) (hother : code ≠ 15) :
    restrictionOfCode type code = none := by
  unfold restrictionOfCode
  split <;> first | omega | rfl

theorem restrictionOfCode_of {type : InputType} {code : Nat} {res : ServiceLevel}
    (h : code = 0 ∧ res = .full ∨ code = 1 ∧ res = .freeOnly ∨ code = 2 ∧ res = .emergencyOnly ∨ code = 3 ∧ res = .closed ∨
      code = 15 ∧ res = (if type = .handsetCord then .closed else .full)) : restrictionOfCode type code = some res := by
  obtain ⟨rfl, rfl⟩ | ⟨rfl, rfl⟩ | ⟨rfl, rfl⟩ | ⟨rfl, rfl⟩ | ⟨rfl, rfl⟩ := h <;> rfl

theorem assignmentOf_of_names {body : List Byte} {type : InputType} {polarity : Polarity} {mode : InputMode}
    {restriction : ServiceLevel} (htype : inputTypeOfCode (byteAt body 2) = some type)
    (hpolarity : polarityOfCode (byteAt body 3) = some polarity) (hmode : inputModeOfCode (byteAt body 4) = some mode)
    (hrestriction : restrictionOfCode type (byteAt body 13) = some restriction) :
    assignmentOf body = some (
      { type := type, polarity := polarity, mode := mode, qualifyMs := max 10 (min 10000 (word2 body 5))
        count := max 2 (min 15 (byteAt body 7)), window := max 1 (min 60 (byteAt body 8))
        holdOff := min 600 (word2 body 9), clearDelay := max 1 (min 600 (word2 body 11)), restriction := restriction },
      !decide (10 ≤ word2 body 5 ∧ word2 body 5 ≤ 10000 ∧ 2 ≤ byteAt body 7 ∧ byteAt body 7 ≤ 15 ∧ 1 ≤ byteAt body 8 ∧
        byteAt body 8 ≤ 60 ∧ word2 body 9 ≤ 600 ∧ 1 ≤ word2 body 11 ∧ word2 body 11 ≤ 600)) := by
  rw [assignmentOf, htype, hpolarity, hmode]
  simp only [hrestriction, assignmentNumbers, clamp, Nat.zero_max]
  refine congrArg (fun clamped => some (_, clamped)) ?_
  rw [← decide_not]
  refine decide_eq_decide.2 (not_congr ?_)
  simp only [List.cons.injEq, and_true]
  omega

theorem assignmentOf_eq_none {body : List Byte} (h : 5 < byteAt body 2 ∨ 1 < byteAt body 3 ∨ 2 < byteAt body 4 ∨
    3 < byteAt body 13 ∧ byteAt body 13 ≠ 15) : assignmentOf body = none := by
  unfold assignmentOf
  split
  · next htype hpolarity hmode =>
    obtain h | h | h | ⟨h, hother⟩ := h
    · cases (inputTypeOfCode_eq_none h).symm.trans htype
    · cases (polarityOfCode_eq_none h).symm.trans hpolarity
    · cases (inputModeOfCode_eq_none h).symm.trans hmode
    · rw [restrictionOfCode_eq_none h hother]
  · rfl

section
variable {i : Fin 8} {a : Assignment} {clamped : Bool}

theorem State.applyAssignment_of_unused (h : a.type = .unused) : s.applyAssignment i a clamped =
    (s.unuseInput i a, clampReply clamped) := if_pos h

theorem State.applyAssignment_of_rest (hused : a.type ≠ .unused) (hrest : s.sup.inputs[i].atRest = true) :
    s.applyAssignment i a clamped = (s.assignInput i a, clampReply clamped) :=
  (if_neg hused).trans (if_pos hrest)

theorem State.applyAssignment_of_busy (hused : a.type ≠ .unused) (hbusy : ¬ s.sup.inputs[i].atRest = true) :
    s.applyAssignment i a clamped = (s.setInput i { s.sup.inputs[i] with staged := some a }, .doneDeferred .empty) :=
  (if_neg hused).trans (if_neg hbusy)

end

theorem SupervisedInput.atRest_iff {x : SupervisedInput} : x.atRest = true ↔
    x.assignment.type = .unused ∨ x.active = false ∧ x.windowEnds = none ∧ x.holdOffEnds = none := by
  simp [SupervisedInput.atRest, and_assoc]

theorem SupervisedInput.assign_of_atRest {x : SupervisedInput} (h : x.atRest = true) (a : Assignment) : x.assign a =
    { x with assignment := a, staged := none, active := false, windowEnds := none, edgeCount := 0, holdOffEnds := none } := by
  have hactive : (x.active && x.assignment.type ≠ .unused) = false := by
    obtain h | ⟨h, -⟩ := SupervisedInput.atRest_iff.1 h <;> simp [h]
  rw [SupervisedInput.assign, hactive]

end

/-! ### The attention line (R189) -/

theorem State.attentionDriven_iff (s : State) : s.attentionDriven = true ↔
    let f := s.attention.flags
    let m := s.attention.mask
    f.callEvent = true ∧ m.callEvent = false ∨ f.creditLow = true ∧ m.creditLow = false ∨
      f.conditionChanged = true ∧ m.conditionChanged = false ∨ f.levelChanged = true ∧ m.levelChanged = false ∨
      f.reportDone = true ∧ m.reportDone = false ∨ f.tallyClosed = true ∧ m.tallyClosed = false ∨
      f.tableChanged = true ∧ m.tableChanged = false ∨ f.restarted = true ∧ m.restarted = false := by
  simp [State.attentionDriven, AttentionFlags.any, AttentionFlags.clear, or_assoc]

/-- Settles O58. -/
theorem settingsAndAttentionAreSet : Obligations.SettingsAndAttentionAreSet := by
  intro p tag s h does sets with_
  refine ⟨fun cls hi lo on => ⟨fun hcls hvalue hon => ?_, fun hinvalid => ?_⟩, fun value hfits hlength => ?numbers,
    fun v => ?codes, fun hi lo => ⟨?_, ?_, fun hv => ?_, fun hv => ?_⟩, fun nh nl fh fl => ⟨fun hlow hless => ?_, fun hinvalid => ?_⟩,
    fun code v => ⟨fun hinvalid => ?_, fun src hsrc => ?enable⟩, ?assignment,
    fun b => ⟨rfl, State.does_of_serve h rfl rfl rfl, State.does_of_serve h rfl rfl rfl⟩, s.attentionDriven_iff⟩
  · exact State.does_coinClassSet h (State.setCoinClass_of_valid hcls hvalue hon)
  · exact State.does_coinClassSet h (State.setCoinClass_of_invalid hinvalid)
  case numbers =>
    have hstation := symbolSettingFits (.inl rfl) hfits hlength
    have hcentre := symbolSettingFits (.inr rfl) hfits hlength
    exact ⟨fun x hx hlow hhigh hdigits =>
        State.does_settingSet h hstation (State.setStationNumber_of_valid hx hlow hhigh hdigits),
      fun hinvalid => State.does_settingSet h hstation (State.setStationNumber_of_invalid hinvalid),
      fun x hx hhigh => State.does_settingSet h hcentre (State.setCentreNumber_of_valid hx hhigh),
      fun hinvalid => State.does_settingSet h hcentre (State.setCentreNumber_of_invalid hinvalid)⟩
  case codes =>
    refine ⟨fun hv => ?_, fun hv => ?_, fun hv => ?_, fun hv => ⟨?_, ?_⟩, fun hv => ?_⟩
    · obtain rfl : v = 0 := BitVec.eq_of_toNat_eq hv
      exact ⟨State.does_settingSet h rfl rfl, State.does_settingSet h rfl rfl, State.does_settingSet h rfl rfl⟩
    · obtain rfl : v = 1 := BitVec.eq_of_toNat_eq hv
      exact ⟨State.does_settingSet h rfl rfl, State.does_settingSet h rfl rfl, State.does_settingSet h rfl rfl⟩
    · obtain rfl : v = 2 := BitVec.eq_of_toNat_eq hv
      exact State.does_settingSet h rfl rfl
    · exact State.does_settingSet h rfl (State.setSetting_of_bad_method hv)
    · exact State.does_settingSet h rfl (State.setSetting_of_bad_answerMode hv)
    · exact State.does_settingSet h rfl (State.setSetting_of_bad_rounding hv)
  · exact clampReply_clamp (v := hi.toNat * 256 + lo.toNat) (by decide : 1 ≤ 60) ▸ State.does_settingSet h rfl rfl
  · exact clampReply_clamp (v := hi.toNat * 256 + lo.toNat) (by decide : 5 ≤ 60) ▸ State.does_settingSet h rfl rfl
  · exact State.does_settingSet h rfl (if_pos hv)
  · exact State.does_settingSet h rfl (if_neg (Nat.not_le.2 hv))
  · exact State.does_settingSet h rfl (State.setThresholds_of_valid hlow hless (word_le fh fl))
  · exact State.does_settingSet h rfl (State.setThresholds_of_invalid hinvalid)
  · exact State.does_settingSet h rfl (State.setReportEnable_of_invalid hinvalid)
  case enable =>
    intro set
    have henable (hv : v.toNat ≤ 1) : s.setSetting [10, code, v] = (s.setEnable src (v.toNat = 1), .done .empty) := by
      change s.setReportEnable code.toNat v.toNat = _
      rw [hsrc, State.setReportEnable_of_source hv]
    refine ⟨fun hoff => ⟨fun hdue => ?_, fun hkept => ?_⟩, fun hon => ⟨fun r hrecord hwas hout => ?_, fun hkept => ?_⟩⟩
    · obtain ⟨r, hrecord, hcleared, hsnapshot⟩ := hdue
      refine State.does_settingSet h rfl ((henable (by omega)).trans ?_)
      simp only [set, with_, hoff]
      exact congrArg (·, Reply.done .empty) (State.setEnable_off_of_due hrecord hcleared hsnapshot)
    · refine State.does_settingSet h rfl ((henable (by omega)).trans ?_)
      simp only [set, with_, hoff]
      exact congrArg (·, Reply.done .empty) (State.setEnable_off_of_not_due hkept)
    · refine State.does_settingSet h rfl ((henable (by omega)).trans ?_)
      simp only [set, with_, hon]
      exact congrArg (·, Reply.done .empty) (State.setEnable_on_of_outstanding hrecord hwas hout)
    · refine State.does_settingSet h rfl ((henable (by omega)).trans ?_)
      simp only [set, with_, hon]
      exact congrArg (·, Reply.done .empty) (State.setEnable_on_of_kept hkept)
  case assignment =>
    intro input type polarity mode qh ql count window hh hl ch cl restriction body
    have hset : s.setSetting body = s.setAssignment body := rfl
    refine ⟨fun hinvalid => ?_, fun i ty pol m res hinput htype hpol hmode hres => ?_⟩
    · refine State.does_settingSet h rfl (hset.trans ?_)
      by_cases hinput : input.toNat < 8
      · refine (dif_pos hinput).trans ?_
        rw [assignmentOf_eq_none (body := body) (hinvalid.resolve_left (Nat.not_le.2 hinput))]
      · exact dif_neg hinput
    · intro q hold delay a inRange x put answer rests
      have hrests : x.atRest = true ↔ rests := SupervisedInput.atRest_iff
      have hanswer : clampReply (!decide inRange) = answer := by
        by_cases hin : inRange <;> simp [clampReply, answer, hin]
      have happly : s.setSetting body = s.applyAssignment i a (!decide inRange) := by
        refine hset.trans ((dif_pos (show input.toNat < 8 by omega)).trans ?_)
        rw [assignmentOf_of_names (body := body) htype hpol hmode (restrictionOfCode_of hres)]
        exact congrArg (fun j => s.applyAssignment j a (!decide inRange)) (Fin.ext hinput)
      refine ⟨fun hunused => ?_, fun hused hrest => ?_, fun hused hbusy => ?_⟩
      · intro ended
        have hended := happly.trans (State.applyAssignment_of_unused hunused)
        rw [hanswer] at hended
        have hkept : ended.recordActive (.input i) = s.recordActive (.input i) := recordActive_setNormality ..
        exact ⟨fun hactive => State.does_settingSet h rfl (hended.trans (congrArg (·, answer) (if_pos (hkept.trans hactive)))),
          fun hnot => State.does_settingSet h rfl (hended.trans (congrArg (·, answer) (if_neg (Bool.eq_false_iff.1 (hkept.trans hnot)))))⟩
      · have hassign := happly.trans (State.applyAssignment_of_rest hused (hrests.2 hrest))
        rw [hanswer, State.assignInput, SupervisedInput.assign_of_atRest (hrests.2 hrest)] at hassign
        exact State.does_settingSet h rfl hassign
      · exact State.does_settingSet h rfl (happly.trans (State.applyAssignment_of_busy hused (mt hrests.1 hbusy)))

end Sys2Proof.Machine
end

/-! ## STATION_INIT (sections 6.11, 7.10, 8.14, 10.7 and 11.7) -/

section
namespace Sys2Proof.Machine

/-! ### Snapshots removed while the level held is the derived one (R180) -/

theorem State.deriveLevel_of_levelHeld {s : State} (h : s.LevelHeld) : s.deriveLevel = s := if_pos h.symm

theorem levelHeld_putRecord_none {s : State} {src : Source} {r : ConditionRecord} (hrecord : s.record src = some r)
    (hcleared : r.state = .cleared) (h : s.LevelHeld) : (s.putRecord src none).LevelHeld := by
  refine Eq.trans (b := s.sup.derivedLevel) h (derivedLevel_congr fun x => ?_)
  unfold Supervision.sourceLevel
  rw [State.sup_record, State.sup_record, State.record_putRecord]
  by_cases hsource : src = x
  · subst hsource
    simp [hrecord, ConditionRecord.active, hcleared]
  · rw [if_neg hsource]
    rfl

/-- Two states that differ in the condition records and in the attention flags alone. -/
def State.SameButRecords (s t : State) : Prop := ∃ records flags, t =
  { s with sup := { s.sup with records := records }, attention := { s.attention with flags := flags } }

theorem State.SameButRecords.refl (s : State) : s.SameButRecords s := ⟨_, _, rfl⟩

theorem State.SameButRecords.trans {s t u : State} (hst : s.SameButRecords t) (htu : t.SameButRecords u) :
    s.SameButRecords u := by
  obtain ⟨records, flags, rfl⟩ := hst
  obtain ⟨records', flags', rfl⟩ := htu
  exact ⟨records', flags', rfl⟩

theorem State.sameButRecords_removeSnapshot {s : State} (h : s.LevelHeld) (src : Source) :
    s.SameButRecords (s.removeSnapshot src) := by
  unfold State.removeSnapshot
  cases hrecord : s.record src with
  | none => exact .refl s
  | some r =>
    cases hsnapshot : r.snapshot with
    | none => simpa [hsnapshot] using State.SameButRecords.refl s
    | some snap =>
      simp only [hsnapshot]
      let r' : ConditionRecord := { r with snapshot := none }
      have hput : (s.putRecord src (some r')).record src = some r' := by rw [State.record_putRecord, if_pos rfl]
      by_cases hdue : r.state = .cleared ∧ s.reportEnabled src = false
      · have hretired : (s.putRecord src (some r')).retireIfDue src = (s.putRecord src (some r')).retire src := by
          rw [State.retireIfDue, hput]
          exact if_pos ⟨hdue.1, hdue.2, rfl⟩
        have hlevel : (((s.putRecord src (some r')).putRecord src none).raise .conditionChanged).LevelHeld :=
          levelHeld_putRecord_none hput hdue.1 (levelHeld_putRecord hrecord rfl rfl h)
        rw [hretired, State.retire, State.deriveLevel_of_levelHeld hlevel]
        exact ⟨_, _, rfl⟩
      · have hkept : (s.putRecord src (some r')).retireIfDue src = s.putRecord src (some r') := by
          rw [State.retireIfDue, hput]
          exact if_neg fun hc => hdue ⟨hc.1, hc.2.1⟩
        rw [hkept]
        exact ⟨_, _, rfl⟩

theorem State.sameButRecords_removeSnapshots {s : State} (h : s.LevelHeld) : s.SameButRecords s.removeSnapshots :=
  (foldl_holds (P := fun t => State.LevelHeld t ∧ s.SameButRecords t) (f := fun t src => t.removeSnapshot src)
    (fun _ src ht => ⟨levelHeld_removeSnapshot ht.1, ht.2.trans (State.sameButRecords_removeSnapshot ht.1 src)⟩) Source.all
    ⟨h, .refl s⟩).2

theorem State.outstanding_congr_unreported {s t : State} {src : Source} (hsettings : t.settings = s.settings)
    (hrecord : t.record src = s.recordUnreported src) : t.outstanding src = s.outstanding src := by
  unfold State.outstanding
  rw [hrecord, State.recordUnreported]
  have henabled : t.reportEnabled src = s.reportEnabled src := by rw [State.reportEnabled, State.reportEnabled, hsettings]
  cases s.record src with
  | none => rfl
  | some r =>
    by_cases hsnapshot : r.snapshot = none
    · simp only [hsnapshot, if_true, henabled]
    · by_cases hdue : r.state = .cleared ∧ s.reportEnabled src = false
      · simp [hsnapshot, hdue, ConditionRecord.outstanding]
      · simp only [if_neg hsnapshot, if_neg hdue, henabled]
        rfl

/-! ### The report unit's part (R185) -/

/-- R185: what the reset of the report unit leaves, with the records it leaves. -/
def State.reportReset (records : Vector (Option ConditionRecord) 22) (flags : AttentionFlags) (s : State) : State := { s with
  line := { (if s.lineOwner = some .report then s.line.release s.now else s.line) with reportRequest := none }
  sup := { s.sup with records := records }
  attention := { s.attention with flags := flags }
  report :=
    { state := if s.anyOutstanding then .scheduled else .idle, attempts := 0
      timer := if s.anyOutstanding then some (s.timerOf 120000) else none
      renewal := false, snapshot := none, repeated := false, replyEnds := none, outcome := none } }

theorem State.askRelease_report {s : State} (h : s.CallLaw) :
    s.askRelease .report = s.setLine (if s.lineOwner = some .report then s.line.release s.now else s.line) := by
  obtain ⟨-, -, -, hcall, -⟩ := h
  unfold State.askRelease
  by_cases howns : s.lineOwner = some .report
  · have hseized : s.line.state.seized = true := by
      rw [← hcall]
      unfold State.lineOwner at howns
      cases hc : s.line.call <;> simp_all
    rw [if_pos ⟨howns, hseized⟩, if_pos howns]
  · rw [if_neg fun hc => howns hc.1, if_neg howns]
    rfl

theorem State.resetReport_eq {s : State} (hlevel : s.LevelHeld) (hcall : s.CallLaw) :
    ∃ (records : Vector (Option ConditionRecord) 22) (flags : AttentionFlags),
      (∀ src, records[src.idx] = s.recordUnreported src) ∧ s.resetReport = s.reportReset records flags := by
  obtain ⟨freed, hfreed⟩ : ∃ freed, (s.askRelease .report).withdrawRequest .report = freed := ⟨_, rfl⟩
  obtain ⟨swept, hswept⟩ : ∃ swept, freed.removeSnapshots = swept := ⟨_, rfl⟩
  have hreset : s.resetReport = if swept.anyOutstanding then State.schedule 120000 (swept.setReport ReportUnit.startUp)
      else swept.setReport ReportUnit.startUp := by
    rw [State.resetReport, hfreed, hswept]
    rfl
  have hline : freed = s.setLine { (if s.lineOwner = some .report then s.line.release s.now else s.line) with
      reportRequest := none } := by
    rw [← hfreed, State.askRelease_report hcall]
    rfl
  have hrecords (src : Source) : swept.record src = s.recordUnreported src := by
    rw [← hswept, State.record_removeSnapshots, hline]
    rfl
  obtain ⟨records, flags, hremoved⟩ : freed.SameButRecords swept :=
    hswept ▸ State.sameButRecords_removeSnapshots (levelHeld_congr (by rw [hline]; rfl) hlevel)
  have hany : swept.anyOutstanding = s.anyOutstanding := by
    unfold State.anyOutstanding
    refine congrArg (List.any Source.all) (funext fun src => ?_)
    exact State.outstanding_congr_unreported (by rw [hremoved, hline]; rfl) (hrecords src)
  refine ⟨records, flags, fun src => ?_, ?_⟩
  · rw [← hrecords src, hremoved]
    rfl
  · rw [hreset, hany, hremoved, hline, State.reportReset]
    cases s.anyOutstanding <;> rfl

/-! ### The session's part (R149) and the rest (R193) -/

/-- The parts of STATION_INIT that come after the session's. -/
def State.initialised (s : State) : State := { s with
  session := { s.session with buffer := [], timer := none }
  rating := { s.rating with accrued := .empty }
  line := { s.line with streak := 0 }
  coin := { s.coin with streak := 0 }
  attention := { s.attention with flags := .none } }

theorem State.stationInit_eq (s : State) : s.stationInit = (s.resetReport.initSession.initialised, .done .empty) := by
  rw [State.stationInit]
  generalize s.resetReport.initSession = t
  rfl

/-- The line that STATION_INIT leaves. -/
def State.stationLine (s : State) : Line :=
  if s.lineOwner.isSome then
    { s.line with state := .releasing, call := none, deadline := s.now + 900, presumedEnds := none, phase := .sent,
                  sending := none, sessionRequest := none, reportRequest := none, streak := 0 }
  else
    { s.line with
        sessionRequest := if s.session.state ≠ .idle && s.session.state ≠ .clearing then none else s.line.sessionRequest
        reportRequest := none, streak := 0 }

/-- What STATION_INIT leaves of every block, the session's last call event and the condition records given. -/
def State.stationed (record : Option CallEventRecord) (records : Vector (Option ConditionRecord) 22) (s : State) : State := { s with
  coin := { s.coin with
    streak := 0
    waiting := some ⟨s.coin.waiting.any WaitingRefund.startUp, true⟩
    sessionRefunded := false
    transit := if s.coin.waiting.isSome then s.coin.transit
      else s.coin.transit.map (fun e => { e with noted := true }) }
  credit := { s.credit with
    account := if s.credit.account = .inSession ∧ s.session.state ≠ .clearing then .closing else s.credit.account }
  tariff := match s.session.decision with
    | some d => s.tariff.releasePin d.slot
    | none => s.tariff
  rating := { s.rating.endCall s.now with accrued := CallFlags.empty }
  line := s.stationLine
  sup := { s.sup with records := records }
  session := { s.session with
    state := .clearing, buffer := [], decision := none, timer := none, event := record
    threshold := if s.session.decision.isSome then none else s.session.threshold
    eventCount := if s.session.decision.isSome then (s.session.eventCount + 1) % 65536 else s.session.eventCount }
  report :=
    { state := if s.anyOutstanding then .scheduled else .idle, attempts := 0
      timer := if s.anyOutstanding then some (.held 120000) else none
      renewal := false, snapshot := none, repeated := false, replyEnds := none, outcome := none }
  attention := { s.attention with flags := AttentionFlags.none } }

/-- Two states are one where the blocks that STATION_INIT changes, and all the others together, are. -/
theorem State.eq_of_blocks {s t u : State}
    (hs : s = { u with
      coin := s.coin, credit := s.credit, tariff := s.tariff, rating := s.rating, line := s.line, sup := s.sup
      session := s.session, report := s.report, attention := s.attention })
    (ht : t = { u with
      coin := t.coin, credit := t.credit, tariff := t.tariff, rating := t.rating, line := t.line, sup := t.sup
      session := t.session, report := t.report, attention := t.attention })
    (hcoin : s.coin = t.coin) (hcredit : s.credit = t.credit) (htariff : s.tariff = t.tariff) (hrating : s.rating = t.rating)
    (hline : s.line = t.line) (hsup : s.sup = t.sup) (hsession : s.session = t.session) (hreport : s.report = t.report)
    (hattention : s.attention = t.attention) : s = t := by
  rw [hs, ht, hcoin, hcredit, htariff, hrating, hline, hsup, hsession, hreport, hattention]

section
variable {s : State} (hcall : s.CallLaw)
include hcall

theorem State.context_of_no_decision (hd : s.session.decision = none) : s.rating.context = .empty := by
  obtain ⟨hdecision, -, hstage, -⟩ := hcall
  have hfree : s.session.state.holdsCall = false := by rw [← hdecision, hd]; rfl
  have hempty : s.rating.context.stage = 0 := by
    rw [hstage]
    cases hstate : s.session.state <;> simp_all [SessionState.holdsCall, SessionState.stage]
  cases hcontext : s.rating.context <;> simp_all [RatingContext.stage]

theorem State.no_decision_of_rest (h : s.session.state = .idle ∨ s.session.state = .clearing) : s.session.decision = none := by
  have hheld := hcall.1
  obtain h | h := h <;> simpa [h, SessionState.holdsCall] using hheld

theorem State.not_owner_of_no_decision (hd : s.session.decision = none) : s.lineOwner ≠ some .session := by
  obtain ⟨hdecision, -, -, -, howns, -⟩ := hcall
  have hfree : s.session.state.holdsCall = false := by rw [← hdecision, hd]; rfl
  intro h
  have hstage := howns h
  cases hstate : s.session.state <;> simp_all [SessionState.holdsCall, SessionState.stage]

theorem State.no_request_of_no_decision (hd : s.session.decision = none) : s.line.sessionRequest = none := by
  obtain ⟨hdecision, -, -, -, -, hrequest, -⟩ := hcall
  have hfree : s.session.state.holdsCall = false := by rw [← hdecision, hd]; rfl
  refine Classical.byContradiction fun hsome => ?_
  have hplacing := (hrequest (Option.isSome_iff_ne_none.2 hsome)).1
  simp [hplacing, SessionState.holdsCall] at hfree

theorem State.seized_of_owner (h : s.lineOwner.isSome = true) : s.line.state.seized = true := by
  obtain ⟨-, -, -, hseized, -⟩ := hcall
  rw [← hseized]
  simpa [State.lineOwner] using h

end

section
variable {s : State} {records : Vector (Option ConditionRecord) 22} {flags : AttentionFlags} (hcall : s.CallLaw)
include hcall

/-- The line that the report unit's reset leaves, with no call of the session's to end. -/
theorem State.stationLine_of_no_decision (hd : s.session.decision = none) :
    { (s.reportReset records flags).line with streak := 0 } = s.stationLine := by
  have hrequest := State.no_request_of_no_decision hcall hd
  have hnot := State.not_owner_of_no_decision hcall hd
  unfold State.stationLine State.reportReset
  dsimp only
  cases howner : s.lineOwner with
  | none => simp [hrequest]
  | some owner =>
    cases owner with
    | session => exact absurd howner hnot
    | report => simp [Line.release, Config.releaseGuardMs, hrequest]

/-- The line that the end of the session's call leaves behind the report unit's reset. -/
theorem State.stationLine_of_decision (hd : s.session.decision.isSome = true) :
    { (s.reportReset records flags).sessionReleased with streak := 0 } = s.stationLine := by
  have hholds : s.session.state.holdsCall = true := hcall.1 ▸ hd
  have hout : s.session.state ≠ .idle ∧ s.session.state ≠ .clearing := by
    constructor <;> intro hstate <;> simp [hstate, SessionState.holdsCall] at hholds
  have hnot : s.lineOwner ≠ some .report := fun howns => hout.1 (hcall.2.2.2.2.2.2 howns)
  have hreset : (s.reportReset records flags).line = { s.line with reportRequest := none } := by
    rw [State.reportReset, if_neg hnot]
  have howner : (s.reportReset records flags).lineOwner = s.lineOwner := by rw [State.lineOwner, hreset]; rfl
  rw [State.sessionReleased, howner, hreset, State.stationLine]
  cases ho : s.lineOwner with
  | none => simp [hout]
  | some owner =>
    cases owner with
    | report => exact absurd ho hnot
    | session =>
      have hseized : s.line.state.seized = true := State.seized_of_owner hcall (by rw [ho]; rfl)
      simp only [hseized, and_self, if_true, Option.isSome_some]
      rfl

end

/-! ### The three session ends (R149) -/

/-- R10: the refund that a session end requests, with the streak that STATION_INIT clears. -/
theorem State.stationed_coin {s t : State} (record : Option CallEventRecord) (records : Vector (Option ConditionRecord) 22)
    (h : t.coin = s.coin) :
    { (t.requestRefund false true).coin with streak := 0 } = (s.stationed record records).coin := by
  rw [State.requestRefund_eq, h]
  unfold State.stationed
  dsimp only
  cases s.coin.waiting <;> simp

theorem State.stationed_session {s : State} (records : Vector (Option ConditionRecord) 22) (hd : s.session.decision = none) :
    { s.session with state := .clearing, buffer := [], timer := none } = (s.stationed s.session.event records).session := by
  simp only [State.stationed, hd]
  rfl

theorem State.stationed_report {s : State} {timer : Nat → RetryTimer} (htimer : timer 120000 = .held 120000)
    (record : Option CallEventRecord) (records : Vector (Option ConditionRecord) 22) :
    ({ state := if s.anyOutstanding then .scheduled else .idle, attempts := 0
       timer := if s.anyOutstanding then some (timer 120000) else none
       renewal := false, snapshot := none, repeated := false, replyEnds := none, outcome := none } : ReportUnit) =
      (s.stationed record records).report := by
  rw [htimer]
  rfl

theorem State.timerOf_of_out {s : State} (h : s.session.state ≠ .idle) (delay : Nat) : s.timerOf delay = .held delay := if_neg h

/-- R130, R149: the session end taken, but for the refund it requests. -/
def State.closing (s : State) : State := { s with
  session := { s.session with state := .clearing, timer := none }
  credit := { s.credit with account := if s.credit.account = .inSession then .closing else s.credit.account } }

theorem State.endSession_of {s t : State} {cause : EndCause} (ht : s.endCall cause = t) :
    s.endSession cause = t.closing.requestRefund false true := by
  rw [State.endSession, ht]
  dsimp only
  rw [State.closeAccount_eq]
  rfl

theorem State.initSession_of_open {t : State} (hidle : t.session.state ≠ .idle) (hclearing : t.session.state ≠ .clearing) :
    t.initSession = t.endSession .stationInit := by
  unfold State.initSession
  cases hstate : t.session.state
  case idle => exact absurd hstate hidle
  case clearing => exact absurd hstate hclearing
  all_goals rfl

section
variable {s : State} {records : Vector (Option ConditionRecord) 22} {flags : AttentionFlags} (hcall : s.CallLaw)
include hcall

theorem State.stationed_rating (hd : s.session.decision = none) (record : Option CallEventRecord) :
    { s.rating with accrued := .empty } = (s.stationed record records).rating := by
  rw [State.stationed, Rating.endCall_of_empty (State.context_of_no_decision hcall hd)]

/-- R149: in CLEARING a refund is requested alone. -/
theorem State.initialised_of_clearing (hstate : s.session.state = .clearing) :
    (s.reportReset records flags).initSession.initialised = s.stationed s.session.event records := by
  have hd := State.no_decision_of_rest hcall (.inr hstate)
  have hinit : (s.reportReset records flags).initSession = (s.reportReset records flags).requestRefund false true := by
    rw [State.initSession, show (s.reportReset records flags).session.state = .clearing from hstate]
  rw [hinit]
  refine State.eq_of_blocks (u := s) ?_ rfl (State.stationed_coin (t := s.reportReset records flags) _ records rfl) ?_ ?_ ?_ ?_ ?_ ?_ ?_ ?_
  all_goals rw [State.requestRefund_eq]
  · rfl
  · simp [State.stationed, hstate, State.initialised, State.reportReset]
  · simp only [State.stationed, hd]
    rfl
  · exact State.stationed_rating hcall hd _
  · exact State.stationLine_of_no_decision (records := records) (flags := flags) hcall hd
  · rfl
  · rw [← State.stationed_session records hd, ← hstate]
    rfl
  · exact State.stationed_report (timer := s.timerOf) (State.timerOf_of_out (by simp [hstate]) _) _ records
  · rfl

/-- R149: a session with no call held ends. -/
theorem State.initialised_of_open (hd : s.session.decision = none) (hidle : s.session.state ≠ .idle)
    (hclearing : s.session.state ≠ .clearing) :
    (s.reportReset records flags).initSession.initialised = s.stationed s.session.event records := by
  rw [State.initSession_of_open (t := s.reportReset records flags) hidle hclearing,
    State.endSession_of (State.endCall_of_none (s := s.reportReset records flags) hd .stationInit)]
  refine State.eq_of_blocks (u := s) ?_ rfl
    (State.stationed_coin (t := (s.reportReset records flags).closing) _ records rfl) ?_ ?_ ?_ ?_ ?_ ?_ ?_ ?_
  all_goals rw [State.requestRefund_eq]
  · rfl
  · by_cases haccount : s.credit.account = .inSession <;>
      simp [State.stationed, hclearing, haccount, State.initialised, State.closing, State.reportReset]
  · simp only [State.stationed, hd]
    rfl
  · exact State.stationed_rating hcall hd _
  · exact State.stationLine_of_no_decision (records := records) (flags := flags) hcall hd
  · rfl
  · exact State.stationed_session records hd
  · exact State.stationed_report (timer := s.timerOf) (State.timerOf_of_out hidle _) _ records
  · rfl

/-- R149: in IDLE the session ends too, which is a departure from IDLE (R172). -/
theorem State.initialised_of_idle (hidle : s.session.state = .idle) :
    (s.reportReset records flags).initSession.initialised = s.stationed s.session.event records := by
  have hd := State.no_decision_of_rest hcall (.inl hidle)
  have howner : ((s.reportReset records flags).closing.requestRefund false true).lineOwner ≠ some .report := by
    rw [State.requestRefund_eq]
    unfold State.lineOwner State.closing State.reportReset
    dsimp only
    split
    · simp [Line.release]
    · next hnot => exact hnot
  have hinit : (s.reportReset records flags).initSession = ((s.reportReset records flags).endSession .stationInit).departIdle := by
    rw [State.initSession, show (s.reportReset records flags).session.state = .idle from hidle]
  rw [hinit, State.endSession_of (State.endCall_of_none (s := s.reportReset records flags) hd .stationInit),
    State.departIdle_of_not_report howner]
  refine State.eq_of_blocks (u := s) ?_ rfl
    (State.stationed_coin (t := (s.reportReset records flags).closing) _ records rfl) ?_ ?_ ?_ ?_ ?_ ?_ ?_ ?_
  all_goals rw [State.requestRefund_eq]
  · rfl
  · by_cases haccount : s.credit.account = .inSession <;>
      simp [State.stationed, hidle, haccount, State.initialised, State.closing, State.reportReset]
  · simp only [State.stationed, hd]
    rfl
  · exact State.stationed_rating hcall hd _
  · exact State.stationLine_of_no_decision (records := records) (flags := flags) hcall hd
  · rfl
  · exact State.stationed_session records hd
  · refine Eq.trans ?_ (State.stationed_report (timer := fun delay => (s.timerOf delay).hold s.now) ?_ s.session.event records)
    · unfold State.initialised State.closing State.reportReset
      dsimp only
      cases s.anyOutstanding <;> rfl
    · simp [State.timerOf, hidle, RetryTimer.hold]
  · rfl

/-- R149: the session end taken with no call held, in every session state. -/
theorem State.initialised_of_no_decision (hd : s.session.decision = none) :
    (s.reportReset records flags).initSession.initialised = s.stationed s.session.event records := by
  by_cases hidle : s.session.state = .idle
  · exact State.initialised_of_idle hcall hidle
  · by_cases hclearing : s.session.state = .clearing
    · exact State.initialised_of_clearing hcall hclearing
    · exact State.initialised_of_open hcall hd hidle hclearing

/-- R142, R147: the event of a call that STATION_INIT ends. -/
def State.stationEnded (d : Decision) (s : State) : CallEventRecord :=
  { event := .ended .stationInit, symbols := s.session.buffer, slot := some d.slot, category := some d.category
    threshold := none, callNumber := if s.session.state = .awaitCredit then none else some s.rating.callNumber }

/-- R142, R149: a call held ends with the session. -/
theorem State.initialised_of_call {d : Decision} (hd : s.session.decision = some d) :
    (s.reportReset records flags).initSession.initialised = s.stationed (some (s.stationEnded d)) records := by
  have hholds : s.session.state.holdsCall = true := hcall.1 ▸ by rw [hd]; rfl
  have hidle : s.session.state ≠ .idle := fun h => by simp [h, SessionState.holdsCall] at hholds
  have hclearing : s.session.state ≠ .clearing := fun h => by simp [h, SessionState.holdsCall] at hholds
  rw [State.initSession_of_open (t := s.reportReset records flags) hidle hclearing,
    State.endSession_of (State.endCall_of_some (s := s.reportReset records flags) hd .stationInit)]
  refine State.eq_of_blocks (u := s) ?_ rfl
    (State.stationed_coin (t := (State.endedWith .stationInit d _ _ (s.reportReset records flags)).closing) _ records rfl)
    ?_ ?_ ?_ ?_ ?_ ?_ ?_ ?_
  all_goals rw [State.requestRefund_eq]
  · rfl
  · by_cases haccount : s.credit.account = .inSession <;>
      simp [State.stationed, hclearing, haccount, State.initialised, State.closing, State.endedWith, State.reportReset]
  · simp only [State.stationed, hd]
    rfl
  · rfl
  · exact State.stationLine_of_decision (records := records) (flags := flags) hcall (by rw [hd]; rfl)
  · rfl
  · simp only [State.stationed, hd]
    rfl
  · exact State.stationed_report (timer := s.timerOf) (State.timerOf_of_out hidle _) _ records
  · rfl

end

theorem exec_stationInit {p : Port} {s : State} (h : s.admits p) (tag : Byte) :
    exec (.stationInit p tag []) s =
      .next (s.resetReport.initSession.initialised.answer p ((Reply.done .empty).response 25 tag)) := by
  refine congrArg Host.Outcome.next ((State.whilePowered_of_main h.1).trans
    ((State.serve_of_admits (fits := ofLength 0) (body := []) h rfl 25 tag State.stationInit).trans ?_))
  rw [State.stationInit_eq]

/-- Settles O59, by the session state. -/
theorem stationInitResetsSessionAndReports : Obligations.StationInitResetsSessionAndReports := by
  intro p tag s hadmits hlevel hcall ended owned line event
  obtain ⟨records, flags, hrecords, hreset⟩ := State.resetReport_eq hlevel hcall
  have hdone (record : Option CallEventRecord)
      (hinit : (s.reportReset records flags).initSession.initialised = s.stationed record records) :
      exec (.stationInit p tag []) s =
        .next (State.answer p ((Reply.done .empty).response 25 tag) (s.stationed record records)) := by
    rw [exec_stationInit hadmits, hreset, hinit]
  obtain hd | ⟨d, hd⟩ := Option.eq_none_or_eq_some s.session.decision
  · refine ⟨s.session.event, records, hrecords, fun _ => rfl, fun h => by simp [hd] at h, ?_⟩
    exact hdone _ (State.initialised_of_no_decision hcall hd)
  · refine ⟨some (s.stationEnded d), records, hrecords, fun h => by simp [hd] at h, fun _ => ⟨_, rfl, ?_⟩, ?_⟩
    · refine ⟨rfl, rfl, rfl, ?_, ?_, rfl⟩ <;> rw [hd] <;> rfl
    · exact hdone _ (State.initialised_of_call hcall hd)

end Sys2Proof.Machine
end

/-! ## Transfers and the tariff record body (sections 11.2, 11.8, 4.1 and 4.9) -/

section
namespace Sys2Proof.Machine

/-! ### The transfer that brings a request (R186, R187) -/

theorem decodeTransfer_cons {p : Port} {kind : Byte} (h : kindReachesPort p kind = true) (tag len : Byte) (rest : List Byte) :
    decodeTransfer p (kind :: tag :: len :: rest) =
      if rest.length < len.toNat then none else some (requestOf p kind tag (rest.take len.toNat)) := by
  unfold decodeTransfer
  split
  · next heq => cases heq; exact absurd h (by decide)
  · next heq => cases heq; rfl
  · next hno _ => exact (hno _ _ _ _ rfl).elim

theorem decodeTransfer_of_short {p : Port} {kind : Byte} (h : kindReachesPort p kind = true) {rest : List Byte}
    (hshort : rest.length < 2) : decodeTransfer p (kind :: rest) = none := by
  unfold decodeTransfer
  split
  · next heq => cases heq; exact absurd h (by decide)
  · next heq =>
    cases heq
    simp only [List.length_cons] at hshort
    omega
  · rfl

/-- A request's bytes: those of its frame decode to it whatever follows them, and no part of them decodes. -/
theorem decodeTransfer_frame {p : Port} {kind : Nat} (hkind : kindReachesPort p (BitVec.ofNat 8 kind) = true) (tag : Byte)
    {body : List Byte} (hbody : body.length ≤ 255) :
    (∀ more, decodeTransfer p (frame kind tag body ++ more) = some (requestOf p (BitVec.ofNat 8 kind) tag body)) ∧
      ∀ k, k < (frame kind tag body).length → decodeTransfer p ((frame kind tag body).take k) = none := by
  have hlen : (BitVec.ofNat 8 body.length).toNat = body.length := by
    rw [BitVec.toNat_ofNat]
    omega
  constructor
  · intro more
    rw [frame, List.cons_append, List.cons_append, List.cons_append, decodeTransfer_cons hkind, hlen, if_neg (by simp)]
    simp
  · intro k hk
    rw [frame, List.length_cons, List.length_cons, List.length_cons] at hk
    match k with
    | 0 => cases p <;> rfl
    | 1 => exact decodeTransfer_of_short hkind (by simp)
    | 2 => exact decodeTransfer_of_short hkind (by simp)
    | k + 3 =>
      refine (decodeTransfer_cons hkind tag _ (body.take k)).trans (if_pos ?_)
      rw [List.length_take, hlen]
      omega

theorem requestOf_of_unknown {kind : Byte} (h : unknownKind kind = true) (p : Port) (tag : Byte) (body : List Byte) :
    requestOf p kind tag body = .unknownRequest p kind tag body := by
  have hkind : kind.toNat = 0 ∨ 26 < kind.toNat := by simpa [unknownKind] using h
  unfold requestOf
  split
  case h_27 => rfl
  all_goals omega

/-- The commands that a transfer brings: a read of the host port's response, and the requests. -/
theorem encodeTransfer_cases {c : Instr} {p : Port} {bytes : List Byte} (hwell : c.wellFormed = true)
    (h : encodeTransfer c = some (p, bytes)) :
    (c = .responseRead .host ∧ p = .host ∧ bytes = [0]) ∨
      ∃ kind tag body, body.length ≤ 255 ∧ kindReachesPort p (BitVec.ofNat 8 kind) = true ∧
        requestOf p (BitVec.ofNat 8 kind) tag body = c ∧ bytes = frame kind tag body := by
  cases c
  case responseRead port =>
    cases port
    · cases h
      exact .inl ⟨rfl, rfl, rfl⟩
    · cases h
  case unknownRequest port kind tag body =>
    cases h
    simp only [Instr.wellFormed, bodyFits, Bool.and_eq_true, decide_eq_true_eq] at hwell
    obtain ⟨⟨hbody, hunknown⟩, hreaches⟩ := hwell
    refine .inr ⟨kind.toNat, tag, body, hbody, ?_, ?_, rfl⟩ <;> rw [BitVec.ofNat_toNat, BitVec.setWidth_eq]
    · exact hreaches
    · exact requestOf_of_unknown hunknown p tag body
  all_goals simp only [encodeTransfer, Option.some.injEq, Prod.mk.injEq, reduceCtorEq] at h
  all_goals
    obtain ⟨rfl, rfl⟩ := h
    exact .inr ⟨_, _, _, of_decide_eq_true hwell, by simp [kindReachesPort], rfl, rfl⟩

theorem decodeTransfer_of_encode {c : Instr} {p : Port} {bytes : List Byte} (hwell : c.wellFormed = true)
    (h : encodeTransfer c = some (p, bytes)) :
    decodeTransfer p bytes = some c ∧ (∀ more, decodeTransfer p (bytes ++ more) = some c) ∧
      ∀ k, k < bytes.length → decodeTransfer p (bytes.take k) = none := by
  obtain ⟨rfl, rfl, rfl⟩ | ⟨kind, tag, body, hbody, hreaches, rfl, rfl⟩ := encodeTransfer_cases hwell h
  · refine ⟨rfl, fun _ => rfl, fun k hk => ?_⟩
    obtain rfl : k = 0 := Nat.lt_one_iff.1 hk
    rfl
  · obtain ⟨hwhole, hpart⟩ := decodeTransfer_frame hreaches tag hbody
    refine ⟨?_, hwhole, hpart⟩
    simpa using hwhole []

/-! ### Symbols and codes -/

theorem symbolsOfCodes_eq_some_iff (codes : List Nat) (symbols : List Symbol) :
    symbolsOfCodes codes = some symbols ↔ codes = symbols.map Fin.val := by
  induction codes generalizing symbols with
  | nil => cases symbols <;> simp [symbolsOfCodes]
  | cons k ks ih =>
    unfold symbolsOfCodes
    by_cases hk : k < 12
    · rw [dif_pos hk]
      cases symbols with
      | nil => simp
      | cons x xs =>
        simp only [Option.map_eq_some_iff, List.map_cons, List.cons.injEq]
        constructor
        · rintro ⟨a, ha, rfl, rfl⟩
          exact ⟨rfl, (ih _).1 ha⟩
        · rintro ⟨rfl, hks⟩
          exact ⟨xs, (ih _).2 hks, rfl, rfl⟩
    · rw [dif_neg hk]
      refine ⟨fun h => by simp at h, fun h => ?_⟩
      cases symbols with
      | nil => simp at h
      | cons x xs =>
        obtain ⟨rfl, -⟩ := List.cons.inj h
        exact absurd x.isLt hk

@[simp] theorem length_halfBytes (bytes : List Byte) : (halfBytes bytes).length = 2 * bytes.length := by
  induction bytes with
  | nil => rfl
  | cons b bs ih =>
    simp only [halfBytes, List.length_cons, ih]
    omega

theorem getD_halfBytes (bytes : List Byte) (k d : Nat) (hk : k < 2 * bytes.length) :
    (halfBytes bytes).getD k d =
      if k % 2 = 0 then byteAt bytes (k / 2) / 16 else byteAt bytes (k / 2) % 16 := by
  induction bytes generalizing k with
  | nil => simp at hk
  | cons b bs ih =>
    match k with
    | 0 => rfl
    | 1 => rfl
    | k + 2 =>
      have hk' : k < 2 * bs.length := by
        rw [List.length_cons] at hk
        omega
      have hdiv : (k + 2) / 2 = k / 2 + 1 := by omega
      simpa [halfBytes, byteAt, hdiv] using ih k hk'

/-- The half-bytes of a symbol string: its codes, and 15 in each that is not used. -/
theorem symbolsOfBytes_eq_some_iff {bytes : List Byte} {n : Nat} {symbols : List Symbol} :
    symbolsOfBytes n bytes = some symbols ↔
      symbols.length = n ∧ n ≤ 2 * bytes.length ∧
        ∀ k, k < 2 * bytes.length → (halfBytes bytes).getD k 15 = (symbols.map Fin.val).getD k 15 := by
  unfold symbolsOfBytes
  have hlength := length_halfBytes bytes
  generalize halfBytes bytes = half at hlength ⊢
  rw [← hlength]
  constructor
  · intro h
    split at h
    · next hused =>
      obtain ⟨hn, hrest⟩ := hused
      have hcodes := (symbolsOfCodes_eq_some_iff _ _).1 h
      have hcount : symbols.length = n := by simpa [hn] using (congrArg List.length hcodes).symm
      refine ⟨hcount, hn, fun k hk => ?_⟩
      rw [← hcodes]
      by_cases hkn : k < n
      · simp [List.getD_eq_getElem?_getD, hkn]
      · have hunused : half[k] = 15 := by
          refine of_decide_eq_true (List.all_eq_true.1 hrest half[k] ?_)
          exact List.mem_drop_iff_getElem.2 ⟨k - n, by omega, by congr 1; omega⟩
        rw [List.getD_eq_getElem?_getD, List.getD_eq_getElem?_getD, List.getElem?_eq_getElem hk,
          List.getElem?_eq_none (by rw [List.length_take]; omega), hunused]
        rfl
    · cases h
  · rintro ⟨hcount, hn, hhalf⟩
    have hunused : (half.drop n).all (· = 15) = true := by
      refine List.all_eq_true.2 fun x hx => decide_eq_true ?_
      obtain ⟨i, hi, rfl⟩ := List.mem_drop_iff_getElem.1 hx
      have := hhalf (n + i) (by omega)
      have hin : n + i < half.length := by omega
      simpa [List.getD_eq_getElem?_getD, hcount, hin] using this
    rw [if_pos ⟨hn, hunused⟩, symbolsOfCodes_eq_some_iff]
    refine List.ext_getElem (by simp [hcount, hn]) fun k hk _ => ?_
    have hkn : k < n := by
      rw [List.length_take] at hk
      omega
    have := hhalf k (by omega)
    simpa [List.getD_eq_getElem?_getD, hcount, hkn, Nat.lt_of_lt_of_le hkn hn] using this

theorem categoryOfCode_eq_some_iff {n : Nat} {category : Category} :
    categoryOfCode n = some category ↔
      (n, category) ∈ [(0, Category.charged), (1, .free), (2, .emergency), (3, .blocked)] := by
  unfold categoryOfCode
  split <;> cases category <;> simp_all

theorem roundingOfCode_eq_some_iff {n : Nat} {rounding : RecordRounding} :
    roundingOfCode n = some rounding ↔
      (n, rounding) ∈ [(0, RecordRounding.fixed .carry), (1, .fixed .stepUp), (2, .fixed .stepDown), (3, .station)] := by
  unfold roundingOfCode
  split <;> simp_all [eq_comm]

theorem optionalTimeAt_eq_some_iff {body : List Byte} {i : Nat} {time : Option MinuteTime} :
    optionalTimeAt body i = some time ↔
      byteAt body i = 0 ∧ time = none ∨ byteAt body i = 1 ∧ time = some (minuteTimeAt body (i + 1)) := by
  unfold optionalTimeAt
  split
  · next h => simp [h, eq_comm]
  · next h => simp [h, eq_comm]
  · next hzero hone => simp [show byteAt body i ≠ 0 from hzero, show byteAt body i ≠ 1 from hone]

/-! ### The tariff record body -/

/-- The targets and modes of byte 0 of a tariff record body. -/
theorem offerByte_iff {n : Nat} (hn : n < 256) {toDefault replace : Bool} :
    n % 128 ≤ 1 ∧ toDefault = decide (128 ≤ n) ∧ replace = decide (n % 2 = 1) ↔
      (n, toDefault, replace) ∈ [(0, false, false), (1, false, true), (128, true, false), (129, true, true)] := by
  simp only [List.mem_cons, Prod.mk.injEq, List.not_mem_nil, or_false]
  cases toDefault <;> cases replace <;> simp <;> omega

theorem vector4_eq_iff {a b c d : Nat} {v : Vector Nat 4} {f : Fin 4 → Nat} (ha : f 0 = a) (hb : f 1 = b) (hc : f 2 = c)
    (hd : f 3 = d) : v = #v[a, b, c, d] ↔ ∀ k : Fin 4, v[k] = f k := by
  constructor
  · rintro rfl k
    match k with
    | 0 => exact ha.symm
    | 1 => exact hb.symm
    | 2 => exact hc.symm
    | 3 => exact hd.symm
  · intro h
    ext k hk
    refine (h ⟨k, hk⟩).trans ?_
    match k, hk with
    | 0, _ => exact ha
    | 1, _ => exact hb
    | 2, _ => exact hc
    | 3, _ => exact hd

theorem word3_eq (body : List Byte) (i : Nat) :
    word3 body i = byteAt body i * 65536 + byteAt body (i + 1) * 256 + byteAt body (i + 2) := by
  unfold word3 word2
  omega

theorem tariffOffer_eq_some_iff {body : List Byte} {o : TariffOffer} :
    tariffOffer body = some o ↔
      (byteAt body 0 % 128 ≤ 1 ∧ o.toDefault = decide (128 ≤ byteAt body 0) ∧
        o.replace = decide (byteAt body 0 % 2 = 1)) ∧
      symbolsOfBytes (byteAt body 1) ((body.drop 2).take 6) = some o.content.pre ∧
      o.content.minLength = byteAt body 8 ∧ o.content.maxLength = byteAt body 9 ∧
      categoryOfCode (byteAt body 10) = some o.content.category ∧
      o.content.rates = #v[word3 body 11, word3 body 14, word3 body 17, word3 body 20] ∧
      o.content.connection = word2 body 23 ∧ o.content.period = word2 body 25 ∧
      roundingOfCode (byteAt body 27) = some o.content.rounding ∧ o.content.minCredit = word2 body 28 ∧
      optionalTimeAt body 30 = some o.content.effectiveFrom ∧ optionalTimeAt body 36 = some o.content.retireAt := by
  obtain ⟨toDefault, replace, content⟩ := o
  obtain ⟨pre, minLength, maxLength, category, rates, connection, period, rounding, minCredit, effectiveFrom, retireAt⟩ :=
    content
  unfold tariffOffer
  split
  · next hbyte hpre hcategory hrounding hfrom hretire =>
    have hmode : byteAt body 0 % 128 ≤ 1 := by
      refine Decidable.byContradiction fun hno => ?_
      simp [hno] at hbyte
    simp only [hpre, hcategory, hrounding, hfrom, hretire, hmode, Option.some.injEq, TariffOffer.mk.injEq,
      TariffContent.mk.injEq, true_and]
    constructor
    · rintro ⟨rfl, rfl, rfl, rfl, rfl, rfl, rfl, rfl, rfl, rfl, rfl, rfl, rfl⟩
      simp
    · rintro ⟨⟨rfl, rfl⟩, rfl, rfl, rfl, rfl, rfl, rfl, rfl, rfl, rfl, rfl, rfl⟩
      simp
  · next hno =>
    refine ⟨fun h => (by cases h), ?_⟩
    rintro ⟨⟨hmode, -⟩, hpre, -, -, hcategory, -, -, -, hrounding, -, hfrom, hretire⟩
    exact (hno () _ _ _ _ _ (if_pos hmode) hpre hcategory hrounding hfrom hretire).elim

theorem byteAt_take_drop {body : List Byte} {k n j : Nat} (h : j < n) :
    byteAt ((body.drop k).take n) j = byteAt body (k + j) := by
  simp [byteAt, List.getD_eq_getElem?_getD, h]

/-- Section 11.8: half-byte `k` of the symbols that a tariff record body begins with. -/
def prefixHalf (body : List Byte) (k : Nat) : Nat :=
  if k % 2 = 0 then byteAt body (2 + k / 2) / 16 else byteAt body (2 + k / 2) % 16

theorem prefix_eq_some_iff {body : List Byte} (hlength : body.length = 42) {pre : List Symbol} :
    symbolsOfBytes (byteAt body 1) ((body.drop 2).take 6) = some pre ↔
      pre.length = byteAt body 1 ∧ pre.length ≤ 12 ∧ ∀ k, k < 12 → prefixHalf body k = (pre.map Fin.val).getD k 15 := by
  have hsix : ((body.drop 2).take 6).length = 6 := by simp [hlength]
  have hhalf (k : Nat) (hk : k < 12) : (halfBytes ((body.drop 2).take 6)).getD k 15 = prefixHalf body k := by
    rw [getD_halfBytes _ _ _ (by omega), byteAt_take_drop (by omega), prefixHalf]
  rw [symbolsOfBytes_eq_some_iff, hsix]
  refine and_congr_right fun hcount => and_congr (by rw [hcount]) (forall₂_congr fun k hk => ?_)
  rw [hhalf k hk]

/-! ### The body that TARIFF_GET returns -/

theorem packCodes_eq (n : Nat) (codes : List Nat) :
    packCodes n codes = (List.range n).map fun j => packByte (codes.getD (2 * j) 15) (codes.getD (2 * j + 1) 15) := by
  induction n generalizing codes with
  | zero => rfl
  | succ n ih =>
    rw [List.range_succ_eq_map, List.map_cons, List.map_map]
    match codes with
    | [] => simp [packCodes, ih, Function.comp_def]
    | [a] => simp [packCodes, ih, Function.comp_def, Nat.mul_add]
    | a :: b :: rest => simp [packCodes, ih, Function.comp_def, Nat.mul_add]

theorem packCodes_six (codes : List Nat) :
    packCodes 6 codes =
      [packByte (codes.getD 0 15) (codes.getD 1 15), packByte (codes.getD 2 15) (codes.getD 3 15),
        packByte (codes.getD 4 15) (codes.getD 5 15), packByte (codes.getD 6 15) (codes.getD 7 15),
        packByte (codes.getD 8 15) (codes.getD 9 15), packByte (codes.getD 10 15) (codes.getD 11 15)] :=
  packCodes_eq 6 codes

theorem toNat_packByte {upper lower : Nat} (hu : upper < 16) (hl : lower < 16) :
    (packByte upper lower).toNat = upper * 16 + lower := by
  rw [packByte, BitVec.toNat_ofNat]
  omega

theorem getD_codes_lt (pre : List Symbol) (k : Nat) : (pre.map Fin.val).getD k 15 < 16 := by
  rw [List.getD_eq_getElem?_getD, List.getElem?_map]
  cases h : pre[k]? with
  | none => decide
  | some x => exact Nat.lt_trans x.isLt (by decide)

theorem optionalTimeBytes_layout (slot i : Nat) {time : Option MinuteTime} (h : ∀ e, time = some e → e.valid = true) :
    ∃ presence year month day hour minute : Byte,
      optionalTimeBytes slot i time = [presence, year, month, day, hour, minute] ∧
        (presence.toNat = 0 ∧ time = none ∨ presence.toNat = 1 ∧
          time = some ⟨⟨2000 + year.toNat, month.toNat, day.toNat⟩, hour.toNat, minute.toNat⟩) := by
  cases time with
  | none => exact ⟨0, _, _, _, _, _, rfl, .inl ⟨rfl, rfl⟩⟩
  | some e =>
    obtain ⟨⟨year, month, day⟩, hour, minute⟩ := e
    have hvalid := h _ rfl
    have hdays : daysIn year month ≤ 31 := by
      unfold daysIn
      split <;> try split
      all_goals omega
    simp only [MinuteTime.valid, Date.valid, Bool.and_eq_true, decide_eq_true_eq] at hvalid
    refine ⟨1, _, _, _, _, _, rfl, .inr ⟨rfl, ?_⟩⟩
    simp only [BitVec.toNat_ofNat, Option.some.injEq, MinuteTime.mk.injEq, Date.mk.injEq]
    omega

theorem toNat_targetByte (slot : Nat) :
    (targetByte slot).toNat = (if slot = 0 then 128 else 0) + if Config.readbackModeBit slot then 1 else 0 := by
  unfold targetByte
  split <;> split <;> rfl

/-- The target of byte 0 as TARIFF_GET returns it, whatever its mode bit. -/
theorem targetByte_mode (slot : Nat) :
    (targetByte slot).toNat % 128 ≤ 1 ∧ decide (slot = 0) = decide (128 ≤ (targetByte slot).toNat) ∧
      Config.readbackModeBit slot = decide ((targetByte slot).toNat % 2 = 1) := by
  rw [toNat_targetByte]
  cases Config.readbackModeBit slot <;> by_cases hslot : slot = 0 <;> simp [hslot]

theorem eq_toNat_of_lt {n value : Nat} (hn : n < 256) (h : value = (BitVec.ofNat 8 n).toNat) : n = value := by
  rw [h, BitVec.toNat_ofNat]
  omega

theorem eq_word2 {body : List Byte} {i n : Nat} (hn : n < 65536) (hupper : byteAt body i = (BitVec.ofNat 8 (n / 256)).toNat)
    (hlower : byteAt body (i + 1) = (BitVec.ofNat 8 n).toNat) : n = word2 body i := by
  rw [word2, hupper, hlower, BitVec.toNat_ofNat, BitVec.toNat_ofNat]
  omega

theorem eq_word3 {body : List Byte} {i n : Nat} (hn : n ≤ 999999)
    (hupper : byteAt body i = (BitVec.ofNat 8 (n / 65536)).toNat)
    (hmiddle : byteAt body (i + 1) = (BitVec.ofNat 8 (n / 256)).toNat)
    (hlower : byteAt body (i + 2) = (BitVec.ofNat 8 n).toNat) : n = word3 body i := by
  rw [word3_eq, hupper, hmiddle, hlower, BitVec.toNat_ofNat, BitVec.toNat_ofNat, BitVec.toNat_ofNat]
  omega

theorem category_code_mem (category : Category) :
    ((BitVec.ofNat 8 category.code).toNat, category) ∈
      [(0, Category.charged), (1, .free), (2, .emergency), (3, .blocked)] := by
  cases category <;> decide

theorem rounding_code_mem (rounding : RecordRounding) :
    ((BitVec.ofNat 8 rounding.code).toNat, rounding) ∈
      [(0, RecordRounding.fixed .carry), (1, .fixed .stepUp), (2, .fixed .stepDown), (3, .station)] := by
  cases rounding with
  | fixed r => cases r <;> decide
  | station => decide

theorem prefixHalf_of_packed {body : List Byte} {pre : List Symbol}
    (h : ∀ j, j < 6 → byteAt body (2 + j) =
      (packByte ((pre.map Fin.val).getD (2 * j) 15) ((pre.map Fin.val).getD (2 * j + 1) 15)).toNat)
    {k : Nat} (hk : k < 12) : prefixHalf body k = (pre.map Fin.val).getD k 15 := by
  have hupper := getD_codes_lt pre (2 * (k / 2))
  have hlower := getD_codes_lt pre (2 * (k / 2) + 1)
  rw [prefixHalf, h _ (by omega), toNat_packByte hupper hlower]
  obtain heven | hodd := Nat.mod_two_eq_zero_or_one k
  · rw [if_pos heven, show 2 * (k / 2) = k by omega] at *
    omega
  · rw [if_neg (by omega), show 2 * (k / 2) + 1 = k by omega] at *
    omega

theorem tariffBytes_read_back (slot : Nat) {c : TariffContent} (hpre : c.pre.length ≤ 12) (hmin : c.minLength ≤ 20)
    (hmax : c.maxLength ≤ 20) (hrates : ∀ band : Fin 4, c.rates[band] ≤ 999999) (hconnection : c.connection ≤ 9999)
    (hperiod : c.period ≤ 600) (hcredit : c.minCredit ≤ 9999) (hfrom : ∀ e, c.effectiveFrom = some e → e.valid = true)
    (hretire : ∀ r, c.retireAt = some r → r.valid = true) :
    (targetByte slot :: tariffBytes slot c).length = 42 ∧
      tariffOffer (targetByte slot :: tariffBytes slot c) = some ⟨slot = 0, Config.readbackModeBit slot, c⟩ := by
  obtain ⟨fp, fy, fm, fd, fh, fn, hfromBytes, hfromTime⟩ := optionalTimeBytes_layout slot 31 hfrom
  obtain ⟨rp, ry, rm, rd, rh, rn, hretireBytes, hretireTime⟩ := optionalTimeBytes_layout slot 37 hretire
  obtain ⟨body, hbody⟩ : ∃ body, targetByte slot :: tariffBytes slot c = body := ⟨_, rfl⟩
  have hlayout := hbody
  simp only [tariffBytes, hfromBytes, hretireBytes, packCodes_six, bytes3, bytes2, List.cons_append, List.nil_append] at hlayout
  have hlength : body.length = 42 := by rw [← hlayout]; rfl
  have hbyte (k : Nat) : byteAt body k = byteAt _ k := congrArg (byteAt · k) hlayout.symm
  rw [hbody]
  refine ⟨hlength, tariffOffer_eq_some_iff.2 ?_⟩
  dsimp only
  refine ⟨?mode, ?pre, ?min, ?max, ?category, ?rates, ?connection, ?period, ?rounding, ?credit, ?effective, ?retire⟩
  case mode =>
    rw [hbyte 0]
    exact targetByte_mode slot
  case pre =>
    refine (prefix_eq_some_iff hlength).2 ⟨?_, hpre, fun k hk => prefixHalf_of_packed (fun j hj => ?_) hk⟩
    · exact eq_toNat_of_lt (by omega) (hbyte 1)
    · rw [hbyte]
      match j, hj with
      | 0, _ | 1, _ | 2, _ | 3, _ | 4, _ | 5, _ => rfl
  case min => exact eq_toNat_of_lt (by omega) (hbyte 8)
  case max => exact eq_toNat_of_lt (by omega) (hbyte 9)
  case category => exact categoryOfCode_eq_some_iff.2 (hbyte 10 ▸ category_code_mem c.category)
  case rates =>
    exact (vector4_eq_iff (f := fun k => c.rates[k])
      (eq_word3 (hrates 0) (hbyte 11) (hbyte 12) (hbyte 13))
      (eq_word3 (hrates 1) (hbyte 14) (hbyte 15) (hbyte 16))
      (eq_word3 (hrates 2) (hbyte 17) (hbyte 18) (hbyte 19))
      (eq_word3 (hrates 3) (hbyte 20) (hbyte 21) (hbyte 22))).2 fun _ => rfl
  case connection => exact eq_word2 (by omega) (hbyte 23) (hbyte 24)
  case period => exact eq_word2 (by omega) (hbyte 25) (hbyte 26)
  case rounding => exact roundingOfCode_eq_some_iff.2 (hbyte 27 ▸ rounding_code_mem c.rounding)
  case credit => exact eq_word2 (by omega) (hbyte 28) (hbyte 29)
  case effective =>
    rw [optionalTimeAt_eq_some_iff, minuteTimeAt, hbyte, hbyte, hbyte, hbyte, hbyte, hbyte]
    exact hfromTime
  case retire =>
    rw [optionalTimeAt_eq_some_iff, minuteTimeAt, hbyte, hbyte, hbyte, hbyte, hbyte, hbyte]
    exact hretireTime

/-- Settles O4: the transfer by its frame, the tariff record body field by field. -/
theorem transferBytesDecodeToTheirCommand : Obligations.TransferBytesDecodeToTheirCommand := by
  refine ⟨fun c p bytes => decodeTransfer_of_encode, ?_, ?_⟩
  · intro body o hlength b time half
    have hbyte : b 0 < 256 := (body.getD 0 0).isLt
    rw [tariffOffer_eq_some_iff, prefix_eq_some_iff hlength, offerByte_iff hbyte, categoryOfCode_eq_some_iff,
      roundingOfCode_eq_some_iff, optionalTimeAt_eq_some_iff, optionalTimeAt_eq_some_iff,
      vector4_eq_iff (f := fun band => b (11 + 3 * band.val) * 65536 + b (12 + 3 * band.val) * 256 + b (13 + 3 * band.val))
        (word3_eq body 11).symm (word3_eq body 14).symm (word3_eq body 17).symm (word3_eq body 20).symm]
    simp only [and_assoc]
    rfl
  · intro slot c hpre hmin hmax hrates hconnection hperiod hcredit hfrom hretire
    obtain ⟨hlength, hread⟩ :=
      tariffBytes_read_back slot hpre hmin hmax hrates hconnection hperiod hcredit hfrom hretire
    exact ⟨hlength, _, hread⟩

end Sys2Proof.Machine
end

/-! ## The changes that a start-up makes (R192 steps 4 to 6) -/

section
namespace Sys2Proof.Machine

/-! ### What the changes to the condition table leave alone

With no call to judge, a change to a record or to a normality touches the table, the level and two attention flags. -/

/-- Two states that differ in the condition records, the normalities, the level and the flags of the two alone. -/
def State.Conditioned (s t : State) : Prop := ∃ records abnormal level since changed leveled, t = { s with
  sup := { s.sup with records := records, abnormal := abnormal, level := level, levelSince := since }
  attention := { s.attention with
    flags := { s.attention.flags with conditionChanged := changed, levelChanged := leveled } } }

theorem State.Conditioned.refl (s : State) : s.Conditioned s := ⟨_, _, _, _, _, _, rfl⟩

theorem State.Conditioned.trans {s t u : State} (hst : s.Conditioned t) (htu : t.Conditioned u) : s.Conditioned u := by
  obtain ⟨_, _, _, _, _, _, rfl⟩ := hst
  obtain ⟨_, _, _, _, _, _, rfl⟩ := htu
  exact ⟨_, _, _, _, _, _, rfl⟩

theorem State.Conditioned.decision {s t : State} (h : s.Conditioned t) : t.session.decision = s.session.decision := by
  obtain ⟨_, _, _, _, _, _, rfl⟩ := h
  rfl

theorem State.conditioned_raise (s : State) : s.Conditioned (s.raise .conditionChanged) := ⟨_, _, _, _, _, _, rfl⟩

theorem State.conditioned_putRecord (src : Source) (r : Option ConditionRecord) (s : State) :
    s.Conditioned (s.putRecord src r) := ⟨_, _, _, _, _, _, rfl⟩

theorem State.conditioned_recount (src : Source) (s : State) : s.Conditioned (s.recount src) := by
  unfold State.recount
  split
  · exact .refl s
  · exact State.conditioned_putRecord ..

theorem State.conditioned_setNormality (src : Source) (abnormal : Bool) (s : State) :
    s.Conditioned (s.setNormality src abnormal) :=
  State.Conditioned.trans ⟨_, _, _, _, _, _, rfl⟩ (State.conditioned_recount src _)

theorem State.conditioned_recordOccurrence (src : Source) (type : ConditionType) (severity : Severity) (s : State) :
    s.Conditioned (s.recordOccurrence src type severity) :=
  ((State.conditioned_putRecord src _ s).trans (State.conditioned_recount src _)).trans (State.conditioned_raise _)

theorem State.conditioned_startThreshold (src : Source) (type : ConditionType) (severity : Severity) (reached : Bool)
    (s : State) : s.Conditioned (s.startThreshold src type severity reached) := by
  have hset := State.conditioned_setNormality src true s
  unfold State.startThreshold
  dsimp only
  (repeat' split)
  · exact hset
  · exact hset.trans (State.conditioned_recordOccurrence ..)
  · exact .refl s

theorem State.conditioned_startForcedEntry (readings : StartReadings) (s : State) :
    s.Conditioned (s.startForcedEntry readings) := by
  unfold State.startForcedEntry
  split
  · exact State.conditioned_recordOccurrence ..
  · exact .refl s

theorem State.conditioned_takeNormality (s : State) : s.Conditioned s.takeNormality :=
  foldl_holds (P := s.Conditioned) (fun t src ht => ht.trans (State.conditioned_setNormality src (t.startAbnormal src) t))
    Source.all (.refl s)

theorem State.conditioned_holdLevel (s : State) : s.Conditioned s.holdLevel := ⟨_, _, _, _, _, _, rfl⟩

section
variable {s : State} (h : s.session.decision = none)
include h

theorem State.conditioned_deriveLevel : s.Conditioned s.deriveLevel := by
  unfold State.deriveLevel
  dsimp only
  split
  · exact .refl s
  · refine Eq.subst (motive := s.Conditioned) (State.judgeLevel_of_none ?_ _).symm ⟨_, _, _, _, _, _, rfl⟩
    exact h

theorem State.conditioned_retire (src : Source) : s.Conditioned (s.retire src) :=
  ((State.conditioned_putRecord src none s).trans (State.conditioned_raise _)).trans (State.conditioned_deriveLevel h)

theorem State.conditioned_retireIfDue (src : Source) : s.Conditioned (s.retireIfDue src) := by
  unfold State.retireIfDue
  split
  · exact .refl s
  · split
    · exact State.conditioned_retire h src
    · exact .refl s

theorem State.conditioned_removeSnapshot (src : Source) : s.Conditioned (s.removeSnapshot src) := by
  unfold State.removeSnapshot
  split
  · exact .refl s
  next r _ =>
    split
    · exact .refl s
    · have hput := State.conditioned_putRecord src (some { r with snapshot := none }) s
      exact hput.trans (State.conditioned_retireIfDue (hput.decision.trans h) src)

theorem State.conditioned_clearIfNormal (src : Source) : s.Conditioned (s.clearIfNormal src) := by
  unfold State.clearIfNormal
  split
  · exact .refl s
  next r hr =>
    split
    · rw [State.clearRecord, hr]
      have hput := (State.conditioned_putRecord src
        (some { r with state := .cleared, lastChange := s.clock.time }) s).trans (State.conditioned_raise _)
      have hderived := hput.trans (State.conditioned_deriveLevel (hput.decision.trans h))
      exact hderived.trans (State.conditioned_retireIfDue (hderived.decision.trans h) src)
    · exact .refl s

theorem State.conditioned_settleRecord (src : Source) : s.Conditioned (s.settleRecord src) := by
  have hremoved := State.conditioned_removeSnapshot h src
  have hcleared := hremoved.trans (State.conditioned_clearIfNormal (hremoved.decision.trans h) src)
  exact hcleared.trans (State.conditioned_retireIfDue (hcleared.decision.trans h) src)

theorem State.conditioned_retentionOccurrence : s.Conditioned s.retentionOccurrence := by
  have hoccurs := State.conditioned_recordOccurrence .retention .retentionLost .notice s
  exact hoccurs.trans (State.conditioned_clearIfNormal (hoccurs.decision.trans h) .retention)

omit h in
theorem State.conditioned_clockOccurrence : s.Conditioned s.clockOccurrence := by
  unfold State.clockOccurrence
  split
  · exact State.conditioned_recordOccurrence ..
  · exact .refl s

theorem State.conditioned_makeChanges {changes : List (State → State)}
    (hchange : ∀ f ∈ changes, ∀ t : State, t.session.decision = none → t.Conditioned (f t)) :
    s.Conditioned (s.makeChanges changes) :=
  (State.makeChanges_law (P := fun t => t.session.decision = none ∧ s.Conditioned t)
    (fun f hf t ht => ⟨(hchange f hf t ht.1).decision.trans ht.1, ht.2.trans (hchange f hf t ht.1)⟩) s ⟨h, .refl s⟩).2

end

theorem State.reportEnabled_congr {s t : State} (h : t.settings = s.settings) (src : Source) :
    t.reportEnabled src = s.reportEnabled src := by
  rw [State.reportEnabled, State.reportEnabled, h]

/-! ### A record but for the count of its active seconds (R166) -/

/-- A record but for the count of its active seconds. -/
def ConditionRecord.uncounted (r : ConditionRecord) : ConditionRecord := { r with activeMs := 0, activeSince := none }

/-- A source's record but for the count of its active seconds. -/
def State.entry (src : Source) (s : State) : Option ConditionRecord := (s.record src).map ConditionRecord.uncounted

theorem ConditionRecord.uncounted_recount (now : Nat) (counting : Bool) (r : ConditionRecord) :
    (r.recount now counting).uncounted = r.uncounted := by
  rw [ConditionRecord.recount_eq]
  split <;> rfl

theorem State.entry_of_same {src : Source} {s t : State} (h : Same src s t) : t.entry src = s.entry src := by
  rw [State.entry, State.entry, h.1]

theorem State.recordActive_eq (src : Source) (s : State) : s.recordActive src = (s.entry src).any ConditionRecord.active := by
  unfold State.recordActive State.entry
  cases s.record src <;> rfl

theorem State.entry_setNormality (src : Source) (abnormal : Bool) (x : Source) (s : State) :
    (s.setNormality src abnormal).entry x = s.entry x := by
  by_cases h : src = x
  · subst h
    rw [State.entry, State.entry, State.record_setNormality_eq, Option.map_map]
    exact congrArg (Option.map · _) (funext fun r => ConditionRecord.uncounted_recount ..)
  · exact State.entry_of_same (same_setNormality h)

/-- R160, R161: an occurrence taken by what a source has. -/
def occurs (type : ConditionType) (severity : Severity) (now : ClockTime) : Option ConditionRecord → ConditionRecord
  | none => .create type severity now
  | some r => r.occur type severity now

theorem State.entry_recordOccurrence_self (src : Source) (type : ConditionType) (severity : Severity) (s : State) :
    (s.recordOccurrence src type severity).entry src = some (occurs type severity s.clock.time (s.entry src)) := by
  rw [State.entry, State.record_recordOccurrence, State.entry, State.occurred]
  cases s.record src <;> exact congrArg some (ConditionRecord.uncounted_recount ..)

/-- R160, R161: an occurrence, where there is one, taken by what a source has. -/
def occursIf (type : ConditionType) (severity : Severity) (now : ClockTime) (raised : Bool) (e : Option ConditionRecord) :
    Option ConditionRecord :=
  if raised then some (occurs type severity now e) else e

theorem State.entry_recordOccurrence_if (src : Source) (type : ConditionType) (severity : Severity) (raised : Bool) (s : State) :
    (if raised then s.recordOccurrence src type severity else s).entry src =
      occursIf type severity s.clock.time raised (s.entry src) := by
  cases raised
  · rfl
  · exact State.entry_recordOccurrence_self ..

/-! ### The normality that a start-up takes (R170) -/

theorem State.startAbnormal_setNormality (src : Source) (abnormal : Bool) (s : State) :
    (s.setNormality src abnormal).startAbnormal = s.startAbnormal := by
  funext x
  cases x <;> simp [State.startAbnormal, recordActive_setNormality]

theorem State.normal_setNormality_eq (src : Source) (abnormal : Bool) (x : Source) (s : State) :
    (s.setNormality src abnormal).normal x = if src = x then !abnormal else s.normal x := by
  split
  next h => exact h ▸ State.normal_setNormality s src abnormal
  next h => exact (same_setNormality h).2

theorem State.takeNormality_keeps (s : State) (l : List Source) :
    let t := l.foldl (fun t src => t.setNormality src (t.startAbnormal src)) s
    t.startAbnormal = s.startAbnormal ∧ ∀ x, t.entry x = s.entry x :=
  foldl_holds (P := fun t => State.startAbnormal t = s.startAbnormal ∧ ∀ x, State.entry x t = s.entry x)
    (fun _ _ ht => ⟨(State.startAbnormal_setNormality ..).trans ht.1, fun x => (State.entry_setNormality ..).trans (ht.2 x)⟩)
    l ⟨rfl, fun _ => rfl⟩

theorem State.entry_takeNormality (src : Source) (s : State) : s.takeNormality.entry src = s.entry src :=
  (State.takeNormality_keeps s Source.all).2 src

theorem State.normal_takeNormality (src : Source) (s : State) : s.takeNormality.normal src = !s.startAbnormal src := by
  obtain ⟨before, after, hall⟩ := List.append_of_mem src.mem_all
  have hnodup := Source.all_nodup
  rw [hall, List.nodup_append] at hnodup
  have hafter : src ∉ after := (List.nodup_cons.1 hnodup.2.1).1
  rw [State.takeNormality, hall, List.foldl_append, List.foldl_cons, takeNormality_other _ _ hafter, State.normal_setNormality,
    (State.takeNormality_keeps s before).1]

/-! ### The first readings (R55) -/

/-- R55: the first readings of the compartment inputs taken. -/
def State.read (readings : StartReadings) (s : State) : State :=
  s.setComp { s.comp with door := readings.door, key := readings.key, presence := readings.presence }

/-- R47: the current tally closed, with TALLY_CLOSED. -/
def State.closed (s : State) : State := { s with
  comp := s.comp.close s.comp.forcedNow
  attention := { s.attention with flags := { s.attention.flags with tallyClosed := true } } }

/-- R47, R55: the readings and the tallies that the first readings leave, before the conditions that follow from them. -/
def State.readingsTaken (readings : StartReadings) (s : State) : State :=
  if s.removedAtStart readings then (s.read readings).closed else s.read readings

/-- R55: the first readings taken, with the normality of COMPARTMENT. -/
def State.doorRead (readings : StartReadings) (s : State) : State :=
  (s.read readings).setNormality .compartment (readings.door = .opened)

theorem State.takeReadings_eq (readings : StartReadings) (s : State) : s.takeReadings readings =
    if s.removedAtStart readings then (s.doorRead readings).startClosure else s.doorRead readings := rfl

theorem State.Conditioned.closed {s t : State} (h : s.Conditioned t) : s.closed.Conditioned t.closed := by
  obtain ⟨_, _, _, _, _, _, rfl⟩ := h
  exact ⟨_, _, _, _, _, _, rfl⟩

theorem State.startClosure_eq (s : State) : s.startClosure = State.raise .tallyClosed
    (if s.comp.forcedNow then
      (((s.setComp (s.comp.close s.comp.forcedNow)).setNormality .collection true).recordOccurrence
        .collection .cashboxCollected .notice).recordOccurrence .compartment .compartmentForced .alarm
    else ((s.setComp (s.comp.close s.comp.forcedNow)).setNormality .collection true).recordOccurrence
        .collection .cashboxCollected .notice) := rfl

theorem State.conditioned_startClosure (s : State) : s.closed.Conditioned s.startClosure := by
  have hcollection := (State.conditioned_setNormality .collection true (s.setComp (s.comp.close s.comp.forcedNow))).trans
    (State.conditioned_recordOccurrence .collection .cashboxCollected .notice _)
  rw [State.startClosure_eq]
  split
  · obtain ⟨_, _, _, _, _, _, h⟩ :=
      hcollection.trans (State.conditioned_recordOccurrence .compartment .compartmentForced .alarm _)
    exact h ▸ ⟨_, _, _, _, _, _, rfl⟩
  · obtain ⟨_, _, _, _, _, _, h⟩ := hcollection
    exact h ▸ ⟨_, _, _, _, _, _, rfl⟩

theorem State.conditioned_takeReadings (readings : StartReadings) (s : State) :
    (s.readingsTaken readings).Conditioned (s.takeReadings readings) := by
  have hread : (s.read readings).Conditioned (s.doorRead readings) := State.conditioned_setNormality ..
  rw [State.takeReadings_eq, State.readingsTaken]
  split
  · exact hread.closed.trans (State.conditioned_startClosure _)
  · exact hread

/-! ### The records and normalities after the changes before the records are settled (R46, R55) -/

theorem State.clock_setNormality (src : Source) (abnormal : Bool) (s : State) : (s.setNormality src abnormal).clock = s.clock := by
  simp

theorem State.normal_startClosure (src : Source) (s : State) :
    s.startClosure.normal src = if src = .collection then false else s.normal src := by
  have hset : ((s.setComp (s.comp.close s.comp.forcedNow)).setNormality .collection true).normal src =
      if src = .collection then false else s.normal src := by
    rw [State.normal_setNormality_eq]
    simp only [eq_comm (a := Source.collection)]
    rfl
  rw [State.startClosure_eq, same_raise.2, ← hset]
  split
  · rw [State.normal_recordOccurrence, State.normal_recordOccurrence]
  · rw [State.normal_recordOccurrence]

/-- R47: what a source has after a closure at start-up. -/
def closureEntry (forced : Bool) (now : ClockTime) (src : Source) (e : Option ConditionRecord) : Option ConditionRecord :=
  match src with
  | .collection => some (occurs .cashboxCollected .notice now e)
  | .compartment => occursIf .compartmentForced .alarm now forced e
  | _ => e

theorem State.entry_startClosure (src : Source) (s : State) :
    s.startClosure.entry src = closureEntry s.comp.forcedNow s.clock.time src (s.entry src) := by
  let collected := ((s.setComp (s.comp.close s.comp.forcedNow)).setNormality .collection true).recordOccurrence
    .collection .cashboxCollected .notice
  have hcollected : collected.entry .collection = some (occurs .cashboxCollected .notice s.clock.time (s.entry .collection)) := by
    rw [State.entry_recordOccurrence_self, State.entry_setNormality, State.clock_setNormality]
    rfl
  have hother (h : src ≠ .collection) : collected.entry src = s.entry src := by
    rw [State.entry_of_same (same_recordOccurrence h.symm), State.entry_setNormality]
    rfl
  have hclosure : s.startClosure = State.raise .tallyClosed
      (if s.comp.forcedNow then collected.recordOccurrence .compartment .compartmentForced .alarm else collected) := rfl
  rw [hclosure, State.entry_of_same same_raise]
  by_cases hcompartment : src = .compartment
  · subst hcompartment
    have hclock : collected.clock = s.clock := by simp [collected]
    rw [State.entry_recordOccurrence_if, hother (by decide), hclock]
    rfl
  · have hkept : (if s.comp.forcedNow then collected.recordOccurrence .compartment .compartmentForced .alarm
        else collected).entry src = collected.entry src := by
      split
      · exact State.entry_of_same (same_recordOccurrence (Ne.symm hcompartment))
      · rfl
    rw [hkept]
    cases src
    case collection => exact hcollected
    case compartment => exact absurd rfl hcompartment
    all_goals exact hother (by simp)

theorem State.normal_startThreshold (src : Source) (type : ConditionType) (severity : Severity) (reached : Bool)
    (x : Source) (s : State) : (s.startThreshold src type severity reached).normal x =
      if src = x ∧ reached = true then false else s.normal x := by
  unfold State.startThreshold
  cases reached
  · simp
  · simp only [if_true, and_true, ← Bool.not_true, ← State.normal_setNormality_eq]
    split
    · rfl
    · rw [State.normal_recordOccurrence]

theorem State.entry_startThreshold (src : Source) (type : ConditionType) (severity : Severity) (reached : Bool)
    (x : Source) (s : State) : (s.startThreshold src type severity reached).entry x =
      if src = x then occursIf type severity s.clock.time (reached && !(s.entry x).any ConditionRecord.active) (s.entry x)
      else s.entry x := by
  by_cases h : src = x
  · subst h
    rw [if_pos rfl, ← State.recordActive_eq]
    unfold State.startThreshold
    cases reached
    · rfl
    · simp only [if_true, recordActive_setNormality]
      cases s.recordActive src
      · exact (State.entry_recordOccurrence_self ..).trans (by rw [State.entry_setNormality, State.clock_setNormality]; rfl)
      · exact State.entry_setNormality ..
  · rw [if_neg h, State.entry_of_same (same_startThreshold h)]

/-- R55: the first readings, what they show, and the thresholds judged. -/
def State.compartmentStarted (readings : StartReadings) (s : State) : State :=
  ((s.takeReadings readings).startForcedEntry readings).startNear.startFull

/-- R55: whether the first readings show a removal that is forced. -/
def State.forcedAtStart (readings : StartReadings) (s : State) : Bool :=
  s.removedAtStart readings && readings.key ≠ .collect

/-- R46, R47, R55: what a source has after the first readings and the thresholds. -/
def State.startedEntry (readings : StartReadings) (s : State) (src : Source) (e : Option ConditionRecord) :
    Option ConditionRecord :=
  match src with
  | .collection => occursIf .cashboxCollected .notice s.clock.time (s.removedAtStart readings) e
  | .compartment => occursIf .compartmentForced .alarm s.clock.time (forcedEntryAt readings)
      (occursIf .compartmentForced .alarm s.clock.time (s.forcedAtStart readings) e)
  | .cashboxNear => occursIf .cashboxNearFull .notice s.clock.time
      (s.settings.near ≤ (s.readingsTaken readings).comp.current.totalCoins && !e.any ConditionRecord.active) e
  | .cashboxFull => occursIf .cashboxFull .fault s.clock.time
      (s.settings.full ≤ (s.readingsTaken readings).comp.current.totalCoins && !e.any ConditionRecord.active) e
  | _ => e

/-- R46, R55, R170: whether a source is normal after the first readings and the thresholds. -/
def State.startedNormal (readings : StartReadings) (s : State) : Source → Bool
  | .collection => s.normal .collection && !s.removedAtStart readings
  | .compartment => !decide (readings.door = .opened)
  | .cashboxNear =>
    s.normal .cashboxNear && !decide (s.settings.near ≤ (s.readingsTaken readings).comp.current.totalCoins)
  | .cashboxFull =>
    s.normal .cashboxFull && !decide (s.settings.full ≤ (s.readingsTaken readings).comp.current.totalCoins)
  | src => s.normal src

theorem State.normal_doorRead (readings : StartReadings) (src : Source) (s : State) : (s.doorRead readings).normal src =
    if src = .compartment then !decide (readings.door = .opened) else s.normal src := by
  rw [State.doorRead, State.normal_setNormality_eq]
  simp only [eq_comm (a := Source.compartment)]
  rfl

theorem State.entry_doorRead (readings : StartReadings) (src : Source) (s : State) :
    (s.doorRead readings).entry src = s.entry src := State.entry_setNormality ..

theorem State.comp_takeReadings (readings : StartReadings) (s : State) :
    (s.takeReadings readings).comp = (s.readingsTaken readings).comp := by
  obtain ⟨_, _, _, _, _, _, h⟩ := State.conditioned_takeReadings readings s
  rw [h]

theorem State.normal_startForcedEntry (readings : StartReadings) (src : Source) (s : State) :
    (s.startForcedEntry readings).normal src = s.normal src := by
  unfold State.startForcedEntry
  split
  · rw [State.normal_recordOccurrence]
  · rfl

theorem State.entry_startForcedEntry (readings : StartReadings) (src : Source) (s : State) :
    (s.startForcedEntry readings).entry src =
      if src = .compartment then occursIf .compartmentForced .alarm s.clock.time (forcedEntryAt readings) (s.entry src)
      else s.entry src := by
  unfold State.startForcedEntry
  by_cases h : src = .compartment
  · subst h
    rw [if_pos rfl, State.entry_recordOccurrence_if]
  · rw [if_neg h]
    split
    · exact State.entry_of_same (same_recordOccurrence (Ne.symm h))
    · rfl

theorem State.normal_takeReadings (readings : StartReadings) (src : Source) (s : State) :
    (s.takeReadings readings).normal src =
      if src = .compartment then !decide (readings.door = .opened)
      else if src = .collection then s.normal src && !s.removedAtStart readings else s.normal src := by
  rw [State.takeReadings_eq]
  cases s.removedAtStart readings
  · simp [State.normal_doorRead]
  · simp only [if_true, State.normal_startClosure, State.normal_doorRead]
    cases src <;> simp

theorem State.entry_takeReadings (readings : StartReadings) (src : Source) (s : State) :
    (s.takeReadings readings).entry src = match src with
      | .collection => occursIf .cashboxCollected .notice s.clock.time (s.removedAtStart readings) (s.entry src)
      | .compartment => occursIf .compartmentForced .alarm s.clock.time (s.forcedAtStart readings) (s.entry src)
      | _ => s.entry src := by
  rw [State.takeReadings_eq, State.forcedAtStart]
  cases s.removedAtStart readings
  · cases src <;> exact State.entry_doorRead ..
  · have hforced : (s.doorRead readings).comp.forcedNow = decide (readings.key ≠ .collect) := by
      simp [State.doorRead, State.read, Compartment.forcedNow]
    have hclock : (s.doorRead readings).clock = s.clock := by simp [State.doorRead, State.read]
    simp only [if_true, State.entry_startClosure, State.entry_doorRead, hforced, hclock]
    cases src <;> rfl

theorem State.normal_compartmentStarted (readings : StartReadings) (src : Source) (s : State) :
    (s.compartmentStarted readings).normal src = s.startedNormal readings src := by
  have hsettings : (s.takeReadings readings).settings = s.settings := by simp
  simp only [State.compartmentStarted, State.startNear, State.startFull, State.normal_startThreshold,
    State.normal_startForcedEntry, State.normal_takeReadings, State.startThreshold_frame, State.startForcedEntry_frame,
    State.comp_takeReadings, hsettings]
  cases src <;> simp [State.startedNormal, Bool.and_comm]

theorem State.entry_compartmentStarted (readings : StartReadings) (src : Source) (s : State) :
    (s.compartmentStarted readings).entry src = s.startedEntry readings src (s.entry src) := by
  have hsettings : (s.takeReadings readings).settings = s.settings := by simp
  simp only [State.compartmentStarted, State.startNear, State.startFull, State.entry_startThreshold,
    State.entry_startForcedEntry, State.entry_takeReadings, State.startThreshold_frame, State.startForcedEntry_frame,
    State.comp_takeReadings, hsettings]
  cases src <;> simp [State.startedEntry]

/-! ### The clear delays (R170) -/

/-- R170: an input with its clear delay begun, where its source is abnormal and its line stands inactive. -/
def SupervisedInput.delayed (now : Nat) (normal high : Bool) (x : SupervisedInput) : SupervisedInput :=
  if normal = false ∧ x.assignment.inactiveAt high = true then { x with clearFrom := some now } else x

theorem State.startClearDelays_inputs (readings : StartReadings) (i : Fin 8) (s : State) :
    (s.startClearDelays readings).sup.inputs[i] =
      s.sup.inputs[i].delayed s.now (s.normal (.input i)) readings.linesHigh[i] := by
  simp [State.startClearDelays, SupervisedInput.delayed]

theorem same_startClearDelays {src : Source} {s : State} (readings : StartReadings) : Same src s (s.startClearDelays readings) :=
  same_tables rfl rfl

/-! ### The records settled (R170) -/

/-- R162, R165: what is left of a record that R162 clears where it is unlatched, active and its source normal. -/
def ConditionRecord.clearedBy (src : Source) (normal enabled : Bool) (now : ClockTime) (r : ConditionRecord) :
    Option ConditionRecord :=
  if r.active = true ∧ latched src r = false ∧ normal = true then
    if enabled = false ∧ r.snapshot = none then none else some { r with state := .cleared, lastChange := now }
  else some r

/-- R165: what R165 leaves of a record. -/
def ConditionRecord.keptBy (enabled : Bool) (r : ConditionRecord) : Option ConditionRecord :=
  if r.state = .cleared ∧ enabled = false ∧ r.snapshot = none then none else some r

/-- R170: what a start-up leaves of a retained record, but for what occurs. -/
def ConditionRecord.settled (src : Source) (normal enabled : Bool) (now : ClockTime) (r : ConditionRecord) :
    Option ConditionRecord :=
  let clears := r.state ≠ .cleared ∧ latched src r = false ∧ normal = true
  if (clears ∨ r.state = .cleared) ∧ enabled = false then none
  else if clears then some { r with state := .cleared, lastChange := now, snapshot := none }
  else some { r with snapshot := none }

theorem State.record_clearIfNormal (src : Source) (s : State) : (s.clearIfNormal src).record src =
    (s.record src).bind (ConditionRecord.clearedBy src (s.normal src) (s.reportEnabled src) s.clock.time) := by
  unfold State.clearIfNormal
  split
  next h => rw [h]; rfl
  next r h =>
    rw [h, Option.bind_some, ConditionRecord.clearedBy]
    split
    · exact State.record_clearRecord h
    · exact h

theorem State.record_retireIfDue (src : Source) (s : State) :
    (s.retireIfDue src).record src = (s.record src).bind (ConditionRecord.keptBy (s.reportEnabled src)) := by
  unfold State.retireIfDue
  split
  next h => rw [h]; rfl
  next r h =>
    rw [h, Option.bind_some, ConditionRecord.keptBy]
    split
    · exact State.record_retire ..
    · exact h

theorem State.normal_removeSnapshot (src x : Source) (s : State) : (s.removeSnapshot src).normal x = s.normal x := by
  unfold State.removeSnapshot
  split
  · rfl
  · split
    · rfl
    · rw [State.normal_retireIfDue]
      rfl

/-- A snapshot removed, a clearing and a retirement, taken together. -/
theorem ConditionRecord.settled_eq (src : Source) (normal enabled : Bool) (now : ClockTime) (r : ConditionRecord) :
    ((if r.snapshot = none then some r
      else if r.state = .cleared ∧ enabled = false then none
      else some { r with snapshot := none }).bind (ConditionRecord.clearedBy src normal enabled now)).bind
        (ConditionRecord.keptBy enabled) = r.settled src normal enabled now := by
  have hgone : (if r.snapshot = none then some r else if r.state = .cleared ∧ enabled = false then none
      else some { r with snapshot := none }) =
      if r.snapshot ≠ none ∧ r.state = .cleared ∧ enabled = false then none else some { r with snapshot := none } := by
    obtain ⟨_, _, _, _, _, _, _, _, _, snapshot⟩ := r
    cases snapshot <;> simp
  have hlatched : latched src { r with snapshot := none } = latched src r := rfl
  rw [hgone]
  by_cases hcleared : r.state = .cleared
  · cases enabled <;> cases r.snapshot <;>
      simp [ConditionRecord.settled, ConditionRecord.clearedBy, ConditionRecord.keptBy, ConditionRecord.active, hcleared]
  · by_cases hclears : latched src r = false ∧ normal = true
    · cases enabled <;>
        simp [ConditionRecord.settled, ConditionRecord.clearedBy, ConditionRecord.keptBy, ConditionRecord.active, hcleared,
          hlatched, hclears]
    · simp [ConditionRecord.settled, ConditionRecord.clearedBy, ConditionRecord.keptBy, ConditionRecord.active, hcleared,
        hlatched, hclears]

theorem State.record_settleRecord (src : Source) (s : State) : (s.settleRecord src).record src =
    (s.record src).bind (ConditionRecord.settled src (s.normal src) (s.reportEnabled src) s.clock.time) := by
  rw [State.settleRecord, State.record_retireIfDue, State.record_clearIfNormal, State.record_removeSnapshot,
    State.normal_removeSnapshot, State.reportEnabled_congr (s := s) (t := s.removeSnapshot src) (by simp),
    State.reportEnabled_congr (s := s) (t := (s.removeSnapshot src).clearIfNormal src) (by simp),
    show (s.removeSnapshot src).clock = s.clock by simp, State.recordUnreported]
  cases s.record src with
  | none => rfl
  | some r => exact ConditionRecord.settled_eq ..

theorem State.entry_settleRecord (src : Source) (s : State) : (s.settleRecord src).entry src =
    (s.entry src).bind (ConditionRecord.settled src (s.normal src) (s.reportEnabled src) s.clock.time) := by
  have hsettled (r : ConditionRecord) (normal enabled : Bool) (now : ClockTime) :
      (r.settled src normal enabled now).map ConditionRecord.uncounted = r.uncounted.settled src normal enabled now := by
    unfold ConditionRecord.settled
    simp only [show latched src r.uncounted = latched src r from rfl, show r.uncounted.state = r.state from rfl]
    (repeat' split) <;> rfl
  rw [State.entry, State.record_settleRecord, State.entry]
  cases s.record src with
  | none => rfl
  | some r => exact hsettled ..

theorem State.normal_settleRecord (src x : Source) (s : State) : (s.settleRecord src).normal x = s.normal x := by
  rw [State.settleRecord, State.normal_retireIfDue, State.normal_clearIfNormal, State.normal_removeSnapshot]

theorem same_settleRecord {src x : Source} {s : State} (h : src ≠ x) : Same x s (s.settleRecord src) :=
  ((same_removeSnapshot h).trans (same_clearIfNormal h)).trans (same_retireIfDue h)

/-- R170: every record settled. -/
def State.settled (s : State) : State := s.makeChanges (Source.all.map State.settleRecord)

theorem State.settled_eq (s : State) : s.settled = Source.all.foldl (fun t src => t.settleRecord src) s := List.foldl_map

theorem State.normal_settled (src : Source) (s : State) : s.settled.normal src = s.normal src := by
  rw [State.settled_eq]
  exact foldl_keeps (State.normal · src) _ (fun t x => State.normal_settleRecord x src t) Source.all s

theorem State.settled_frame (s : State) : s.settled.clock = s.clock ∧ s.settled.settings = s.settings := by
  rw [State.settled_eq]
  exact ⟨foldl_keeps State.clock _ (by simp) Source.all s, foldl_keeps State.settings _ (by simp) Source.all s⟩

theorem State.entry_settled (src : Source) (s : State) : s.settled.entry src =
    (s.entry src).bind (ConditionRecord.settled src (s.normal src) (s.reportEnabled src) s.clock.time) := by
  obtain ⟨before, after, hall⟩ := List.append_of_mem src.mem_all
  have hnodup := Source.all_nodup
  rw [hall, List.nodup_append] at hnodup
  obtain ⟨-, hafter, hdisjoint⟩ := hnodup
  have hothers (l : List Source) (h : src ∉ l) (t : State) : Same src t (l.foldl (fun s x => s.settleRecord x) t) :=
    same_foldl _ l (fun u x hx => same_settleRecord (by rintro rfl; exact h hx)) t
  obtain ⟨t, ht⟩ : ∃ t, before.foldl (fun s x => s.settleRecord x) s = t := ⟨_, rfl⟩
  have hsame : Same src s t := ht ▸ hothers before (fun hmem => hdisjoint src hmem src List.mem_cons_self rfl) s
  have hclock : t.clock = s.clock := ht ▸ foldl_keeps State.clock _ (by simp) before s
  have hsettings : t.settings = s.settings := ht ▸ foldl_keeps State.settings _ (by simp) before s
  rw [State.settled_eq, hall, List.foldl_append, List.foldl_cons, ht,
    State.entry_of_same (hothers after (List.nodup_cons.1 hafter).1 _), State.entry_settleRecord, State.entry_of_same hsame,
    hsame.2, hclock, State.reportEnabled, hsettings]
  rfl

/-! ### RETENTION and CLOCK (R80, R191) -/

/-- R161, R191: what RETENTION has after one occurrence, which clears at once. -/
def retentionEntry (enabled : Bool) (now : ClockTime) (e : Option ConditionRecord) : Option ConditionRecord :=
  (occurs .retentionLost .notice now e).clearedBy .retention true enabled now

/-- R191: what RETENTION has after a number of occurrences. -/
def retentionEntries (enabled : Bool) (now : ClockTime) : Nat → Option ConditionRecord → Option ConditionRecord
  | 0, e => e
  | n + 1, e => retentionEntries enabled now n (retentionEntry enabled now e)

theorem retentionEntries_succ (enabled : Bool) (now : ClockTime) (n : Nat) (e : Option ConditionRecord) :
    retentionEntries enabled now (n + 1) e = retentionEntries enabled now n (retentionEntry enabled now e) := rfl

theorem State.entry_clearIfNormal (src : Source) (s : State) : (s.clearIfNormal src).entry src =
    (s.entry src).bind (ConditionRecord.clearedBy src (s.normal src) (s.reportEnabled src) s.clock.time) := by
  have hcleared (r : ConditionRecord) (normal enabled : Bool) (now : ClockTime) :
      (r.clearedBy src normal enabled now).map ConditionRecord.uncounted = r.uncounted.clearedBy src normal enabled now := by
    unfold ConditionRecord.clearedBy
    simp only [show latched src r.uncounted = latched src r from rfl, show r.uncounted.active = r.active from rfl,
      show r.uncounted.snapshot = r.snapshot from rfl]
    (repeat' split) <;> rfl
  rw [State.entry, State.record_clearIfNormal, State.entry]
  cases s.record src with
  | none => rfl
  | some r => exact hcleared ..

theorem State.entry_retentionOccurrence {s : State} (h : s.normal .retention = true) : s.retentionOccurrence.entry .retention =
    retentionEntry (s.reportEnabled .retention) s.clock.time (s.entry .retention) := by
  have hsettings : (s.recordOccurrence .retention .retentionLost .notice).settings = s.settings := by simp
  have hclock : (s.recordOccurrence .retention .retentionLost .notice).clock = s.clock := by simp
  rw [State.retentionOccurrence, State.entry_clearIfNormal, State.entry_recordOccurrence_self, State.normal_recordOccurrence, h,
    State.reportEnabled, hsettings, hclock]
  rfl

theorem State.normal_retentionOccurrence (src : Source) (s : State) : s.retentionOccurrence.normal src = s.normal src := by
  rw [State.retentionOccurrence, State.normal_clearIfNormal, State.normal_recordOccurrence]

theorem same_retentionOccurrence {src : Source} {s : State} (h : src ≠ .retention) : Same src s s.retentionOccurrence :=
  (same_recordOccurrence h.symm).trans (same_clearIfNormal h.symm)

/-- R191: a number of RETENTION occurrences. -/
def State.retained (n : Nat) (s : State) : State := s.makeChanges (List.replicate n State.retentionOccurrence)

theorem State.retained_succ (n : Nat) (s : State) : s.retained (n + 1) = s.retentionOccurrence.retained n := rfl

theorem State.retained_frame (n : Nat) (s : State) : (s.retained n).clock = s.clock ∧ (s.retained n).settings = s.settings := by
  induction n generalizing s with
  | zero => exact ⟨rfl, rfl⟩
  | succ n ih => simpa [State.retained_succ] using ih s.retentionOccurrence

theorem State.normal_retained (n : Nat) (src : Source) (s : State) : (s.retained n).normal src = s.normal src := by
  induction n generalizing s with
  | zero => rfl
  | succ n ih => rw [State.retained_succ, ih, State.normal_retentionOccurrence]

theorem same_retained {src : Source} {s : State} (h : src ≠ .retention) (n : Nat) : Same src s (s.retained n) := by
  induction n generalizing s with
  | zero => exact .refl
  | succ n ih => exact (same_retentionOccurrence h).trans ih

theorem State.entry_retained (n : Nat) {s : State} (h : s.normal .retention = true) : (s.retained n).entry .retention =
    retentionEntries (s.reportEnabled .retention) s.clock.time n (s.entry .retention) := by
  induction n generalizing s with
  | zero => rfl
  | succ n ih =>
    have hsettings : s.retentionOccurrence.settings = s.settings := by simp
    have hclock : s.retentionOccurrence.clock = s.clock := by simp
    rw [State.retained_succ, ih ((State.normal_retentionOccurrence ..).trans h), State.entry_retentionOccurrence h,
      retentionEntries_succ, State.reportEnabled, State.reportEnabled, hsettings, hclock]

theorem State.normal_clockOccurrence (src : Source) (s : State) : s.clockOccurrence.normal src = s.normal src := by
  unfold State.clockOccurrence
  split
  · rw [State.normal_recordOccurrence]
  · rfl

theorem State.entry_clockOccurrence (src : Source) (s : State) : s.clockOccurrence.entry src =
    if src = .clock then occursIf .clockUnset .notice s.clock.time s.clock.unset (s.entry src) else s.entry src := by
  unfold State.clockOccurrence
  by_cases h : src = .clock
  · subst h
    rw [if_pos rfl, State.entry_recordOccurrence_if]
  · rw [if_neg h]
    split
    · exact State.entry_of_same (same_recordOccurrence (Ne.symm h))
    · rfl

/-! ### The changes together -/

/-- R192 steps 4 and 5: all the changes but the forfeit of the retained B. -/
def State.conditionsStarted (readings : StartReadings) (lost : Nat) (s : State) : State :=
  ((((s.compartmentStarted readings).startClearDelays readings).settled.retained lost).clockOccurrence).holdLevel

theorem State.makeChanges_append (changes later : List (State → State)) (s : State) :
    s.makeChanges (changes ++ later) = (s.makeChanges changes).makeChanges later := List.foldl_append

theorem State.makeChanges_startChanges_eq (readings : StartReadings) (lost : Nat) (s : State) :
    s.makeChanges (State.startChanges readings lost) =
      (s.conditionsStarted readings lost).addStartForfeit.clearBanked := by
  rw [State.startChanges, State.makeChanges_append, State.makeChanges_append, State.makeChanges_append]
  rfl

theorem State.normal_conditionsStarted (readings : StartReadings) (lost : Nat) (src : Source) (s : State) :
    (s.conditionsStarted readings lost).normal src = s.startedNormal readings src := by
  rw [State.conditionsStarted]
  change State.normal (State.clockOccurrence _) src = _
  rw [State.normal_clockOccurrence, State.normal_retained, State.normal_settled, (same_startClearDelays readings).2,
    State.normal_compartmentStarted]

/-- R170: what a source has once its record is settled. -/
def State.settledEntry (readings : StartReadings) (s : State) (src : Source) : Option ConditionRecord :=
  (s.startedEntry readings src (s.entry src)).bind
    (ConditionRecord.settled src (s.startedNormal readings src) (s.reportEnabled src) s.clock.time)

/-- R191, R192: what a source has after steps 4 and 5. -/
def State.restartedEntry (readings : StartReadings) (lost : Nat) (s : State) (src : Source) : Option ConditionRecord :=
  if src = .retention then retentionEntries (s.reportEnabled src) s.clock.time lost (s.settledEntry readings src)
  else if src = .clock then occursIf .clockUnset .notice s.clock.time s.clock.unset (s.settledEntry readings src)
  else s.settledEntry readings src

theorem State.entry_conditionsStarted (readings : StartReadings) (lost : Nat) (src : Source) {s : State}
    (hretention : s.normal .retention = true) :
    (s.conditionsStarted readings lost).entry src = s.restartedEntry readings lost src := by
  obtain ⟨t, ht⟩ : ∃ t, (s.compartmentStarted readings).startClearDelays readings = t := ⟨_, rfl⟩
  have hclock : t.clock = s.clock := by
    rw [← ht]
    simp [State.compartmentStarted]
  have hsettings : t.settings = s.settings := by
    rw [← ht]
    simp [State.compartmentStarted]
  have henabled : t.settled.reportEnabled src = s.reportEnabled src :=
    State.reportEnabled_congr (t.settled_frame.2.trans hsettings) src
  have hsettled (x : Source) : t.settled.entry x = s.settledEntry readings x := by
    rw [State.entry_settled, hclock, State.reportEnabled_congr hsettings, ← ht,
      State.entry_of_same (same_startClearDelays readings), (same_startClearDelays readings).2,
      State.entry_compartmentStarted, State.normal_compartmentStarted]
    rfl
  have hnormal : t.settled.normal .retention = true := by
    rw [State.normal_settled, ← ht, (same_startClearDelays readings).2, State.normal_compartmentStarted]
    exact hretention
  rw [State.conditionsStarted, ht]
  change State.entry src (State.clockOccurrence _) = _
  rw [State.entry_clockOccurrence, (State.retained_frame ..).1, t.settled_frame.1, hclock, State.restartedEntry]
  by_cases h : src = .retention
  · subst h
    rw [if_neg (by decide), if_pos rfl, State.entry_retained _ hnormal, henabled, t.settled_frame.1, hclock, hsettled]
  · rw [State.entry_of_same (same_retained h lost), if_neg h, hsettled]

end Sys2Proof.Machine
end

/-! ## A start-up that runs to its end (R191, R192) -/

section
namespace Sys2Proof.Machine

/-! ### The regions judged, and the table and the band formed (steps 1 to 3) -/

/-- R192 steps 1 to 3, before the normality of the sources is taken. -/
def State.restarted (readings : StartReadings) (s : State) : State := (s.bankActive.restartBlocks readings).restartTables

/-- R47, R55: whether a start-up finds a cashbox removed that the accounts region says was there. -/
def State.removedMeanwhile (readings : StartReadings) (s : State) : Bool :=
  !s.defaulted readings .accounts && s.comp.presence = .present && readings.presence = .absent

/-- R191: what the accounts region keeps of a source's record. -/
def State.kept (readings : StartReadings) (s : State) (src : Source) : Option ConditionRecord :=
  if s.defaulted readings .accounts then none else s.record src

section
variable (readings : StartReadings) (s : State)

theorem State.conditioned_startTables : (s.restarted readings).Conditioned (s.startTables readings) :=
  State.conditioned_takeNormality _

theorem State.startTables_session : (s.startTables readings).session = .startUp := by
  obtain ⟨_, _, _, _, _, _, h⟩ := State.conditioned_startTables readings s
  rw [h]
  rfl

theorem State.startTables_comp : (s.startTables readings).comp = s.comp.restart (s.defaulted readings .accounts) := by
  obtain ⟨_, _, _, _, _, _, h⟩ := State.conditioned_startTables readings s
  rw [h]
  rfl

theorem State.startTables_settings : (s.startTables readings).settings =
    if s.defaulted readings .settings then .initial else s.settings := by
  obtain ⟨_, _, _, _, _, _, h⟩ := State.conditioned_startTables readings s
  rw [h]
  rfl

theorem State.startTables_clock : (s.startTables readings).clock =
    (s.clock.restart s.now (s.defaulted readings .bands) (s.defaulted readings .clock)).formBand := by
  obtain ⟨_, _, _, _, _, _, h⟩ := State.conditioned_startTables readings s
  rw [h]
  rfl

theorem StationClock.restart_unset (now : Nat) (bandsLost clockLost : Bool) (c : StationClock) :
    (c.restart now bandsLost clockLost).unset = clockLost := by
  cases bandsLost <;> cases clockLost <;> rfl

theorem State.startTables_unset : (s.startTables readings).clock.unset = s.defaulted readings .clock := by
  rw [State.startTables_clock]
  exact StationClock.restart_unset ..

theorem State.removedAtStart_startTables : (s.startTables readings).removedAtStart readings = s.removedMeanwhile readings := by
  rw [State.removedAtStart, State.startTables_comp, State.removedMeanwhile]
  cases s.defaulted readings .accounts <;> simp [Compartment.restart]

theorem ConditionRecord.uncounted_bank (now : Nat) (r : ConditionRecord) : (r.bank now).uncounted = r.uncounted :=
  ConditionRecord.uncounted_recount ..

theorem State.entry_restarted (src : Source) :
    (s.restarted readings).entry src = (s.kept readings src).map ConditionRecord.uncounted := by
  have hrecord : (s.restarted readings).record src = (s.kept readings src).map (ConditionRecord.bank s.now) := by
    have hkept : (s.restarted readings).record src =
        (if s.defaulted readings .accounts then Vector.replicate 22 none
          else s.sup.records.map fun r => r.map (ConditionRecord.bank s.now))[src.idx] := rfl
    rw [hkept, State.kept]
    cases s.defaulted readings .accounts
    · simp [State.record]
    · simp
  rw [State.entry, hrecord, Option.map_map]
  exact congrArg (Option.map · _) (funext fun r => ConditionRecord.uncounted_bank ..)

theorem State.entry_startTables (src : Source) :
    (s.startTables readings).entry src = (s.kept readings src).map ConditionRecord.uncounted :=
  (State.entry_takeNormality ..).trans (State.entry_restarted ..)

/-- R170: whether a source has a retained record that is active. -/
def State.keptActive (readings : StartReadings) (s : State) (src : Source) : Bool :=
  (s.kept readings src).any fun r => r.state ≠ .cleared

/-- R170: the normality of the sources that start-up takes from what is retained. -/
def State.retainedAbnormal (readings : StartReadings) (s : State) : Source → Bool
  | .coinPath | .collectGate | .refundGate | .returnCup | .keypad | .retention => false
  | .coinSlot => s.keptActive readings .coinSlot
  | .line => s.keptActive readings .line
  | .dialtone => s.keptActive readings .dialtone
  | .input i => s.keptActive readings (.input i)
  | .clock => s.defaulted readings .clock
  | .collection => !s.defaulted readings .accounts && s.comp.closedTally.isSome
  | .compartment | .cashboxNear | .cashboxFull => false

theorem State.recordActive_restarted (src : Source) : (s.restarted readings).recordActive src = s.keptActive readings src := by
  rw [State.recordActive_eq, State.entry_restarted, State.keptActive]
  cases s.kept readings src <;> rfl

theorem State.normal_startTables (src : Source) :
    (s.startTables readings).normal src = !s.retainedAbnormal readings src := by
  have htaken : (s.startTables readings).normal src = !(s.restarted readings).startAbnormal src := State.normal_takeNormality ..
  have hunset : (s.restarted readings).clock.unset = s.defaulted readings .clock := StationClock.restart_unset ..
  have hclosed : (s.restarted readings).comp.closedTally.isSome =
      (!s.defaulted readings .accounts && s.comp.closedTally.isSome) := by
    have hcomp : (s.restarted readings).comp = s.comp.restart (s.defaulted readings .accounts) := rfl
    rw [hcomp]
    cases s.defaulted readings .accounts <;> rfl
  rw [htaken]
  cases src <;> simp only [State.startAbnormal, State.retainedAbnormal, State.recordActive_restarted, hunset, hclosed]

theorem TariffRecord.filterMap_released (records : List TariffRecord) : records.filterMap TariffRecord.released =
    (records.filter (fun r => r.state ≠ .retiring)).map (fun r => { r with pinned := false }) := by
  induction records with
  | nil => rfl
  | cons r rest ih =>
    by_cases h : r.state = .retiring
    · rw [List.filterMap_cons_none (by simp [TariffRecord.released, h]), ih]
      simp [h]
    · rw [List.filterMap_cons_some (by simp [TariffRecord.released, h]; rfl), ih]
      simp [h]

/-- R76: the tariff table that start-up leaves. -/
def State.tableStarted (readings : StartReadings) (s : State) : TariffTable :=
  { base := if s.defaulted readings .tariff then .regionDefault else s.tariff.staging.getD s.tariff.base
    basePinned := false, staging := none
    records := if s.defaulted readings .tariff then [] else evaluate (s.startTables readings).clock.time.toMinute
      ((s.tariff.records.filter (fun r => r.state ≠ .retiring)).map (fun r => { r with pinned := false })) }

theorem State.startTables_tariff : (s.startTables readings).tariff = s.tableStarted readings := by
  have htime : (s.startTables readings).clock.time = (s.bankActive.restartBlocks readings).clock.time := by
    rw [State.startTables_clock]
    rfl
  have htable : (s.startTables readings).tariff =
      { (s.bankActive.restartBlocks readings).tariff.releaseAll with
        records := evaluate (s.bankActive.restartBlocks readings).clock.time.toMinute
          (s.bankActive.restartBlocks readings).tariff.releaseAll.records } := by
    obtain ⟨_, _, _, _, _, _, h⟩ := State.conditioned_startTables readings s
    rw [h]
    rfl
  have hregion : (s.bankActive.restartBlocks readings).tariff =
      if s.defaulted readings .tariff then .regionDefault else s.tariff := rfl
  rw [htable, hregion, State.tableStarted, htime]
  cases s.defaulted readings .tariff
  · simp [TariffTable.releaseAll, TariffRecord.filterMap_released]
  · rfl

/-! ### The compartment as start-up finds it (step 4) -/

/-- R47, R55, R191: the compartment's readings and tallies, before the retained B is forfeited. -/
def State.compartmentFound (readings : StartReadings) (s : State) : Compartment :=
  { door := readings.door, key := readings.key, presence := readings.presence
    generation := if s.removedMeanwhile readings then 1 else 0
    current := if s.removedMeanwhile readings || s.defaulted readings .accounts then Tally.zero else s.comp.current
    closedTally :=
      if s.removedMeanwhile readings then some (match s.comp.closedTally with
        | none =>
          { figures := s.comp.current, forced := readings.key ≠ .collect, merged := false, changed := false, withheld := false }
        | some x =>
          { figures := x.figures.merge s.comp.current, forced := x.forced || readings.key ≠ .collect, merged := true
            changed := true, withheld := false })
      else if s.defaulted readings .accounts then none else s.comp.closedTally }

theorem State.readingsTaken_comp :
    ((s.startTables readings).readingsTaken readings).comp = s.compartmentFound readings := by
  rw [State.readingsTaken, State.removedAtStart_startTables, State.compartmentFound]
  cases hremoved : s.removedMeanwhile readings
  · change (State.read readings _).comp = _
    rw [State.read, State.setComp_comp, State.startTables_comp]
    cases s.defaulted readings .accounts <;> rfl
  · have hkept : s.defaulted readings .accounts = false := by
      refine eq_false_of_ne_true fun hlost => ?_
      simp [State.removedMeanwhile, hlost] at hremoved
    change (State.read readings _).comp.close (State.read readings _).comp.forcedNow = _
    rw [State.read, State.setComp_comp, State.startTables_comp, hkept, Compartment.close, Compartment.closure]
    obtain ⟨door, key, presence, current, closedTally, generation⟩ := s.comp
    cases closedTally <;> rfl

theorem State.readingsTaken_eq (readings : StartReadings) (s : State) : s.readingsTaken readings = { s with
    comp := (s.readingsTaken readings).comp
    attention := { s.attention with
      flags := { s.attention.flags with tallyClosed := s.attention.flags.tallyClosed || s.removedAtStart readings } } } := by
  unfold State.readingsTaken
  cases s.removedAtStart readings
  · simp [State.read]
    rfl
  · simp [State.closed, State.read]

end

/-! ### The changes of steps 4 and 5 together -/

/-- R170: the inputs with the clear delays that start-up begins. -/
def State.delayedInputs (readings : StartReadings) (normal : Source → Bool) (s : State) : Vector SupervisedInput 8 :=
  Vector.ofFn fun i => s.sup.inputs[i].delayed s.now (normal (.input i)) readings.linesHigh[i]

section
variable {s : State} (h : s.session.decision = none)
include h

theorem State.conditioned_settled : s.Conditioned s.settled := by
  refine State.conditioned_makeChanges h fun f hf t ht => ?_
  obtain ⟨src, -, rfl⟩ := List.mem_map.1 hf
  exact State.conditioned_settleRecord ht src

theorem State.conditioned_retained (n : Nat) : s.Conditioned (s.retained n) := by
  refine State.conditioned_makeChanges h fun f hf t ht => ?_
  obtain rfl := List.eq_of_mem_replicate hf
  exact State.conditioned_retentionOccurrence ht

/-- What steps 4 and 5 change beside the condition table: the compartment, the inputs and two flags. -/
theorem State.conditionsStarted_eq (readings : StartReadings) (lost : Nat) :
    ∃ records abnormal level changed, s.conditionsStarted readings lost = { s with
      comp := (s.readingsTaken readings).comp
      sup :=
        { inputs := s.delayedInputs readings (s.startedNormal readings)
          records := records, abnormal := abnormal, level := level, levelSince := s.now }
      attention := { s.attention with flags := { s.attention.flags with
        conditionChanged := changed, levelChanged := false
        tallyClosed := s.attention.flags.tallyClosed || s.removedAtStart readings } } } := by
  obtain ⟨t, ht⟩ : ∃ t, s.compartmentStarted readings = t := ⟨_, rfl⟩
  have hstarted : (s.readingsTaken readings).Conditioned t := by
    rw [← ht]
    exact (((State.conditioned_takeReadings readings s).trans (State.conditioned_startForcedEntry ..)).trans
      (State.conditioned_startThreshold ..)).trans (State.conditioned_startThreshold ..)
  have hdelays : t.startClearDelays readings =
      t.setSup { t.sup with inputs := t.delayedInputs readings (s.startedNormal readings) } := by
    refine congrArg (fun inputs => t.setSup { t.sup with inputs := inputs }) ?_
    rw [State.delayedInputs, ← funext (State.normal_compartmentStarted readings · s), ht]
    rfl
  obtain ⟨u, hu⟩ : ∃ u, t.startClearDelays readings = u := ⟨_, rfl⟩
  have hdecision : u.session.decision = none := by
    rw [← hu]
    rw [State.readingsTaken_eq] at hstarted
    simpa using hstarted.decision.trans h
  have hlater : u.Conditioned (u.settled.retained lost).clockOccurrence :=
    have hsettled := State.conditioned_settled hdecision
    (hsettled.trans (State.conditioned_retained (hsettled.decision.trans hdecision) lost)).trans
      State.conditioned_clockOccurrence
  have hwhole : s.conditionsStarted readings lost = (u.settled.retained lost).clockOccurrence.holdLevel := by
    rw [State.conditionsStarted, ht, hu]
  rw [State.readingsTaken_eq] at hstarted
  rw [hwhole]
  rw [hdelays] at hu
  obtain ⟨_, _, _, _, _, _, hlater⟩ := hlater
  obtain ⟨_, _, _, _, _, _, rfl⟩ := hstarted
  rw [hlater, ← hu]
  exact ⟨_, _, _, _, rfl⟩

end

/-! ### What a start-up leaves (steps 6 to 9) -/

/-- R192: the state that a start-up leaves, with the supervision unit, the report unit and the flag of a changed condition
given. -/
def State.begun (readings : StartReadings) (sup : Supervision) (changed : Bool) (report : ReportUnit) (s : State) : State :=
  { pending := s.pending
    now := s.now
    supplies :=
      { main := true, backupLost := false, outcomeBackupHeld := !s.supplies.backupLost,
        outcomeFailed := s.failedRegions readings }
    coin := { CoinPath.startUp (if s.defaulted readings .escrow then [] else s.coin.column) with waiting := some ⟨true, false⟩ }
    credit := .startUp 0
    comp :=
      { s.compartmentFound readings with
        current := { (s.compartmentFound readings).current with
          forfeit := min 4294967295 ((s.compartmentFound readings).current.forfeit +
            (if s.defaulted readings .escrow then 0 else s.credit.banked)) } }
    tariff := s.tableStarted readings
    clock := (s.clock.restart s.now (s.defaulted readings .bands) (s.defaulted readings .clock)).formBand
    rating := .startUp
    line := .startUp
    session := .startUp
    sup := sup
    report := report
    settings := if s.defaulted readings .settings then .initial else s.settings
    attention := { flags := ⟨false, false, changed, false, false, s.removedMeanwhile readings, false, true⟩, mask := .none }
    hostPort := .startUp
    servicePort := .startUp }

/-- R55, R185: whether an ALARM is raised during start-up. -/
def State.startAlarm (readings : StartReadings) (s : State) : Bool :=
  forcedEntryAt readings || s.removedMeanwhile readings && readings.key ≠ .collect

/-- R185: the report unit as a start-up places it. -/
def ReportUnit.placed (outstanding alarm : Bool) (now : Nat) : ReportUnit :=
  if outstanding then
    { ReportUnit.startUp with state := .scheduled, timer := some (.running (now + if alarm then 0 else 120000)) }
  else .startUp

theorem State.fullStart_begun (readings : StartReadings) (s : State) : ∃ changed,
    let sup := ((s.startTables readings).conditionsStarted readings (s.retentionCount readings)).sup
    let t := s.begun readings sup changed .startUp
    sup.inputs = (s.startTables readings).delayedInputs readings ((s.startTables readings).startedNormal readings) ∧
      s.fullStart readings =
        s.begun readings sup changed (ReportUnit.placed t.anyOutstanding (s.startAlarm readings) s.now) := by
  obtain ⟨b, hb⟩ : ∃ b, s.startTables readings = b := ⟨_, rfl⟩
  have hdecision : b.session.decision = none := by
    rw [← hb, State.startTables_session]
    rfl
  obtain ⟨records, abnormal, level, changed, hstarted⟩ :=
    State.conditionsStarted_eq hdecision readings (s.retentionCount readings)
  have halarm : b.alarmAtStart readings = s.startAlarm readings := by
    rw [State.alarmAtStart, ← hb, State.removedAtStart_startTables]
    rfl
  have hcomp : (b.readingsTaken readings).comp = s.compartmentFound readings := hb ▸ State.readingsTaken_comp readings s
  have hremoved : b.removedAtStart readings = s.removedMeanwhile readings := hb ▸ State.removedAtStart_startTables readings s
  have htariff : b.tariff = s.tableStarted readings := hb ▸ State.startTables_tariff readings s
  rw [hcomp, hremoved] at hstarted
  refine ⟨changed, ?_, ?_⟩
  · rw [hb, hstarted]
  · have hplaced : (((b.conditionsStarted readings (s.retentionCount readings)).addStartForfeit.clearBanked).requestRefund
        true false) = { s.begun readings (b.conditionsStarted readings (s.retentionCount readings)).sup changed .startUp with
          attention :=
            { flags := ⟨false, false, changed, false, false, s.removedMeanwhile readings, false, false⟩, mask := .none } } := by
      have hconditioned := State.conditioned_startTables readings s
      rw [hb] at hconditioned
      obtain ⟨_, _, _, _, _, _, hform⟩ := hconditioned
      rw [hstarted, State.requestRefund_eq, htariff]
      generalize b.delayedInputs readings (b.startedNormal readings) = inputs
      rw [hform]
      rfl
    rw [State.fullStart, hb, State.makeChanges_startChanges_eq]
    rw [hplaced, halarm]
    generalize (b.conditionsStarted readings (s.retentionCount readings)).sup = sup
    have hout : ({ s.begun readings sup changed .startUp with
        attention :=
          { flags := ⟨false, false, changed, false, false, s.removedMeanwhile readings, false, false⟩
            mask := .none } } : State).anyOutstanding = (s.begun readings sup changed .startUp).anyOutstanding := rfl
    rw [State.startReport, hout, ReportUnit.placed]
    cases (s.begun readings sup changed .startUp).anyOutstanding <;> rfl

end Sys2Proof.Machine
end

/-! ## The records that a start-up leaves (R170, R191) -/

section
namespace Sys2Proof.Machine

/-! ### Occurrences counted -/

/-- A record that a number of occurrences of a source has left, from what the source had before. -/
structure ConditionRecord.RaisedBy (src : Source) (now : ClockTime) (n : Nat) (before : Option ConditionRecord)
    (r : ConditionRecord) : Prop where
  raises : src.raises r.type r.severity = true
  state : r.state = .raised
  lastChange : r.lastChange = now
  count : (∀ b, before = some b → b.count ≤ 255) → r.count = min 255 (before.elim 0 ConditionRecord.count + n)

theorem raisedBy_occurs {src : Source} {type : ConditionType} {severity : Severity} (h : src.raises type severity = true)
    (now : ClockTime) (e : Option ConditionRecord) : (occurs type severity now e).RaisedBy src now 1 e := by
  cases e with
  | none => exact ⟨h, rfl, rfl, fun _ => rfl⟩
  | some r =>
    refine ⟨h, rfl, rfl, fun hbound => ?_⟩
    have hcount := hbound r rfl
    change (if r.count < 255 then r.count + 1 else 255) = min 255 (r.count + 1)
    split <;> omega

theorem ConditionRecord.RaisedBy.again {src : Source} {type : ConditionType} {severity : Severity} {now : ClockTime} {n : Nat}
    {e : Option ConditionRecord} {r : ConditionRecord} (hr : r.RaisedBy src now n e) (h : src.raises type severity = true) :
    (occurs type severity now (some r)).RaisedBy src now (n + 1) e := by
  refine ⟨h, rfl, rfl, fun hbound => ?_⟩
  have hcount := hr.count hbound
  change (if r.count < 255 then r.count + 1 else 255) = _
  split <;> omega

theorem latched_occurs_alarm (src : Source) (type : ConditionType) (now : ClockTime) (e : Option ConditionRecord) :
    latched src (occurs type .alarm now e) = true := by
  cases e <;> rfl

/-- A record raised that latches, or whose source is abnormal, loses its snapshot alone. -/
theorem ConditionRecord.settled_of_raised {src : Source} {normal enabled : Bool} {now : ClockTime} {r : ConditionRecord}
    (hraised : r.state = .raised) (h : latched src r = true ∨ normal = false) :
    r.settled src normal enabled now = some { r with snapshot := none } := by
  have hkept : ¬ (r.state ≠ .cleared ∧ latched src r = false ∧ normal = true) := by
    rintro ⟨-, hunlatched, hnormal⟩
    obtain h | h := h
    · simp [h] at hunlatched
    · simp [h] at hnormal
  rw [ConditionRecord.settled, if_neg, if_neg hkept]
  rintro ⟨hclears | hcleared, -⟩
  · exact hkept hclears
  · simp [hraised] at hcleared

/-- R165, R170: what the settling of a record leaves of it but for its state. -/
theorem ConditionRecord.settled_some {src : Source} {normal enabled : Bool} {now : ClockTime} {r r' : ConditionRecord}
    (h : r.settled src normal enabled now = some r') : r'.snapshot = none ∧ r'.count = r.count := by
  unfold ConditionRecord.settled at h
  dsimp only at h
  (repeat' split at h) <;> cases h <;> exact ⟨rfl, rfl⟩

theorem ConditionRecord.settled_of_enabled (src : Source) (normal : Bool) (now : ClockTime) (r : ConditionRecord) :
    ∃ r', r.settled src normal true now = some r' := by
  rw [ConditionRecord.settled, if_neg (by simp)]
  split <;> exact ⟨_, rfl⟩

/-! ### RETENTION, which clears at once (R161, R191) -/

theorem retentionEntry_of_disabled {now : ClockTime} {e : Option ConditionRecord}
    (h : ∀ r, e = some r → r.snapshot = none) : retentionEntry false now e = none := by
  cases e with
  | none => rfl
  | some r =>
    have hsnapshot := h r rfl
    simp [retentionEntry, occurs, ConditionRecord.clearedBy, ConditionRecord.occur, ConditionRecord.active, latched, hsnapshot]

theorem retentionEntry_of_enabled (now : ClockTime) (e : Option ConditionRecord) : retentionEntry true now e =
    some { occurs .retentionLost .notice now e with state := .cleared, lastChange := now } := by
  cases e <;> simp [retentionEntry, occurs, ConditionRecord.clearedBy, ConditionRecord.occur, ConditionRecord.create,
    ConditionRecord.active, latched]

/-- A RETENTION record that a number of occurrences, each cleared at once, has left. -/
structure ConditionRecord.RetainedBy (now : ClockTime) (n : Nat) (before : Option ConditionRecord) (r : ConditionRecord) :
    Prop where
  raises : Source.retention.raises r.type r.severity = true
  state : r.state = .cleared
  lastChange : r.lastChange = now
  count : (∀ b, before = some b → b.count ≤ 255) → r.count = min 255 (before.elim 0 ConditionRecord.count + n)
  snapshot : (∀ b, before = some b → b.snapshot = none) → r.snapshot = none

theorem snapshot_occurs {type : ConditionType} {severity : Severity} {now : ClockTime} {e : Option ConditionRecord}
    (h : ∀ b, e = some b → b.snapshot = none) : (occurs type severity now e).snapshot = none := by
  cases e with
  | none => rfl
  | some r => exact h r rfl

/-- The last of a number of occurrences, taken apart. -/
theorem retentionEntries_succ_last (enabled : Bool) (now : ClockTime) (n : Nat) (e : Option ConditionRecord) :
    retentionEntries enabled now (n + 1) e = retentionEntry enabled now (retentionEntries enabled now n e) := by
  induction n generalizing e with
  | zero => rfl
  | succ n ih => exact ih _

theorem retentionEntries_enabled (now : ClockTime) (n : Nat) (e : Option ConditionRecord) :
    ∃ r, retentionEntries true now (n + 1) e = some r ∧ r.RetainedBy now (n + 1) e := by
  have honce (x : Option ConditionRecord) : (occurs .retentionLost .notice now x).RaisedBy .retention now 1 x :=
    raisedBy_occurs rfl now x
  induction n with
  | zero =>
    obtain ⟨hraises, -, -, hcount⟩ := honce e
    exact ⟨_, retentionEntry_of_enabled now e, hraises, rfl, rfl, hcount, snapshot_occurs⟩
  | succ n ih =>
    obtain ⟨r, hr, hretained⟩ := ih
    obtain ⟨hraises, -, -, hcount⟩ := honce (some r)
    refine ⟨_, (retentionEntries_succ_last ..).trans ((congrArg _ hr).trans (retentionEntry_of_enabled now _)), hraises, rfl, rfl,
      fun hbound => ?_, fun hnone => snapshot_occurs (by simpa using hretained.snapshot hnone)⟩
    have hbefore := hretained.count hbound
    refine (hcount (by simp [hbefore, Nat.min_le_left])).trans ?_
    rw [Option.elim_some, hbefore]
    omega

theorem retentionEntries_disabled {now : ClockTime} {e : Option ConditionRecord}
    (h : ∀ r, e = some r → r.snapshot = none) (n : Nat) : retentionEntries false now (n + 1) e = none := by
  induction n generalizing e with
  | zero => exact retentionEntry_of_disabled h
  | succ n ih =>
    rw [retentionEntries_succ, retentionEntry_of_disabled h]
    exact ih (by simp)

/-! ### How often start-up raises a source (R46, R47, R55, R80, R191) -/

/-- How many occurrences of a source a start-up raises. -/
def State.startOccurrences (readings : StartReadings) (lost : Nat) (s : State) : Source → Nat
  | .collection => if s.removedAtStart readings then 1 else 0
  | .compartment => (if s.forcedAtStart readings then 1 else 0) + if forcedEntryAt readings then 1 else 0
  | .cashboxNear => if s.settings.near ≤ (s.readingsTaken readings).comp.current.totalCoins &&
      !(s.entry .cashboxNear).any ConditionRecord.active then 1 else 0
  | .cashboxFull => if s.settings.full ≤ (s.readingsTaken readings).comp.current.totalCoins &&
      !(s.entry .cashboxFull).any ConditionRecord.active then 1 else 0
  | .retention => lost
  | .clock => if s.clock.unset then 1 else 0
  | _ => 0

theorem eq_true_of_one_pos {b : Bool} (h : 0 < if b then 1 else 0) : b = true := by
  cases b
  · simp at h
  · rfl

theorem occursIf_false (type : ConditionType) (severity : Severity) (now : ClockTime) (e : Option ConditionRecord) :
    occursIf type severity now false e = e := rfl

section
variable {readings : StartReadings} {lost : Nat} {s : State} {src : Source}

/-- R170: a source with no occurrence has its record settled. -/
theorem State.restartedEntry_of_quiet (h : s.startOccurrences readings lost src = 0) :
    s.restartedEntry readings lost src =
      (s.entry src).bind (ConditionRecord.settled src (s.startedNormal readings src) (s.reportEnabled src) s.clock.time) := by
  cases src
  case collection =>
    have hnone : s.removedAtStart readings = false := by simpa [State.startOccurrences] using h
    simp [State.restartedEntry, State.settledEntry, State.startedEntry, hnone, occursIf_false]
  case compartment =>
    obtain ⟨hforced, hentry⟩ : s.forcedAtStart readings = false ∧ forcedEntryAt readings = false := by
      simpa [State.startOccurrences] using h
    simp [State.restartedEntry, State.settledEntry, State.startedEntry, hforced, hentry, occursIf_false]
  case cashboxNear =>
    have hnone : (decide (s.settings.near ≤ (s.readingsTaken readings).comp.current.totalCoins) &&
        !(s.entry .cashboxNear).any ConditionRecord.active) = false := by
      simpa only [State.startOccurrences, ite_eq_right_iff, Nat.one_ne_zero, imp_false, Bool.not_eq_true] using h
    rw [State.restartedEntry, if_neg (by decide), if_neg (by decide), State.settledEntry, State.startedEntry, hnone]
    rfl
  case cashboxFull =>
    have hnone : (decide (s.settings.full ≤ (s.readingsTaken readings).comp.current.totalCoins) &&
        !(s.entry .cashboxFull).any ConditionRecord.active) = false := by
      simpa only [State.startOccurrences, ite_eq_right_iff, Nat.one_ne_zero, imp_false, Bool.not_eq_true] using h
    rw [State.restartedEntry, if_neg (by decide), if_neg (by decide), State.settledEntry, State.startedEntry, hnone]
    rfl
  case retention =>
    obtain rfl : lost = 0 := h
    rfl
  case clock =>
    have hset : s.clock.unset = false := by simpa [State.startOccurrences] using h
    simp [State.restartedEntry, State.settledEntry, State.startedEntry, hset, occursIf_false]
  all_goals simp [State.restartedEntry, State.settledEntry, State.startedEntry]

/-- A source that start-up raises before the records are settled keeps what the occurrences left, but for a snapshot. -/
theorem State.restartedEntry_of_started {r : ConditionRecord} (hretention : src ≠ .retention) (hclock : src ≠ .clock)
    (hstarted : s.startedEntry readings src (s.entry src) = some r) {n : Nat}
    (hraised : r.RaisedBy src s.clock.time n (s.entry src))
    (hkept : latched src r = true ∨ s.startedNormal readings src = false) :
    ∃ r', s.restartedEntry readings lost src = some r' ∧ r'.snapshot = none ∧
      r'.RaisedBy src s.clock.time n (s.entry src) := by
  refine ⟨{ r with snapshot := none }, ?_, rfl, hraised.raises, hraised.state, hraised.lastChange, hraised.count⟩
  rw [State.restartedEntry, if_neg hretention, if_neg hclock, State.settledEntry, hstarted, Option.bind_some]
  exact ConditionRecord.settled_of_raised hraised.state hkept

/-- R47, R55: what a source whose occurrences start-up raises before the records are settled has. -/
theorem State.restartedEntry_of_raised (hraised : 0 < s.startOccurrences readings lost src) (hretention : src ≠ .retention)
    (hclock : src ≠ .clock) : ∃ r, s.restartedEntry readings lost src = some r ∧ r.snapshot = none ∧
      r.RaisedBy src s.clock.time (s.startOccurrences readings lost src) (s.entry src) := by
  cases src
  case collection =>
    have hremoved : s.removedAtStart readings = true := eq_true_of_one_pos hraised
    have hcount : s.startOccurrences readings lost .collection = 1 := if_pos hremoved
    rw [hcount]
    exact State.restartedEntry_of_started (by decide) (by decide) (by rw [State.startedEntry, hremoved]; rfl)
      (raisedBy_occurs rfl ..) (.inr (by simp [State.startedNormal, hremoved]))
  case compartment =>
    have honce (e : Option ConditionRecord) : (occurs .compartmentForced .alarm s.clock.time e).RaisedBy .compartment
        s.clock.time 1 e := raisedBy_occurs rfl ..
    cases hforced : s.forcedAtStart readings <;> cases hentry : forcedEntryAt readings <;>
      simp only [State.startOccurrences, hforced, hentry] at hraised ⊢
    · simp at hraised
    · exact State.restartedEntry_of_started (by decide) (by decide)
        (by rw [State.startedEntry, hforced, hentry]; rfl) (honce _) (.inl (latched_occurs_alarm ..))
    · exact State.restartedEntry_of_started (by decide) (by decide)
        (by rw [State.startedEntry, hforced, hentry]; rfl) (honce _) (.inl (latched_occurs_alarm ..))
    · exact State.restartedEntry_of_started (by decide) (by decide)
        (by rw [State.startedEntry, hforced, hentry]; rfl) ((honce _).again rfl)
        (.inl (latched_occurs_alarm ..))
  case cashboxNear =>
    have hoccurs := eq_true_of_one_pos hraised
    have hreached := (Bool.and_eq_true_iff.1 hoccurs).1
    rw [State.startOccurrences, if_pos hoccurs]
    exact State.restartedEntry_of_started (by decide) (by decide) (by rw [State.startedEntry, hoccurs]; rfl)
      (raisedBy_occurs rfl ..) (.inr (by rw [State.startedNormal, hreached]; simp))
  case cashboxFull =>
    have hoccurs := eq_true_of_one_pos hraised
    have hreached := (Bool.and_eq_true_iff.1 hoccurs).1
    rw [State.startOccurrences, if_pos hoccurs]
    exact State.restartedEntry_of_started (by decide) (by decide) (by rw [State.startedEntry, hoccurs]; rfl)
      (raisedBy_occurs rfl ..) (.inr (by rw [State.startedNormal, hreached]; simp))
  case retention => exact absurd rfl hretention
  case clock => exact absurd rfl hclock
  all_goals exact absurd hraised (Nat.lt_irrefl 0)

/-- R191: what RETENTION has after the occurrences of a start-up. -/
theorem State.restartedEntry_retention (hlost : 0 < lost) :
    (s.reportEnabled .retention = false → s.restartedEntry readings lost .retention = none) ∧
      (s.reportEnabled .retention = true → ∃ r, s.restartedEntry readings lost .retention = some r ∧ r.snapshot = none ∧
        r.RetainedBy s.clock.time lost (s.entry .retention)) := by
  obtain ⟨n, rfl⟩ := Nat.exists_eq_succ_of_ne_zero (Nat.ne_of_gt hlost)
  have hsnapshot (r : ConditionRecord) (h : s.settledEntry readings .retention = some r) : r.snapshot = none := by
    obtain ⟨old, -, hsettled⟩ := Option.bind_eq_some_iff.1 h
    exact (ConditionRecord.settled_some hsettled).1
  rw [State.restartedEntry, if_pos rfl]
  constructor
  · intro hdisabled
    rw [hdisabled]
    exact retentionEntries_disabled hsnapshot n
  · intro henabled
    rw [henabled]
    obtain ⟨r, hr, hraises, hstate, hlast, hcount, hnone⟩ :=
      retentionEntries_enabled s.clock.time n (s.settledEntry readings .retention)
    refine ⟨r, hr, hnone hsnapshot, hraises, hstate, hlast, fun hbound => ?_, fun _ => hnone hsnapshot⟩
    have hsettled : s.settledEntry readings .retention = (s.entry .retention).bind
        (ConditionRecord.settled .retention (s.startedNormal readings .retention) true s.clock.time) := by
      rw [← henabled]
      rfl
    rw [hsettled] at hcount
    cases hbefore : s.entry .retention with
    | none => simpa [hbefore] using hcount
    | some old =>
      obtain ⟨kept, hkept⟩ := ConditionRecord.settled_of_enabled .retention (s.startedNormal readings .retention) s.clock.time old
      have hcounts := (ConditionRecord.settled_some hkept).2
      simpa [hbefore, hkept, hcounts, hbound old hbefore] using hcount

/-- R80, R88: what CLOCK has after the occurrence of a lost time. -/
theorem State.restartedEntry_clock (hunset : s.clock.unset = true) :
    ∃ r, s.restartedEntry readings lost .clock = some r ∧ r.snapshot = none ∧
      r.RaisedBy .clock s.clock.time 1 (s.settledEntry readings .clock) := by
  refine ⟨_, ?_, snapshot_occurs fun r h => ?_, raisedBy_occurs (type := .clockUnset) (severity := .notice) rfl ..⟩
  · rw [State.restartedEntry, if_neg (by decide), if_pos rfl, hunset]
    rfl
  · obtain ⟨old, -, hsettled⟩ := Option.bind_eq_some_iff.1 h
    exact (ConditionRecord.settled_some hsettled).1

end

/-! ### The start-up as a whole -/

theorem exec_mainSupplyStart (readings : StartReadings) (s : State) :
    exec (.mainSupplyStart readings) s = .next (s.startUp readings) := rfl

theorem State.startUp_of_whole {readings : StartReadings} (h : readings.cut = none) (s : State) :
    s.startUp readings = s.fullStart readings := by
  rw [State.startUp, h]

theorem StationClock.schedule_restart (now : Nat) (bandsLost clockLost : Bool) (c : StationClock) (day : DayType) :
    (c.restart now bandsLost clockLost).schedule day = if bandsLost then [⟨0, 0⟩] else c.schedule day := by
  cases bandsLost <;> cases clockLost <;> cases day <;> rfl

theorem StationClock.restart_eq (now : Nat) (bandsLost clockLost : Bool) (c : StationClock) :
    (c.restart now bandsLost clockLost).time = (if clockLost then ⟨⟨2000, 1, 1⟩, 0, 0, 0⟩ else c.time) ∧
      (c.restart now bandsLost clockLost).weekday = (if clockLost then .saturday else c.weekday) ∧
      (c.restart now bandsLost clockLost).holidays = if bandsLost then [] else c.holidays := by
  cases bandsLost <;> cases clockLost <;> exact ⟨rfl, rfl, rfl⟩

/-! ### The record of a source with no occurrence, and of one with some -/

section
variable {t : State} {src : Source}

theorem State.record_of_entry_none (h : t.entry src = none) : t.record src = none := Option.map_eq_none_iff.1 h

theorem State.record_of_entry_some {e : ConditionRecord} (h : t.entry src = some e) :
    ∃ r, t.record src = some r ∧ r.uncounted = e := Option.map_eq_some_iff.1 h

/-- R165, R170: a retained record settled, read off the record. -/
theorem State.record_settled {r : ConditionRecord} {abnormal enabled : Bool} {now : ClockTime}
    (h : t.entry src = r.uncounted.settled src (!abnormal) enabled now) :
    let clears := r.state ≠ .cleared ∧
      ¬ (r.severity = .alarm ∨ src = .collectGate ∨ src = .refundGate ∨ src = .coinPath) ∧ abnormal = false
    let retires := (clears ∨ r.state = .cleared) ∧ enabled = false
    (retires → t.record src = none) ∧
    (¬ retires → ∃ r', t.record src = some r' ∧ r'.snapshot = none ∧ r'.type = r.type ∧ r'.severity = r.severity ∧
      r'.count = r.count ∧ r'.acked = r.acked ∧ r'.firstRaised = r.firstRaised ∧
      (clears → r'.state = .cleared ∧ r'.lastChange = now) ∧
      (¬ clears → r'.state = r.state ∧ r'.lastChange = r.lastChange)) := by
  intro clears retires
  have hclears : (r.uncounted.state ≠ .cleared ∧ latched src r.uncounted = false ∧ (!abnormal) = true) ↔ clears := by
    rw [← Bool.not_eq_true, latched_eq_true_iff, Bool.not_eq_true']
    exact Iff.rfl
  unfold ConditionRecord.settled at h
  simp only [hclears] at h
  refine ⟨fun hretires => State.record_of_entry_none (h.trans (if_pos hretires)), fun hkept => ?_⟩
  replace h := h.trans (if_neg hkept)
  by_cases hc : clears
  · obtain ⟨r', hr', heq⟩ := State.record_of_entry_some (h.trans (if_pos hc))
    refine ⟨r', hr', ?_⟩
    obtain ⟨_, _, _, _, _, _, _, _, _, _⟩ := r'
    cases heq
    exact ⟨rfl, rfl, rfl, rfl, rfl, rfl, fun _ => ⟨rfl, rfl⟩, fun hno => absurd hc hno⟩
  · obtain ⟨r', hr', heq⟩ := State.record_of_entry_some (h.trans (if_neg hc))
    refine ⟨r', hr', ?_⟩
    obtain ⟨_, _, _, _, _, _, _, _, _, _⟩ := r'
    cases heq
    exact ⟨rfl, rfl, rfl, rfl, rfl, rfl, fun hyes => absurd hyes hc, fun _ => ⟨rfl, rfl⟩⟩

theorem State.record_raised {now : ClockTime} {n before : Nat} {e : Option ConditionRecord} {r : ConditionRecord}
    (h : t.entry src = some r) (hsnapshot : r.snapshot = none) (hraised : r.RaisedBy src now n e)
    (hbound : ∀ b, e = some b → b.count ≤ 255) (hbefore : e.elim 0 ConditionRecord.count = before) :
    ∃ r', t.record src = some r' ∧ r'.snapshot = none ∧ src.raises r'.type r'.severity = true ∧ r'.lastChange = now ∧
      r'.count = min 255 (before + n) ∧ r'.state = .raised := by
  obtain ⟨hraises, hstate, hlast, hcount⟩ := hraised
  obtain ⟨r', hr', rfl⟩ := State.record_of_entry_some h
  exact ⟨r', hr', hsnapshot, hraises, hlast, hbefore ▸ hcount hbound, hstate⟩

end

/-- R80, R170: how often the record of CLOCK counts when a lost time is raised. -/
theorem State.settledEntry_clock {readings : StartReadings} {s : State} (hlost : s.defaulted readings .clock = true) :
    (s.startTables readings).settledEntry readings .clock = (s.kept readings .clock).bind fun r =>
      if r.state = .cleared ∧ (s.startTables readings).reportEnabled .clock = false then none
      else some { r.uncounted with snapshot := none } := by
  have hnormal : (s.startTables readings).startedNormal readings .clock = false := by
    change (s.startTables readings).normal .clock = false
    rw [State.normal_startTables, State.retainedAbnormal, hlost]
    rfl
  have hstarted (b : State) (e : Option ConditionRecord) : b.startedEntry readings .clock e = e := rfl
  rw [State.settledEntry, hnormal, hstarted, State.entry_startTables]
  cases s.kept readings .clock with
  | none => rfl
  | some r =>
    rw [Option.map_some, Option.bind_some, Option.bind_some, ConditionRecord.settled]
    simp [ConditionRecord.uncounted]

theorem State.startTables_inputs (readings : StartReadings) (s : State) (i : Fin 8) :
    (s.startTables readings).sup.inputs[i] = s.sup.inputs[i].restart (s.defaulted readings .settings) := by
  obtain ⟨_, _, _, _, _, _, h⟩ := State.conditioned_startTables readings s
  rw [h]
  exact Vector.getElem_map ..

/-- R170: an input as start-up leaves it. -/
theorem SupervisedInput.delayed_restart (lost abnormal high : Bool) (now : Nat) (x : SupervisedInput) :
    let a : Assignment := if lost then SupervisedInput.unused.assignment else x.staged.getD x.assignment
    (x.restart lost).delayed now (!abnormal) high =
      { assignment := a, staged := none, active := false, windowEnds := none, edgeCount := 0, holdOffEnds := none
        clearFrom := if abnormal && a.inactiveAt high then some now else none } := by
  intro a
  have hrestart : x.restart lost = { SupervisedInput.unused with assignment := a } := by
    cases lost <;> rfl
  rw [hrestart, SupervisedInput.delayed]
  cases abnormal
  · rfl
  · cases a.inactiveAt high <;> simp [SupervisedInput.unused]

section
variable {readings : StartReadings} {s t : State} {n : Nat}

/-- R191: the record of RETENTION that the occurrences of a start-up leave. -/
theorem State.record_retention (hentry : t.entry .retention = (s.startTables readings).restartedEntry readings n .retention)
    (henabled : (s.startTables readings).reportEnabled .retention = t.reportEnabled .retention) (hlost : 0 < n)
    (hbound : ∀ r, s.kept readings .retention = some r → r.count ≤ 255) :
    (t.reportEnabled .retention = false → t.record .retention = none) ∧
      (t.reportEnabled .retention = true → ∃ r', t.record .retention = some r' ∧ r'.snapshot = none ∧
        Source.retention.raises r'.type r'.severity = true ∧ r'.lastChange = (s.startTables readings).clock.time ∧
        r'.count = min 255 ((s.kept readings .retention).elim 0 ConditionRecord.count + n) ∧ r'.state = .cleared) := by
  obtain ⟨hgone, hheld⟩ := State.restartedEntry_retention (s := s.startTables readings) (readings := readings) hlost
  rw [henabled, ← hentry] at hgone hheld
  refine ⟨fun hdisabled => State.record_of_entry_none (hgone hdisabled), fun henabled => ?_⟩
  obtain ⟨r, hr, hsnapshot, hraises, hstate, hlast, hcount, -⟩ := hheld henabled
  obtain ⟨r', hr', rfl⟩ := State.record_of_entry_some hr
  rw [State.entry_startTables] at hcount
  refine ⟨r', hr', hsnapshot, hraises, hlast, (hcount fun b hb => ?_).trans ?_, hstate⟩
  · obtain ⟨old, hold, rfl⟩ := Option.map_eq_some_iff.1 hb
    exact hbound old hold
  · cases s.kept readings .retention <;> rfl

/-- R80, R88: the record of CLOCK that the occurrence of a lost time leaves. -/
theorem State.record_clock (hentry : t.entry .clock = (s.startTables readings).restartedEntry readings n .clock)
    (henabled : (s.startTables readings).reportEnabled .clock = t.reportEnabled .clock)
    (hlost : s.defaulted readings .clock = true) (hbound : ∀ r, s.kept readings .clock = some r → r.count ≤ 255) :
    ∃ r', t.record .clock = some r' ∧ r'.snapshot = none ∧ Source.clock.raises r'.type r'.severity = true ∧
      r'.lastChange = (s.startTables readings).clock.time ∧
      r'.count = min 255 ((s.kept readings .clock).elim 0 (fun r =>
        if r.state = .cleared ∧ t.reportEnabled .clock = false then 0 else r.count) + 1) ∧ r'.state = .raised := by
  have hsettled := State.settledEntry_clock hlost
  rw [henabled] at hsettled
  obtain ⟨r, hr, hsnapshot, hraised⟩ :=
    State.restartedEntry_clock (readings := readings) (lost := n) ((State.startTables_unset readings s).trans hlost)
  refine State.record_raised (hentry.trans hr) hsnapshot hraised (fun b hb => ?_) ?_
  · obtain ⟨old, hold, hcounted⟩ := Option.bind_eq_some_iff.1 (hsettled.symm.trans hb)
    obtain ⟨-, hb⟩ := Option.ite_none_left_eq_some.1 hcounted
    exact Option.some.inj hb ▸ hbound old hold
  · rw [hsettled]
    cases s.kept readings .clock with
    | none => rfl
    | some old =>
      rw [Option.bind_some, Option.elim_some]
      split <;> rfl

end

theorem State.retentionCount_eq (readings : StartReadings) (s : State) : s.retentionCount readings =
    if s.supplies.backupLost then 1 else (Region.all.filter (fun r => r ∈ readings.failed)).length := by
  rw [State.retentionCount, State.failedRegions]
  cases s.supplies.backupLost <;> rfl

/-! ### What start-up finds abnormal, and raises (R46, R55, R170, R191) -/

/-- R170: what is abnormal after a start-up of `s` that leaves `t`. -/
def State.foundAbnormal (readings : StartReadings) (s t : State) : Source → Bool
  | .coinPath | .collectGate | .refundGate | .returnCup | .keypad | .retention => false
  | .coinSlot => s.keptActive readings .coinSlot
  | .line => s.keptActive readings .line
  | .dialtone => s.keptActive readings .dialtone
  | .input i => s.keptActive readings (.input i)
  | .clock => s.defaulted readings .clock
  | .collection => t.comp.closedTally.isSome
  | .compartment => readings.door = .opened
  | .cashboxNear => t.settings.near ≤ t.comp.current.totalCoins
  | .cashboxFull => t.settings.full ≤ t.comp.current.totalCoins

/-- R46, R47, R55, R80, R191: how often a start-up of `s` that leaves `t` raises a source. -/
def State.foundRaised (readings : StartReadings) (s t : State) : Source → Nat
  | .collection => if s.removedMeanwhile readings then 1 else 0
  | .compartment => (if s.removedMeanwhile readings && readings.key ≠ .collect then 1 else 0) +
      if forcedEntryAt readings then 1 else 0
  | .cashboxNear =>
    if s.foundAbnormal readings t .cashboxNear && !s.keptActive readings .cashboxNear then 1 else 0
  | .cashboxFull =>
    if s.foundAbnormal readings t .cashboxFull && !s.keptActive readings .cashboxFull then 1 else 0
  | .retention => s.retentionCount readings
  | .clock => if s.defaulted readings .clock then 1 else 0
  | _ => 0

section
variable {readings : StartReadings} {s t : State} (hsettings : t.settings = (s.startTables readings).settings)
  (hclosed : t.comp.closedTally = (s.compartmentFound readings).closedTally)
  (hcoins : t.comp.current.totalCoins = (s.compartmentFound readings).current.totalCoins)
include hsettings hclosed hcoins

theorem State.startedNormal_startTables (src : Source) :
    (s.startTables readings).startedNormal readings src = !s.foundAbnormal readings t src := by
  cases src <;> simp only [State.startedNormal, State.foundAbnormal, State.normal_startTables, State.retainedAbnormal,
    State.removedAtStart_startTables, State.readingsTaken_comp, hsettings, hcoins, Bool.not_false, Bool.true_and]
  case collection =>
    rw [hclosed, State.compartmentFound]
    cases s.removedMeanwhile readings <;> cases s.defaulted readings .accounts <;> simp

omit hclosed in
theorem State.startOccurrences_startTables (src : Source) :
    (s.startTables readings).startOccurrences readings (s.retentionCount readings) src = s.foundRaised readings t src := by
  have hactive (x : Source) : ((s.startTables readings).entry x).any ConditionRecord.active = s.keptActive readings x := by
    rw [State.entry_startTables, State.keptActive]
    cases s.kept readings x <;> rfl
  cases src <;> simp only [State.startOccurrences, State.foundRaised, State.foundAbnormal, State.removedAtStart_startTables,
    State.forcedAtStart, State.readingsTaken_comp, State.startTables_unset, hactive, hsettings, hcoins]

end

/-- Settles O14: the blocks from `fullStart_begun`, the records from `restartedEntry`. -/
theorem startUpLeavesEachBlockAtItsStartUpValues : Obligations.StartUpLeavesEachBlockAtItsStartUpValues := by
  intro readings s hcut
  refine ⟨s.fullStart readings, by rw [exec_mainSupplyStart, State.startUp_of_whole hcut], ?_⟩
  intro lost regions removed forcedEntry forced alarm
  have hlevel : (s.fullStart readings).LevelHeld := State.startUp_of_whole hcut s ▸ levelHeld_startUp
  obtain ⟨changed, hinputs, ht⟩ := State.fullStart_begun readings s
  obtain ⟨t, htname⟩ : ∃ t, s.fullStart readings = t := ⟨_, rfl⟩
  rw [htname] at ht hlevel ⊢
  have hretention : (s.startTables readings).normal .retention = true := by rw [State.normal_startTables]; rfl
  obtain ⟨u, hu⟩ : ∃ u, (s.startTables readings).conditionsStarted readings (s.retentionCount readings) = u := ⟨_, rfl⟩
  have hnormal (src : Source) : u.normal src = (s.startTables readings).startedNormal readings src :=
    hu ▸ State.normal_conditionsStarted ..
  have hentry (src : Source) : u.entry src = (s.startTables readings).restartedEntry readings (s.retentionCount readings) src :=
    hu ▸ State.entry_conditionsStarted readings _ src hretention
  rw [hu] at hinputs ht
  have hlost : s.defaulted readings = lost := rfl
  have hclock : t.clock = (s.clock.restart s.now (lost .bands) (lost .clock)).formBand := by rw [ht]; rfl
  have hbefore : (s.startTables readings).clock = t.clock := (State.startTables_clock readings s).trans hclock.symm
  have hsettings : t.settings = (s.startTables readings).settings := by rw [State.startTables_settings, ht]; rfl
  have htariff : t.tariff = s.tableStarted readings := by rw [ht]; rfl
  have hreport : t.report = ReportUnit.placed t.anyOutstanding alarm s.now := by rw [ht]; rfl
  have hclosed : t.comp.closedTally = (s.compartmentFound readings).closedTally := by rw [ht]; rfl
  have hcoins : t.comp.current.totalCoins = (s.compartmentFound readings).current.totalCoins := by rw [ht]; rfl
  have hsup : t.sup = u.sup := by rw [ht]; rfl
  obtain ⟨htime, hweekday, hholidays⟩ := StationClock.restart_eq s.now (lost .bands) (lost .clock) s.clock
  refine ⟨?blocks, ?rest⟩
  case blocks =>
    refine ⟨by rw [ht]; rfl, by rw [ht]; rfl, by rw [ht]; rfl, by rw [ht]; rfl, by rw [ht]; rfl, by rw [ht]; rfl, ?_,
      ⟨?_, ?_, ?_⟩, hclock ▸ htime, ?_, hclock ▸ hweekday, fun day => ?_, hclock ▸ hholidays, ?_, by rw [ht]; rfl,
      by rw [ht]; rfl, by rw [ht]; rfl, by rw [ht]; rfl, ⟨?_, ?_, ?_, ?_⟩, hlevel, by rw [ht]; rfl, by rw [ht]; rfl, by rw [ht]; rfl⟩
    · rw [htariff]; rfl
    · rw [htariff]; rfl
    · rw [htariff]; rfl
    · rw [htariff, State.tableStarted, hbefore, hlost]
    · rw [hclock]; exact StationClock.restart_unset ..
    · rw [hclock]; exact StationClock.schedule_restart ..
    · rw [hclock]; rfl
    all_goals
      rw [hreport]
      cases t.anyOutstanding <;> rfl
  case rest =>
    clear ht
    intro kept active abnormal raised latches
    have habnormal (src : Source) : abnormal src = s.foundAbnormal readings t src := by cases src <;> rfl
    have hraised (src : Source) : raised src = s.foundRaised readings t src := by
      cases src
      case retention => exact (State.retentionCount_eq readings s).symm
      all_goals rfl
    have hstarted (src : Source) : (s.startTables readings).startedNormal readings src = !abnormal src :=
      (State.startedNormal_startTables hsettings hclosed hcoins src).trans (congrArg _ (habnormal src).symm)
    have hoccurs (src : Source) :
        (s.startTables readings).startOccurrences readings (s.retentionCount readings) src = raised src :=
      (State.startOccurrences_startTables hsettings hcoins src).trans (hraised src).symm
    have hkept (src : Source) : (s.startTables readings).entry src = (kept src).map ConditionRecord.uncounted :=
      State.entry_startTables ..
    have htentry (src : Source) :
        t.entry src = (s.startTables readings).restartedEntry readings (s.retentionCount readings) src := by
      rw [← hentry, State.entry, State.entry, State.record, State.record, hsup]
    have henabled (src : Source) : (s.startTables readings).reportEnabled src = t.reportEnabled src :=
      State.reportEnabled_congr hsettings.symm src
    have hactive (src : Source) : active src = (kept src).any fun r => r.state ≠ .cleared := rfl
    have hkeeps : kept = s.kept readings := rfl
    clear_value kept active abnormal raised
    refine ⟨fun src => ?normal, fun src hquiet => ?quiet, fun src hsome hbound => ?raised, fun i => ?inputs⟩
    case normal =>
      rw [← hstarted, ← hnormal, State.normal, State.normal, hsup]
    case quiet =>
      have hsettled := (htentry src).trans (State.restartedEntry_of_quiet ((hoccurs src).trans hquiet))
      rw [hkept, hstarted, henabled, hbefore] at hsettled
      refine ⟨fun hnone => State.record_of_entry_none (by rw [hsettled, hnone]; rfl), fun r hr => ?_⟩
      rw [hr] at hsettled
      exact State.record_settled hsettled
    case raised =>
      intro gone before
      by_cases hsource : src = .retention
      · subst hsource
        obtain ⟨hgone, hheld⟩ := State.record_retention (htentry .retention) (henabled .retention)
          (Nat.lt_of_lt_of_eq hsome (hoccurs .retention).symm) (hkeeps ▸ hbound)
        refine ⟨fun _ => hgone, fun hor => ?_⟩
        have hcounts : before = (kept .retention).elim 0 ConditionRecord.count := by
          simp only [before, gone]
          cases kept .retention <;> rfl
        rw [hcounts, ← hbefore, ← hoccurs, hkeeps]
        exact hheld (hor.resolve_left (absurd rfl))
      · refine ⟨fun h => absurd h hsource, fun _ => ?_⟩
        rw [if_neg hsource, ← hbefore, ← hoccurs]
        by_cases hclocked : src = .clock
        · subst hclocked
          have hunset : (s.startTables readings).clock.unset = true := by
            rw [← hoccurs] at hsome
            exact eq_true_of_one_pos hsome
          have honce : (s.startTables readings).startOccurrences readings (s.retentionCount readings) .clock = 1 := by
            rw [State.startOccurrences, hunset]
            rfl
          have hcounts : before = (kept .clock).elim 0 fun r =>
              if r.state = .cleared ∧ t.reportEnabled .clock = false then 0 else r.count := by
            simp only [before, gone, hactive]
            cases kept .clock <;> simp
          rw [honce, hcounts, hkeeps]
          exact State.record_clock (htentry .clock) (henabled .clock) ((State.startTables_unset readings s).symm.trans hunset)
            (hkeeps ▸ hbound)
        · obtain ⟨r, hr, hsnapshot, hraisedBy⟩ :=
            State.restartedEntry_of_raised (Nat.lt_of_lt_of_eq hsome (hoccurs src).symm) hsource hclocked
          refine State.record_raised ((htentry src).trans hr) hsnapshot hraisedBy (fun b hb => ?_) ?_
          · obtain ⟨old, hold, rfl⟩ := Option.map_eq_some_iff.1 ((hkept src).symm.trans hb)
            exact hbound old hold
          · rw [hkept]
            simp only [before, gone, hclocked, decide_false, Bool.false_and]
            cases kept src <;> rfl
    case inputs =>
      have hinput : t.sup.inputs[i] = (s.sup.inputs[i].restart (lost .settings)).delayed s.now (!abnormal (.input i))
          readings.linesHigh[i] := by
        rw [hsup, hinputs, ← hstarted, ← hlost, ← State.startTables_inputs]
        simp [State.delayedInputs]
      intro x a inactive
      have hinactive : inactive = a.inactiveAt readings.linesHigh[i] := by
        simp only [inactive, Assignment.inactiveAt]
        cases a.polarity <;> cases readings.linesHigh[i] <;> rfl
      rw [hinput, hinactive]
      exact SupervisedInput.delayed_restart ..

end Sys2Proof.Machine
end

/-! ## Lost supplies, and a start-up that is cut short (R191, R192) -/

section
namespace Sys2Proof.Machine

/-! ### Losses -/

theorem State.whilePowered_of_lost {work : State → State} {s : State} (h : s.supplies.main = false) :
    s.whilePowered work = s := if_neg (by simp [h])

/-- R191: while the main supply is lost no command but those of the supplies and of the running clock has an effect. -/
theorem exec_of_lost {s : State} (h : s.supplies.main = false) {c : Instr} (hsecond : c ≠ .clockSecond)
    (hbackup : c ≠ .backupSupplyLoss) (hstart : ∀ readings, c ≠ .mainSupplyStart readings) : exec c s = .next s := by
  cases c
  case clockSecond => exact absurd rfl hsecond
  case backupSupplyLoss => exact absurd rfl hbackup
  case mainSupplyStart readings => exact absurd rfl (hstart readings)
  case mainSupplyLoss => exact congrArg Host.Outcome.next (if_neg (by simp [h]))
  all_goals exact congrArg Host.Outcome.next (State.whilePowered_of_lost h)

theorem ConditionRecord.bank_eq (now : Nat) (r : ConditionRecord) : r.bank now =
    { r with activeMs := r.activeMs + r.activeSince.elim 0 (fun t => now - t), activeSince := none } := by
  unfold ConditionRecord.bank ConditionRecord.recount
  obtain ⟨_, _, _, _, _, _, _, _, activeSince, _⟩ := r
  cases activeSince <;> rfl

theorem State.loseMain_of_main {s : State} (h : s.supplies.main = true) : s.loseMain = { s with
    supplies := { s.supplies with main := false, backupLost := false }
    sup := { s.sup with records := s.sup.records.map (fun r => r.map (fun r =>
      { r with activeMs := r.activeMs + r.activeSince.elim 0 (fun t => s.now - t), activeSince := none })) } } := by
  rw [State.loseMain, if_pos h, State.bankActive, funext (ConditionRecord.bank_eq s.now)]
  rfl

/-! ### The start-up that leaves the reset state (log entry 5) -/

/-- The state that steps 1 to 3 leave where every region takes its defaults at elapsed time 0: nothing is recorded, and CLOCK is
abnormal. -/
def State.blank (pending : List Instr) (door : DoorReading) (key : KeyReading) : State := { State.reset with
  pending := pending
  coin := .startUp []
  comp := { State.reset.comp with door := door, key := key }
  sup := { State.reset.sup with records := Vector.replicate 22 none }
  report := .startUp
  attention := { flags := .none, mask := .none } }

/-- The blank state with the RETENTION record of the one occurrence raised. -/
def State.retentionRaised (pending : List Instr) : State := { State.blank pending .closed .locked with
  sup := { State.reset.sup with records := (Vector.replicate 22 none).set 11 (some resetRetentionRecord) }
  attention := { flags := { AttentionFlags.none with conditionChanged := true }, mask := .none } }

/-- The blank state with both records of the reset state. -/
def State.clockRaised (pending : List Instr) : State := { State.blank pending .closed .locked with
  sup := State.reset.sup
  attention := { flags := { AttentionFlags.none with conditionChanged := true }, mask := .none } }

theorem State.setNormality_of_none {src : Source} {s : State} (h : s.record src = none) (abnormal : Bool) :
    s.setNormality src abnormal = s.setSup { s.sup with abnormal := s.sup.abnormal.set src.idx abnormal } := by
  have hnone : (s.setSup { s.sup with abnormal := s.sup.abnormal.set src.idx abnormal }).record src = none := h
  rw [State.setNormality, State.recount, hnone]

theorem State.takeNormality_of_no_record {s : State} (h : ∀ src, s.record src = none) : s.takeNormality =
    s.setSup { s.sup with
      abnormal := Source.all.foldl (fun v src => v.set src.idx (s.startAbnormal src)) s.sup.abnormal } := by
  have hfold (l : List Source) (v : Vector Bool 22) :
      l.foldl (fun t src => t.setNormality src (t.startAbnormal src)) (s.setSup { s.sup with abnormal := v }) =
        s.setSup { s.sup with abnormal := l.foldl (fun v src => v.set src.idx (s.startAbnormal src)) v } := by
    induction l generalizing v with
    | nil => rfl
    | cons src l ih =>
      have hstart : (s.setSup { s.sup with abnormal := v }).startAbnormal src = s.startAbnormal src := by
        cases src <;> rfl
      have hset := State.setNormality_of_none (s := s.setSup { s.sup with abnormal := v }) (h src) (s.startAbnormal src)
      rw [List.foldl_cons, List.foldl_cons, ← ih, hstart, hset]
      rfl
  exact hfold Source.all s.sup.abnormal

theorem State.settleRecord_of_none {src : Source} {s : State} (h : s.record src = none) : s.settleRecord src = s := by
  have hremoved : s.removeSnapshot src = s := by rw [State.removeSnapshot, h]
  have hcleared : s.clearIfNormal src = s := by rw [State.clearIfNormal, h]
  rw [State.settleRecord, hremoved, hcleared, State.retireIfDue, h]

theorem State.settled_of_no_record {s : State} (h : ∀ src, s.record src = none) : s.settled = s := by
  have hfold (l : List Source) : l.foldl (fun t src => t.settleRecord src) s = s := by
    induction l with
    | nil => rfl
    | cons src l ih => rw [List.foldl_cons, State.settleRecord_of_none (h src), ih]
  exact (State.settled_eq s).trans (hfold Source.all)

theorem State.record_blank (pending : List Instr) (door : DoorReading) (key : KeyReading) (src : Source) :
    (State.blank pending door key).record src = none := Vector.getElem_replicate ..

theorem State.abnormal_reset :
    Source.all.foldl (fun v src => v.set src.idx (decide (src = Source.clock))) (Vector.replicate 22 false) =
      State.reset.sup.abnormal := by decide

theorem SupervisedInput.map_restart_lost (inputs : Vector SupervisedInput 8) :
    inputs.map (SupervisedInput.restart true) = State.reset.sup.inputs := by
  ext i hi : 1
  rw [Vector.getElem_map]
  exact (Vector.getElem_replicate ..).symm

theorem State.startTables_of_lost {readings : StartReadings} {s : State} (h : s.supplies.backupLost = true) (hnow : s.now = 0) :
    s.startTables readings = State.blank s.pending s.comp.door s.comp.key := by
  have hlost : s.defaulted readings = fun _ => true := by
    funext r
    rw [State.defaulted, h]
    rfl
  have hrestarted : s.restarted readings = { State.blank s.pending s.comp.door s.comp.key with
      sup := { State.reset.sup with
        records := Vector.replicate 22 none, abnormal := Vector.replicate 22 false } } := by
    have hfailed : s.failedRegions readings = [] := if_pos h
    have hrestarted : s.restarted readings = ((s.bankActive.restartWith (s.defaulted readings)
        { main := true, backupLost := false, outcomeBackupHeld := !s.supplies.backupLost,
          outcomeFailed := s.failedRegions readings }).restartTables) := rfl
    rw [hrestarted, hlost, hfailed, h, State.restartWith, SupervisedInput.map_restart_lost,
      show s.bankActive.now = 0 from hnow]
    rfl
  have htaken : s.startTables readings = (s.restarted readings).takeNormality := rfl
  have habnormal : ({ State.blank s.pending s.comp.door s.comp.key with
      sup := { State.reset.sup with
        records := Vector.replicate 22 none, abnormal := Vector.replicate 22 false } } : State).startAbnormal =
      fun src => decide (src = .clock) := by
    funext src
    cases src
    case input i =>
      have hnone : (Vector.replicate 22 (none : Option ConditionRecord))[(Source.input i).idx] = none :=
        Vector.getElem_replicate ..
      simp [State.startAbnormal, State.recordActive, State.record, hnone]
    all_goals rfl
  rw [htaken, hrestarted, State.takeNormality_of_no_record fun src => Vector.getElem_replicate .., habnormal]
  exact congrArg (fun abnormal => (State.blank s.pending s.comp.door s.comp.key).setSup
    { (State.blank s.pending s.comp.door s.comp.key).sup with abnormal := abnormal }) State.abnormal_reset

theorem State.conditionsStarted_blank (failed : List Region) (lines : Vector Bool 8) (pending : List Instr) (door : DoorReading)
    (key : KeyReading) :
    (State.blank pending door key).conditionsStarted ⟨failed, .closed, .locked, .absent, lines, none⟩ 1 =
      State.clockRaised pending := by
  have hread : (State.blank pending door key).takeReadings ⟨failed, .closed, .locked, .absent, lines, none⟩ =
      State.blank pending .closed .locked := rfl
  have hforced : (State.blank pending .closed .locked).startForcedEntry ⟨failed, .closed, .locked, .absent, lines, none⟩ =
      State.blank pending .closed .locked := rfl
  have hnear : (State.blank pending .closed .locked).startNear = State.blank pending .closed .locked := rfl
  have hfull : (State.blank pending .closed .locked).startFull = State.blank pending .closed .locked := rfl
  have hdelays : (State.blank pending .closed .locked).startClearDelays ⟨failed, .closed, .locked, .absent, lines, none⟩ =
      State.blank pending .closed .locked := rfl
  have hretention : (State.blank pending .closed .locked).retained 1 = State.retentionRaised pending := rfl
  have hclock : (State.retentionRaised pending).clockOccurrence = State.clockRaised pending := rfl
  have hlevel : (State.clockRaised pending).holdLevel = State.clockRaised pending := rfl
  rw [State.conditionsStarted, State.compartmentStarted, hread, hforced, hnear, hfull, hdelays,
    State.settled_of_no_record (fun src => State.record_blank ..), hretention, hclock, hlevel]

theorem State.forfeit_clockRaised (pending : List Instr) :
    (State.clockRaised pending).addStartForfeit.clearBanked = State.clockRaised pending := rfl

theorem State.refund_clockRaised (pending : List Instr) : (State.clockRaised pending).requestRefund true false =
    { State.clockRaised pending with coin := State.reset.coin } := rfl

theorem State.outstanding_clockRaised (pending : List Instr) :
    ({ State.clockRaised pending with coin := State.reset.coin } : State).outstanding .retention = true := rfl

theorem State.timerOf_of_idle {s : State} (hidle : s.session.state = .idle) (hnow : s.now = 0) (delay : Nat) :
    s.timerOf delay = .running delay := by
  rw [State.timerOf, if_pos hidle, hnow, Nat.zero_add]

theorem State.fullStart_of_lost {failed : List Region} {lines : Vector Bool 8} {s : State} (h : s.supplies.backupLost = true)
    (hnow : s.now = 0) :
    s.fullStart ⟨failed, .closed, .locked, .absent, lines, none⟩ = { State.reset with pending := s.pending } := by
  have hcount (readings : StartReadings) : s.retentionCount readings = 1 := if_pos h
  have hout : ({ State.clockRaised s.pending with coin := State.reset.coin } : State).anyOutstanding = true :=
    List.any_eq_true.2 ⟨.retention, Source.mem_all _, State.outstanding_clockRaised _⟩
  have hquiet : (State.blank s.pending s.comp.door s.comp.key).alarmAtStart
      ⟨failed, .closed, .locked, .absent, lines, none⟩ = false := rfl
  rw [State.fullStart, State.startTables_of_lost h hnow, hcount, State.makeChanges_startChanges_eq,
    State.conditionsStarted_blank, State.forfeit_clockRaised, hquiet]
  dsimp only
  rw [State.refund_clockRaised, State.startReport, if_pos hout, State.schedule, State.timerOf_of_idle rfl rfl]
  rfl

/-! ### A supply that fails while the regions are judged (step 1) -/

theorem ConditionRecord.bank_recount (now : Nat) (counting : Bool) (r : ConditionRecord) :
    (r.recount now counting).bank now = r.bank now := by
  obtain ⟨_, _, _, _, _, _, _, _, activeSince, _⟩ := r
  cases activeSince <;> cases counting <;> simp [ConditionRecord.bank, ConditionRecord.recount]

theorem ConditionRecord.bank_bank (now : Nat) (r : ConditionRecord) : (r.bank now).bank now = r.bank now :=
  ConditionRecord.bank_recount now false r

/-- The records of a state with their active seconds banked. -/
def State.banked (s : State) : Vector (Option ConditionRecord) 22 :=
  s.sup.records.map fun r => r.map (ConditionRecord.bank s.now)

theorem State.banked_setNormality (src : Source) (abnormal : Bool) (s : State) :
    (s.setNormality src abnormal).banked = s.banked := by
  obtain ⟨u, hu⟩ : ∃ u, s.setSup { s.sup with abnormal := s.sup.abnormal.set src.idx abnormal } = u := ⟨_, rfl⟩
  have hbanked : u.banked = s.banked := by rw [← hu]; rfl
  rw [State.setNormality, hu, ← hbanked, State.recount]
  split
  · rfl
  next r hr =>
    have helement : some (r.bank u.now) = u.banked[src.idx] := by
      have hrecord : u.sup.records[src.idx] = some r := hr
      simpa [State.banked] using congrArg (Option.map (ConditionRecord.bank u.now)) hrecord.symm
    have hput : (u.putRecord src (some (r.recount u.now (u.counting src)))).banked =
        u.banked.set src.idx (some (r.bank u.now)) := by
      rw [← ConditionRecord.bank_recount u.now (u.counting src) r]
      exact Vector.map_set ..
    rw [hput, helement]
    exact Vector.set_getElem_self ..

theorem State.banked_takeNormality (s : State) : s.takeNormality.banked = s.banked :=
  foldl_keeps State.banked _ (fun t src => State.banked_setNormality src (t.startAbnormal src) t) Source.all s

/-- R192: the regions judged so far, before the normality of the sources is taken. -/
def State.cutRegions (readings : StartReadings) (written : List Region) (s : State) : State :=
  let lost (r : Region) : Bool := s.defaulted readings r && r ∈ written
  let s₁ := s.bankActive.restartWith lost s.supplies
  let s₂ := (s₁.setSup { s₁.sup with inputs := s.sup.inputs.map (fun x => if lost .settings then .unused else x) }).setClock
    { s₁.clock with unset := lost .clock || s.clock.unset }
  ((s₂.setSession (if lost .tariff then .startUp else s.session)).setRating
    (if lost .tariff then .startUp else s.rating)).setLine (if lost .tariff then .startUp else s.line)

theorem State.cutTables_eq (readings : StartReadings) (written : List Region) (s : State) :
    s.cutTables readings written = (s.cutRegions readings written).takeNormality := rfl

theorem State.banked_cutRegions (readings : StartReadings) (written : List Region) (s : State) :
    (s.cutRegions readings written).banked =
      if s.defaulted readings .accounts && Region.accounts ∈ written then Vector.replicate 22 none else s.banked := by
  have hrecords : (s.cutRegions readings written).banked =
      (if s.defaulted readings .accounts && Region.accounts ∈ written then Vector.replicate 22 none else s.banked).map
        fun r => r.map (ConditionRecord.bank s.now) := rfl
  rw [hrecords]
  split
  · exact Vector.map_replicate ..
  · rw [State.banked, Vector.map_map]
    refine congrArg (Vector.map · _) (funext fun r => ?_)
    cases r with
    | none => rfl
    | some r => exact congrArg some (ConditionRecord.bank_bank ..)

/-- R192: what a supply that fails during step 1 leaves, apart from the supervision unit and the flags. -/
theorem State.cutJudging_eq (readings : StartReadings) (written : List Region) (s : State) :
    ∃ sup attention, s.cutJudging readings written =
      { s.cutRegions readings written with supplies := { s.supplies with main := false }, sup := sup, attention := attention } ∧
      sup.inputs = (s.cutRegions readings written).sup.inputs ∧
      sup.records = if s.defaulted readings .accounts && Region.accounts ∈ written then Vector.replicate 22 none else s.banked := by
  obtain ⟨t, ht⟩ : ∃ t, s.cutTables readings written = t := ⟨_, rfl⟩
  have hbanked : t.banked = if s.defaulted readings .accounts && Region.accounts ∈ written then Vector.replicate 22 none
      else s.banked := by
    rw [← ht, State.cutTables_eq, State.banked_takeNormality, State.banked_cutRegions]
  have hconditioned : (s.cutRegions readings written).Conditioned t := ht ▸ State.conditioned_takeNormality _
  rw [State.cutJudging, ht, ← hbanked]
  obtain ⟨_, _, _, _, _, _, rfl⟩ := hconditioned
  exact ⟨_, _, rfl, rfl, rfl⟩

theorem Compartment.restart_eq (lost : Bool) (c : Compartment) :
    (c.restart lost).current = (if lost then Tally.zero else c.current) ∧
      (c.restart lost).closedTally = (if lost then none else c.closedTally) ∧
      (c.restart lost).presence = if lost then .absent else c.presence := by
  cases lost <;> exact ⟨rfl, rfl, rfl⟩

/-! ### A supply that fails after some of the changes (log entry 46) -/

/-- R192: the changes between the first readings and the forfeit of the retained B. -/
def State.middleChanges (readings : StartReadings) (lost : Nat) : List (State → State) :=
  [State.startForcedEntry readings, State.startNear, State.startFull, State.startClearDelays readings] ++
  Source.all.map State.settleRecord ++ List.replicate lost State.retentionOccurrence ++
  [State.clockOccurrence, State.holdLevel]

theorem State.makeChanges_nil (s : State) : s.makeChanges [] = s := rfl

theorem State.startChanges_eq (readings : StartReadings) (lost : Nat) : State.startChanges readings lost =
    State.takeReadings readings :: (State.middleChanges readings lost ++ [State.addStartForfeit, State.clearBanked]) := by
  simp [State.startChanges, State.middleChanges]

theorem State.length_middleChanges (readings : StartReadings) (lost : Nat) :
    (State.middleChanges readings lost).length = 28 + lost := by
  simp only [State.middleChanges, List.length_append, List.length_map, List.length_replicate, List.length_cons, List.length_nil]
  rw [show Source.all.length = 22 from rfl]
  omega

/-- A middle change touches neither the compartment nor the account. -/
theorem State.middleChange_keeps {readings : StartReadings} {lost : Nat} {f : State → State}
    (hf : f ∈ State.middleChanges readings lost) {s : State} (h : s.session.decision = none) :
    (f s).session.decision = none ∧ (f s).comp = s.comp ∧ (f s).credit = s.credit := by
  have hconditioned {t : State} (ht : s.Conditioned t) :
      t.session.decision = none ∧ t.comp = s.comp ∧ t.credit = s.credit := by
    obtain ⟨_, _, _, _, _, _, rfl⟩ := ht
    exact ⟨h, rfl, rfl⟩
  simp only [State.middleChanges, List.mem_append, List.mem_cons, List.not_mem_nil, or_false, List.mem_map,
    List.mem_replicate] at hf
  obtain ((((rfl | rfl | rfl | rfl) | ⟨src, -, rfl⟩) | ⟨-, rfl⟩) | rfl | rfl) := hf
  · exact hconditioned (State.conditioned_startForcedEntry ..)
  · exact hconditioned (State.conditioned_startThreshold ..)
  · exact hconditioned (State.conditioned_startThreshold ..)
  · exact ⟨h, rfl, rfl⟩
  · exact hconditioned (State.conditioned_settleRecord h src)
  · exact hconditioned (State.conditioned_retentionOccurrence h)
  · exact hconditioned State.conditioned_clockOccurrence
  · exact hconditioned (State.conditioned_holdLevel s)

theorem State.middleChanges_keep {readings : StartReadings} {lost : Nat} {changes : List (State → State)}
    (hchanges : ∀ f ∈ changes, f ∈ State.middleChanges readings lost) {s : State} (h : s.session.decision = none) :
    (s.makeChanges changes).comp = s.comp ∧ (s.makeChanges changes).credit = s.credit :=
  (State.makeChanges_law (P := fun t => t.session.decision = none ∧ t.comp = s.comp ∧ t.credit = s.credit)
    (fun f hf _ ⟨hdecision, hcomp, hcredit⟩ =>
      have hkeeps := State.middleChange_keeps (hchanges f hf) hdecision
      ⟨hkeeps.1, hkeeps.2.1.trans hcomp, hkeeps.2.2.trans hcredit⟩) s ⟨h, rfl, rfl⟩).2

theorem State.takeReadings_keeps (readings : StartReadings) (s : State) :
    (s.takeReadings readings).session = s.session ∧ (s.takeReadings readings).credit = s.credit := by simp

/-- R39, R192: the tallies and the account after so many of a start-up's changes, the first readings taken. -/
theorem State.comp_credit_changes (readings : StartReadings) (lost n : Nat) {s t : State} (h : s.session.decision = none)
    (ht : s.makeChanges ((State.startChanges readings lost).take (n + 1)) = t) :
    let c := (s.readingsTaken readings).comp
    t.comp = { c with current := { c.current with forfeit :=
      if n < 29 + lost then c.current.forfeit else min 4294967295 (c.current.forfeit + s.credit.banked) } } ∧
    t.credit.banked = if n < 30 + lost then s.credit.banked else 0 := by
  obtain ⟨hsession, hcredit⟩ := State.takeReadings_keeps readings s
  have hcomp := State.comp_takeReadings readings s
  obtain ⟨u, hu⟩ : ∃ u, (s.takeReadings readings).makeChanges ((State.middleChanges readings lost).take n) = u := ⟨_, rfl⟩
  obtain ⟨hucomp, hucredit⟩ : u.comp = (s.readingsTaken readings).comp ∧ u.credit = s.credit := by
    rw [← hu, ← hcomp, ← hcredit]
    exact State.middleChanges_keep (State.mem_of_take n) (hsession ▸ h)
  have hsplit : s.makeChanges ((State.startChanges readings lost).take (n + 1)) =
      u.makeChanges ([State.addStartForfeit, State.clearBanked].take (n - (28 + lost))) := by
    rw [State.startChanges_eq, List.take_succ_cons, List.take_append, State.length_middleChanges, ← hu,
      ← State.makeChanges_append]
    rfl
  rw [hsplit] at ht
  intro c
  have hforfeit : u.addStartForfeit.comp = { c with current := { c.current with
      forfeit := min 4294967295 (c.current.forfeit + s.credit.banked) } } := by
    rw [← hucredit]
    simp only [c, ← hucomp]
    rfl
  obtain hbefore | rfl | ⟨k, rfl⟩ : n < 29 + lost ∨ n = 29 + lost ∨ ∃ k, n = 30 + lost + k := by
    rcases Nat.lt_trichotomy n (29 + lost) with h | h | h
    · exact .inl h
    · exact .inr (.inl h)
    · exact .inr (.inr ⟨n - (30 + lost), by omega⟩)
  · rw [← ht, show n - (28 + lost) = 0 by omega, if_pos hbefore, if_pos (by omega)]
    exact ⟨hucomp, congrArg Credit.banked hucredit⟩
  · rw [← ht, show 29 + lost - (28 + lost) = 1 by omega, if_neg (by omega), if_pos (by omega)]
    exact ⟨hforfeit, congrArg Credit.banked hucredit⟩
  · rw [← ht, List.take_of_length_le (by simp only [List.length_cons, List.length_nil]; omega), if_neg (by omega),
      if_neg (by omega)]
    exact ⟨hforfeit, rfl⟩

/-- Two states with no call, one tariff table and one assignment of the inputs, in effect and staged. -/
def State.SameAssignments (s t : State) : Prop := t.session.decision = none ∧ t.tariff = s.tariff ∧ ∀ i : Fin 8,
  (t.sup.inputs[i].assignment, t.sup.inputs[i].staged) = (s.sup.inputs[i].assignment, s.sup.inputs[i].staged)

theorem State.SameAssignments.conditioned {s t u : State} (h : s.SameAssignments t) (htu : t.Conditioned u) :
    s.SameAssignments u := by
  obtain ⟨_, _, _, _, _, _, rfl⟩ := htu
  exact h

/-- R192: what any number of a start-up's changes leaves of the tariff table and of the inputs' assignments. -/
theorem State.sameAssignments_changes (readings : StartReadings) (lost n : Nat) {s : State}
    (h : s.session.decision = none) :
    s.SameAssignments (s.makeChanges ((State.startChanges readings lost).take n)) := by
  refine State.startChanges_law (P := s.SameAssignments) (fun t ht => ?_)
    (fun t ht => ht.conditioned (State.conditioned_startForcedEntry ..))
    (fun t ht => ht.conditioned (State.conditioned_startThreshold ..))
    (fun t ht => ht.conditioned (State.conditioned_startThreshold ..)) (fun t ht => ?_)
    (fun src t ht => ht.conditioned (State.conditioned_settleRecord ht.1 src))
    (fun t ht => ht.conditioned (State.conditioned_retentionOccurrence ht.1))
    (fun t ht => ht.conditioned State.conditioned_clockOccurrence) (fun t ht => ht.conditioned (State.conditioned_holdLevel t))
    (fun t ht => ht) (fun t ht => ht) lost (State.mem_of_take n) s ⟨h, rfl, fun _ => rfl⟩
  · refine State.SameAssignments.conditioned (t := t.readingsTaken readings) ?_ (State.conditioned_takeReadings readings t)
    rw [State.readingsTaken_eq]
    exact ht
  · obtain ⟨hdecision, htariff, hinputs⟩ := ht
    refine ⟨hdecision, htariff, fun i => ?_⟩
    rw [State.startClearDelays_inputs, SupervisedInput.delayed]
    split
    · exact hinputs i
    · exact hinputs i

section
variable (readings : StartReadings) (s : State)

/-- R192: the start-up cut short after so many changes, before the supply is lost. -/
def State.changesMade (changes : Nat) : State :=
  (s.startTables readings).makeChanges ((State.startChanges readings (s.retentionCount readings)).take changes)

theorem State.startTables_decision : (s.startTables readings).session.decision = none := by
  rw [State.startTables_session]
  rfl

theorem State.startTables_supplies : (s.startTables readings).supplies =
    { main := true, backupLost := false, outcomeBackupHeld := !s.supplies.backupLost
      outcomeFailed := s.failedRegions readings } := by
  obtain ⟨_, _, _, _, _, _, h⟩ := State.conditioned_startTables readings s
  rw [h]
  rfl

theorem State.startTables_credit :
    (s.startTables readings).credit = .startUp (if s.defaulted readings .escrow then 0 else s.credit.banked) := by
  obtain ⟨_, _, _, _, _, _, h⟩ := State.conditioned_startTables readings s
  rw [h]
  rfl

theorem State.startTables_coin :
    (s.startTables readings).coin = .startUp (if s.defaulted readings .escrow then [] else s.coin.column) := by
  obtain ⟨_, _, _, _, _, _, h⟩ := State.conditioned_startTables readings s
  rw [h]
  rfl

/-- R192: what the loss of the supply leaves of a start-up cut short. -/
theorem State.cutAfter_eq {changes : Nat} {u : State} (hu : s.changesMade readings changes = u) :
    ∃ sup attention, s.cutAfter readings changes = { u with
      supplies :=
        { main := false, backupLost := false, outcomeBackupHeld := !s.supplies.backupLost
          outcomeFailed := s.failedRegions readings }
      sup := sup, attention := attention } ∧ sup.inputs = u.sup.inputs := by
  have hsupplies : u.supplies = { main := true, backupLost := false, outcomeBackupHeld := !s.supplies.backupLost
                                  outcomeFailed := s.failedRegions readings } := by
    rw [← State.startTables_supplies, ← hu]
    exact (State.startChanges_take_frame readings _ changes _).2.2.1
  have hcut : s.cutAfter readings changes = u.holdLevel.loseMain := congrArg (fun t => t.holdLevel.loseMain) hu
  have hmain : u.holdLevel.supplies.main = true := congrArg Supplies.main hsupplies
  have hheld : u.holdLevel.supplies = u.supplies := rfl
  rw [hcut, State.loseMain_of_main hmain, hheld, hsupplies]
  exact ⟨_, _, rfl, rfl⟩

end

/-- R192: the tallies and the account of a start-up cut short. -/
theorem State.comp_credit_changesMade {readings : StartReadings} {changes : Nat} {s t : State}
    (ht : s.changesMade readings changes = t) :
    let regions := s.retentionCount readings
    let removed : Bool := s.removedMeanwhile readings && 1 ≤ changes
    let banked := if s.defaulted readings .escrow then 0 else s.credit.banked
    let current := if removed || s.defaulted readings .accounts then Tally.zero else s.comp.current
    t.comp.current = { current with forfeit :=
      if changes < 30 + regions then current.forfeit else min 4294967295 (current.forfeit + banked) } ∧
    t.comp.closedTally = (if removed then some (match s.comp.closedTally with
      | none => ⟨s.comp.current, readings.key ≠ .collect, false, false, false⟩
      | some x => ⟨x.figures.merge s.comp.current, x.forced || readings.key ≠ .collect, true, true, false⟩)
      else if s.defaulted readings .accounts then none else s.comp.closedTally) ∧
    t.credit.banked = if changes < 31 + regions then banked else 0 := by
  intro regions removed banked current
  rw [State.changesMade] at ht
  have hbanked : (s.startTables readings).credit.banked = banked := by
    rw [State.startTables_credit]
    rfl
  cases changes with
  | zero =>
    have hnone : removed = false := Bool.and_false _
    obtain ⟨hcurrent, hclosed, -⟩ := Compartment.restart_eq (s.defaulted readings .accounts) s.comp
    rw [List.take_zero, State.makeChanges_nil] at ht
    simp only [current, hnone]
    rw [← ht, State.startTables_comp, hcurrent, hclosed, if_pos (show 0 < 30 + regions by omega),
      if_pos (show 0 < 31 + regions by omega), hbanked]
    exact ⟨rfl, rfl, rfl⟩
  | succ n =>
    obtain ⟨hcomp, hcredit⟩ := State.comp_credit_changes readings (s.retentionCount readings) n
      (State.startTables_decision readings s) ht
    have hremoved : removed = s.removedMeanwhile readings := Bool.and_true _
    have hforfeit : (n + 1 < 30 + regions) = (n < 29 + regions) := propext ⟨fun _ => by omega, fun _ => by omega⟩
    have hlast : (n + 1 < 31 + regions) = (n < 30 + regions) := propext ⟨fun _ => by omega, fun _ => by omega⟩
    rw [State.readingsTaken_comp, hbanked] at hcomp
    rw [hbanked] at hcredit
    simp only [current, hremoved, hforfeit, hlast]
    rw [hcomp]
    exact ⟨rfl, rfl, hcredit⟩

theorem SupervisedInput.restart_assignment (lost : Bool) (x : SupervisedInput) :
    ((x.restart lost).assignment, (x.restart lost).staged) =
      (if lost then SupervisedInput.unused.assignment else x.staged.getD x.assignment, none) := by
  cases lost <;> rfl

/-- Settles O13: the losses by the main supply, the start-ups by where they are cut short. -/
theorem lostSuppliesChangeNothingElse : Obligations.LostSuppliesChangeNothingElse := by
  refine ⟨fun s => ⟨fun h => ⟨?_, ?_⟩, fun h => ⟨?_, ?_, ?_⟩⟩, fun failed lines s hlost hnow => ?_,
    fun readings s cut hcut => ?_⟩
  · exact congrArg Host.Outcome.next (State.loseMain_of_main h)
  · exact congrArg Host.Outcome.next (if_pos h)
  · exact exec_of_lost h (by simp) (by simp) (by simp)
  · exact congrArg Host.Outcome.next (if_neg (by simp [h]))
  · exact fun c hsecond hbackup hstart => exec_of_lost h hsecond hbackup hstart
  · rw [exec_mainSupplyStart, State.startUp_of_whole rfl, State.fullStart_of_lost hlost hnow]
  · refine ⟨s.startUp readings, exec_mainSupplyStart .., (State.startUp_frame ..).1, (State.startUp_frame ..).2, ?_⟩
    intro fails
    refine ⟨fun written hjudging => ?judging, fun changes hafter => ?after⟩
    case judging =>
      intro lost
      obtain ⟨sup, attention, ht, hinputs, hrecords⟩ := State.cutJudging_eq readings written s
      have hstart : s.startUp readings = s.cutJudging readings written := by rw [State.startUp, hcut, hjudging]
      obtain ⟨htime, hweekday, hholidays⟩ := StationClock.restart_eq s.now (lost .bands) (lost .clock) s.clock
      obtain ⟨hcurrent, hclosed, hpresence⟩ := Compartment.restart_eq (lost .accounts) s.comp
      rw [hstart, ht]
      refine ⟨rfl, rfl, fun day => StationClock.schedule_restart s.now (lost .bands) (lost .clock) s.clock day, hholidays, rfl,
        fun i => ?_, ?_, ?_, ?_, ?_, rfl, rfl, htime, hweekday, ?_⟩
      · rw [hinputs]
        exact Vector.getElem_map ..
      · exact hcurrent
      · exact hclosed
      · exact hpresence
      · rw [hrecords, State.banked, funext (ConditionRecord.bank_eq s.now)]
        rfl
      · change (lost .clock || s.clock.unset) = _
        cases lost .clock <;> rfl
    case after =>
      intro regions removed banked current
      have hstart : s.startUp readings = s.cutAfter readings changes := by rw [State.startUp, hcut, hafter]
      obtain ⟨u, hu⟩ : ∃ u, s.changesMade readings changes = u := ⟨_, rfl⟩
      obtain ⟨sup, attention, ht, hinputs⟩ := State.cutAfter_eq readings s hu
      obtain ⟨hcurrent, hclosed, hbanked⟩ := State.comp_credit_changesMade hu
      have hsame := State.sameAssignments_changes readings (s.retentionCount readings) changes
        (State.startTables_decision readings s)
      have hframe := State.startChanges_take_frame readings (s.retentionCount readings) changes (s.startTables readings)
      rw [← State.changesMade, hu] at hsame hframe
      obtain ⟨-, htariff, hassignments⟩ := hsame
      obtain ⟨-, -, -, hcoin, hclock, -, hsettings, -⟩ := hframe
      have hregions : s.retentionCount readings = regions := State.retentionCount_eq readings s
      obtain ⟨htime, hweekday, hholidays⟩ := StationClock.restart_eq s.now (fails .bands) (fails .clock) s.clock
      rw [hregions] at hcurrent hbanked
      have hbefore : u.clock = (s.startTables readings).clock := hclock
      rw [State.startTables_clock] at hclock
      rw [hstart, ht]
      refine ⟨rfl, ?_, fun day => ?_, ?_, ?_, fun i => ?_, hcurrent, hclosed, ?_, hbanked, ?_, ?_, ?_⟩
      · refine (htariff.trans (State.startTables_tariff ..)).trans ?_
        rw [State.tableStarted, ← hbefore]
        rfl
      · rw [hclock]
        exact StationClock.schedule_restart ..
      · exact (congrArg StationClock.holidays hclock).trans hholidays
      · exact hsettings.trans (State.startTables_settings ..)
      · rw [hinputs, hassignments, State.startTables_inputs]
        exact SupervisedInput.restart_assignment ..
      · exact (congrArg CoinPath.column (hcoin.trans (State.startTables_coin ..))).trans rfl
      · exact (congrArg StationClock.time hclock).trans htime
      · exact (congrArg StationClock.weekday hclock).trans hweekday
      · exact (congrArg StationClock.unset hclock).trans (StationClock.restart_unset ..)

end Sys2Proof.Machine
end
